-- ==== Sys2Proof/Word.lean ====
section
/-! DEFINITION. The word types of the device and a bit field of a register (R7, R9). -/
namespace Sys2Proof

/-- A register word: every register is 32 bits wide (R9). -/
abbrev W := BitVec 32

/-- One byte of an addressed memory. -/
abbrev Byte := BitVec 8

/-- A register field, written [high:low] (R7). -/
structure Fld where
  hi : Nat
  lo : Nat
  deriving DecidableEq, Repr

/-- The width of a field in bits. -/
def Fld.width (f : Fld) : Nat := f.hi + 1 - f.lo

end Sys2Proof
end

