-- ==== Sys2Proof/Syntax.lean ====
section
/-! DEFINITION. The commands of the device: one constructor per row of the opcode table, with its operands. An operand that is
a measurement or an observation (a power, an error count, the samples of a word) is what the outside world gives the device at
that event. -/
namespace Sys2Proof

/-- A carrier engine (R3). -/
abbrev Eng := Fin 48
/-- A drone (R345). -/
abbrev Drn := Fin 56
/-- A harness (R3). -/
abbrev Harn := Fin 4
/-- A general register g0 to g31 of a drone (R379). -/
abbrev GReg := Fin 32
/-- An address register p0 to p7 (R379). -/
abbrev PReg := Fin 8
/-- A complex accumulator a0 to a7 (R379). -/
abbrev AReg := Fin 8

/-- A party that accesses registers and memories, in the order of R396. -/
inductive Party where
  | host
  | drone (d : Drn)
  | farrier
  | forager
  deriving DecidableEq, Repr

/-- The two memory spaces of the management port (R299). -/
inductive Space where
  | bar0
  | bar2
  deriving DecidableEq, Repr

/-- A 66-bit client block: sync header and payload (R239). -/
structure Blk where
  hdr : BitVec 2
  pay : BitVec 64
  deriving DecidableEq, Repr

/-- Bits of a memory word that flip while its bank is at retention voltage (R477): region, address in the layout of ECC_LOG_ADDR, data and
check bits. -/
structure Upset where
  region : Fin 154
  addr   : W
  data   : BitVec 64
  check  : BitVec 8
  deriving DecidableEq, Repr

/-- One eye of a lane calibration (R290): for each of 65 phases, -32/64 to +32/64 UI, the mismatches in 2^20 UI at each threshold, 0.5 mV
apart. -/
abbrev EyeScan := List (List Nat)

/-- RS(544,514) codewords of a port since its last report (R283, R492): corrected, uncorrectable, and symbols corrected. -/
structure RsCount where
  corr : Nat
  unc  : Nat
  sym  : Nat
  deriving DecidableEq, Repr

/-- What firmware and the line give a transmit boundary: the recommended gait byte, the OAM bytes, and where the four neighbours' transmit streams stand at the pads then, in 2^-16 symbol after their present superframes' starts (R187). -/
structure TxSide where
  reqGait : BitVec 8
  oam     : List Byte
  hw      : List Int
  deriving DecidableEq, Repr

/-- A datapath word of the converters: 256 codes for each of the four ADCs (R81). A command that carries words carries those since
the engine's last such command. -/
abbrev CapWord := List (List Byte)

/-- What a receive boundary brings: the datapath words, and where the four neighbours' receive streams stand then, in 2^-16 symbol
after their present superframes' starts (R187). -/
structure RxObs where
  ws : List CapWord
  hw : List Int
  deriving DecidableEq, Repr

/-- One ADC's sums over one slice's 16,384 samples: sum of x, sum of x squared, and whether a code saturated (R102, R103). -/
structure SliceSum where
  sx  : Int
  sxx : Nat
  sat : Bool
  deriving DecidableEq, Repr

/-- What a calibration step recorded: 2^20 codes of each ADC, in the order of sampling (R101). -/
structure CalMeas where
  codes : List (List Byte)
  deriving DecidableEq, Repr

/-- A data-register scan of the test port: the levels of the balls that the boundary register covers, one cell each, at the capture, and
what TDI shifts in (R537). -/
structure TapScan where
  pins : List Bool
  tdi  : List Bool
  deriving DecidableEq, Repr

/-- What the spare of a mirror made of a codeword (R227): outputs identical to the target's, and a zero syndrome. -/
structure MirrorCmp where
  same : Bool
  sOk  : Bool
  deriving DecidableEq, Repr

/-- What a self-test run measured up to its end (R453, R454), repeats first. REF: measured codes, whether the bandgap is within its limits
and the PLL in lock. LOOP and MEM: patterns that read back as expected (none), and data read. LOGIC: compacted responses. -/
structure StEnd where
  bandgap : BitVec 8 × Bool
  pll     : BitVec 8 × Bool
  ref     : List (Nat × Int)
  loop    : List (Nat × Option (BitVec 64))
  mem     : List (Nat × Option (BitVec 64))
  logic   : List (Nat × BitVec 64)
  deriving DecidableEq, Repr

/-- One command for each row of the opcode table. -/
inductive Instr where
  -- registers and access
  | registerWrite (p : Party) (sp : Space) (a : W) (be : BitVec 4) (v : W) (up : Option W)
  | readClear (p : Party) (sp : Space) (a : W) (inc : Nat)
  | darkAccess (p : Party) (sp : Space) (a : W) (wr : Bool)
  | bar0UnalignedAccess (a : W) (len : Nat) (wr : Bool)
  -- swaps and boundaries
  | swapNextBoundary (p : Party) (n : Eng) (blocks : BitVec 15)
  | swapNamedBoundary (p : Party) (n : Eng) (blocks : BitVec 15)
  | swapImmediate (p : Party) (n : Eng) (blocks : BitVec 15)
  | swapWhenReserved (p : Party) (n : Eng) (blocks : BitVec 15)
  | transmitBoundary (n : Eng) (o : TxSide)
  | receiveBoundary (n : Eng) (o : RxObs)
  -- gait table, overhead, negotiation
  | gaitEntryWrite (p : Party) (n : Eng) (i : Fin 16) (w : Fin 4) (v : W)
  | gaitSelWrite (p : Party) (n : Eng) (v : W)
  | overheadFrameReceive (n : Eng)
  | negTxGo (p : Party) (n : Eng) (v : W)
  | negTxAbandon (p : Party) (n : Eng) (v : W)
  | noReply (n : Eng)
  | negSwitchSuperframe (n : Eng) (o : TxSide)
  | negRxAck (p : Party) (n : Eng) (v : W)
  | negRxNak (p : Party) (n : Eng) (v : W)
  | negLocalTarget (n : Eng) (o : RxObs)
  | gaitCatchUp (n : Eng) (o : RxObs)
  -- converters
  | convSelWrite (p : Party) (n : Eng) (v : W)
  | adcSaturation (n : Eng) (a : Fin 4)
  | overrangeLiveClear (n : Eng) (a : Fin 4)
  | sliceTrackUpdate (n : Eng) (a : Fin 4) (k : Fin 68) (ws : List CapWord) (own : List Byte)
  | spareCompareDone (n : Eng) (c : Fin 8) (sp : Fin 4) (ws : List CapWord) (own act : List Byte)
  | calDark (p : Party) (n : Eng) (v : W)
  | calTone (p : Party) (n : Eng) (v : W)
  | calCompute (p : Party) (n : Eng) (v : W)
  | calNoStep (p : Party) (n : Eng) (v : W)
  | calAbort (p : Party) (n : Eng) (v : W)
  | calStepDone (n : Eng) (m : CalMeas)
  -- capture
  | capArm (p : Party) (n : Eng) (v : W)
  | capDisarm (p : Party) (n : Eng) (v : W) (ws : List CapWord)
  | capPretriggerFull (n : Eng) (ws : List CapWord)
  | capTriggerPin (rising : Bool) (ws : List (Eng × List CapWord))
  | capTriggerTime (n : Eng) (ws : List CapWord)
  | trigOutPulseEnd
  | capPosttriggerDone (n : Eng) (ws : List CapWord)
  -- transmitter
  | txEnable (p : Party) (n : Eng) (v : W)
  | txDisable (p : Party) (n : Eng) (v : W) (read : Nat)
  | txOn (n : Eng) (o : TxSide)
  | txOffComplete (n : Eng)
  | dacSaturation (n : Eng) (c : Fin 4)
  -- receiver
  | rxEnable (p : Party) (n : Eng) (v : W)
  | rxDisable (p : Party) (n : Eng) (v : W)
  | rxRestart (p : Party) (n : Eng) (v : W)
  | rxPowerQualified (n : Eng) (ws : List CapWord)
  | rxPowerLost (n : Eng) (ws : List CapWord)
  | cdScanComplete (n : Eng) (ws : List CapWord)
  | convergeDwellEnd (n : Eng) (ws : List CapWord)
  | syncHit (n : Eng) (ws : List CapWord)
  | huntLimitExpiry (n : Eng) (ws : List CapWord)
  | expectedPosition (n : Eng) (ws : List CapWord)
  | rxSyncqRead (p : Party) (n : Eng)
  | tunePeriodEnd (l : List (Eng × List CapWord))
  | eqReset (p : Party) (n : Eng) (v : W)
  | eqSnap (p : Party) (n : Eng) (v : W) (ws : List CapWord)
  -- Glohiord
  | seenPatternChange (n : Eng) (rx : Bool)
  | gloTermWrite (p : Party) (n : Eng) (side : Fin 2) (t : Fin 128) (v : W)
  | pageOpen (p : Party) (n : Eng) (v : W)
  | pageClose (p : Party) (n : Eng) (v : W)
  | kernelPageWrite (p : Party) (n : Eng) (page : Fin 2048) (t : Fin 128) (v : W)
  | edgeGroupReceive (link : Fin 5) (up : Bool) (stream : Fin 4) (grp : Fin 2048) (bs : List Byte)
  -- decoder pool
  | codewordDecoded (n : Eng) (w : Nat) (m : Option MirrorCmp)
  | unitFree (u : Fin 88)
  | mirrorGo (p : Party) (v : W)
  | mirrorAbort (p : Party) (v : W)
  | mirrorDone
  | decUnitError (n : Eng) (u : Fin 88)
  | fecCounterRead (p : Party) (n : Eng) (bits : Bool) (inc : Nat)
  -- clients
  | admitCtx (p : Party) (c : Fin 4096)
  | drain (p : Party) (c : Fin 4096)
  | delete (p : Party) (c : Fin 4096)
  | cliBadOp (p : Party) (op : Fin 8) (c : Fin 4096)
  | ctxDrained (c : Fin 4096)
  | reinPeriod (el : List Nat)
  | clientBlockArrival (c : Fin 4096) (b : Blk) (phy : Fin 32) (rs : List RsCount)
  | sequenceRunArrival (c : Fin 4096) (n : Eng)
  | seqGapTimeout (c : Fin 4096)
  -- harness
  | portCfgWrite (p : Party) (h : Harn) (q : Fin 64) (v : W)
  | laneCfgWrite (p : Party) (h : Harn) (l : Fin 64) (v : W)
  | laneAdaptDone (h : Harn) (l : Fin 64) (ppm : Int)
  | ethLaneLockChange (h : Harn) (l : Fin 64) (locked : Bool) (deskewed : Bool) (rs : RsCount)
  | nativeBlockReceive (h : Harn) (l : Fin 64) (levels : List (BitVec 2)) (t : Nat)
  | laneSignalLoss (h : Harn) (l : Fin 64)
  | localFaultInsert (h : Harn) (q : Fin 64)
  | laneTxeqWrite (p : Party) (h : Harn) (l : Fin 64) (v : W)
  | txeqStep (h : Harn) (l : Fin 64)
  | laneLoopWrite (p : Party) (h : Harn) (l : Fin 64) (v : W)
  | lanePowerWrite (p : Party) (h : Harn) (l : Fin 64) (v : W)
  | laneCalGo (p : Party) (h : Harn) (l : Fin 64) (v : W)
  | laneCalAbort (p : Party) (h : Harn) (l : Fin 64) (v : W)
  | laneCalDone (h : Harn) (l : Fin 64) (eyes : List EyeScan)
  | pciePerst
  | pcieHotReset
  | pcieFlr
  | pcieLinkDown
  -- time unit
  | stepAccept (p : Party) (sample : Option Int)
  | resetTime (p : Party)
  | tuMeasCommit (p : Party) (hi : W)
  | tuAdjCommit (p : Party) (hi : W)
  | rateCommit (p : Party) (line : Bool) (hi : W)
  | epochWrite (p : Party) (line : Bool) (hi : Bool) (v : W)
  | tuSrcWrite (p : Party) (v : W)
  | sampleTimeout
  | tuNowRead (p : Party) (line : Bool)
  | ppsInEdge (rising : Bool)
  | ppsOutSecond
  | ppsOutWidthEnd
  | tportCfgWrite (p : Party) (h : Harn) (v : W)
  | tportRxFrame (h : Harn) (bytes : List Byte)
  | txqWrWrite (p : Party) (h : Harn) (v : W)
  | launchDue (h : Harn)
  -- monitor
  | monStart (p : Party) (n : Eng) (v : W)
  | monStop (p : Party) (n : Eng) (v : W)
  | monConfigWrite (p : Party) (n : Eng) (a : W) (v : W)
  | monFineOutput (n : Eng) (ws : List CapWord)
  | monFineRead (p : Party) (n : Eng) (ws : List CapWord)
  | monCoarseRead (p : Party) (n : Eng) (ws : List CapWord)
  -- steward and hive
  | boot (p : Party)
  | update (p : Party)
  | vaultCommit (p : Party)
  | revokeKey (p : Party) (slot : Fin 4)
  | raiseSvn (p : Party)
  | stwBadOp (p : Party) (op : Fin 8)
  | authComplete
  | loadComplete (ready : Bool)
  | vaultProgramDone (good : Bool)
  | mbxH2dWrite (p : Party) (d : Fin 57) (v : W)
  | halt (p : Party) (d : Drn)
  | resume (p : Party) (d : Drn)
  | revert (p : Party) (d : Drn)
  | cancel (p : Party) (d : Drn)
  | handoverSlow (d : Drn)
  -- Zynnan: `x` is the executing drone
  | add (x : Drn) (d s t : GReg)
  | sub (x : Drn) (d s t : GReg)
  | and (x : Drn) (d s t : GReg)
  | or (x : Drn) (d s t : GReg)
  | xor (x : Drn) (d s t : GReg)
  | shl (x : Drn) (d s t : GReg)
  | shr (x : Drn) (d s t : GReg)
  | sra (x : Drn) (d s t : GReg)
  | less (x : Drn) (d s t : GReg)
  | lessu (x : Drn) (d s t : GReg)
  | mul (x : Drn) (d s t : GReg)
  | mulq (x : Drn) (d s t : GReg)
  | adds (x : Drn) (d s t : GReg)
  | subs (x : Drn) (d s t : GReg)
  | min (x : Drn) (d s t : GReg)
  | max (x : Drn) (d s t : GReg)
  | clz (x : Drn) (d s : GReg)
  | xadd (x : Drn) (d s t : GReg)
  | addk (x : Drn) (d s : GReg) (k : BitVec 16)
  | andk (x : Drn) (d s : GReg) (k : BitVec 16)
  | ork (x : Drn) (d s : GReg) (k : BitVec 16)
  | xork (x : Drn) (d s : GReg) (k : BitVec 16)
  | shlk (x : Drn) (d s : GReg) (k : BitVec 5)
  | shrk (x : Drn) (d s : GReg) (k : BitVec 5)
  | srak (x : Drn) (d s : GReg) (k : BitVec 5)
  | lessk (x : Drn) (d s : GReg) (k : BitVec 16)
  | lessku (x : Drn) (d s : GReg) (k : BitVec 16)
  | hik (x : Drn) (d : GReg) (k : BitVec 16)
  | ldw (x : Drn) (d s : GReg) (k : BitVec 16)
  | stw (x : Drn) (d s : GReg) (k : BitVec 16)
  | ldp (x : Drn) (d : GReg) (p : PReg) (post : Bool) (k : BitVec 16)
  | stp (x : Drn) (d : GReg) (p : PReg) (post : Bool) (k : BitVec 16)
  | pset (x : Drn) (d : GReg) (p : PReg) (k : BitVec 16)
  | pget (x : Drn) (d : GReg) (p : PReg)
  | breq (x : Drn) (s t : GReg) (off : BitVec 16)
  | brne (x : Drn) (s t : GReg) (off : BitVec 16)
  | brlt (x : Drn) (s t : GReg) (off : BitVec 16)
  | brge (x : Drn) (s t : GReg) (off : BitVec 16)
  | brltu (x : Drn) (s t : GReg) (off : BitVec 16)
  | brgeu (x : Drn) (s t : GReg) (off : BitVec 16)
  | call (x : Drn) (d : GReg) (k : BitVec 16)
  | goto (x : Drn) (d s : GReg)
  | cmul (x : Drn) (a1 : AReg) (g1 g2 : GReg) (conj : Bool)
  | cmac (x : Drn) (a1 : AReg) (g1 g2 : GReg) (conj : Bool)
  | cmsu (x : Drn) (a1 : AReg) (g1 g2 : GReg) (conj : Bool)
  | crnd (x : Drn) (g1 : GReg) (a1 : AReg) (sh : BitVec 5)
  | cext (x : Drn) (g1 g2 : GReg) (a1 : AReg) (sh : BitVec 5)
  | cadd (x : Drn) (a1 a2 : AReg)
  | cset (x : Drn) (a1 : AReg) (g1 g2 : GReg)
  | cclr (x : Drn) (a1 : AReg)
  | bexp (x : Drn) (d : GReg) (p : PReg) (n : GReg)
  | epl (x : Drn) (d s : GReg) (k : BitVec 16)
  | eps (x : Drn) (d s : GReg) (k : BitVec 16)
  | swap (x : Drn) (d s t : GReg) (when_ : BitVec 2) (own : Bool) (eng : BitVec 6)
  | wfe (x : Drn) (d s : GReg) (poll : Bool)
  | order (x : Drn)
  | ready (x : Drn)
  | banksw (x : Drn)
  | sys (x : Drn)
  | rtt (x : Drn)
  | rdc (x : Drn) (d : GReg) (num : BitVec 12)
  | wrc (x : Drn) (s : GReg) (num : BitVec 12)
  | li (x : Drn) (d : GReg) (imm : W)
  | ja (x : Drn) (imm : W)
  | epla (x : Drn) (d : GReg) (imm : W)
  | epsa (x : Drn) (d : GReg) (imm : W)
  | wfeWake (x : Drn)
  | timerExpiry (x : Drn)
  -- memory integrity and repair
  | foragerRead (r : Fin 154) (synd : BitVec 8)
  | foragerWriteBack (r : Fin 154)
  | eccFlipArm (p : Party) (v : W)
  | farCmdGo (p : Party) (v : W)
  | repairStart
  | rowCopyDone
  | rowCompareDone (good : Bool)
  | rowSwitch
  | farrierRetry
  | stripCheck (n : Eng) (rx : Bool) (strip : Fin 16)
  | stripCompareDone (n : Eng) (rx : Bool) (good : Bool)
  -- faults
  | faultMessage (ws : List CapWord)
  | stickyAck (p : Party) (src : Fin 4096) (v : W)
  | fcInject (p : Party) (hi : W)
  | fcSrcCfgWrite (p : Party) (src : Fin 4096) (v : W)
  | errHoldExpiry
  -- self-test
  | stGo (p : Party) (ctl : Fin 49) (v : W)
  | stAbort (p : Party) (ctl : Fin 49) (v : W)
  | stRetirement (ctl : Fin 49)
  | stRunDone (ctl : Fin 49) (e : StEnd)
  -- supplies and power
  | feedClassChange (b : Bool) (vs : List (Nat × Nat))
  | switchoverComplete
  | feedRevert
  | switch (p : Party)
  | supplyShutdown
  | railExcursion (r : Fin 36) (hard : Bool)
  | railRecover (r : Fin 36)
  | pwrCmdGo (p : Party) (v : W)
  | entryTurn
  | entryDone
  | wakeStepReady (dom : Fin 71) (mems : List Upset) (regs : List (W × W))
  | wakeTimeout (dom : Fin 71)
  | wakeNLow
  | pwrPadRel (p : Party) (v : W)
  | powerUp
  | aonReady
  | refLoss (missing : Bool)
  | refRecover
  | thermSample (temps : List (BitVec 16))
  -- counters
  | cntOverflow (i : Fin 8192)
  | cntW0Read (p : Party) (k : Fin 4096)
  | cntW2Commit (p : Party) (k : Fin 4096) (v : W) (inc : Nat)
  | cntFreeze (p : Party) (b : Fin 4) (v : W)
  | cntBankClear (p : Party) (b : Fin 4) (v : W) (inc : List (Fin 4096 × Nat))
  | cntCfgWrite (p : Party) (i : Fin 8192) (v : W)
  | bwWindowEnd (m : Fin 256)
  | bwConfigWrite (p : Party) (m : Fin 256) (win : Bool) (v : W)
  | bwLastRead (p : Party) (m : Fin 256)
  | engCntSnap (p : Party) (n : Eng) (inc : List Nat)
  | tapInstructionLoad (ir : Fin 16) (scan : Option TapScan)
  | tapReset
  -- further rows of the table
  | pcieLinkUp (speed : Fin 7) (width : BitVec 4) (flit : Bool)
  | gloOutputSaturation (n : Eng) (rx : Bool)
  | eccReadError (reader : Option Party) (r : Fin 154) (addr : W) (synd : BitVec 8)
  | illegalInstruction (x : Drn) (w : W)
  deriving DecidableEq, Repr

end Sys2Proof
end

