-- ==== Sys2Proof/WellFormed.lean ====
section
/-! DEFINITION. Which commands are well formed: the operand lists that an event carries have the lengths that the spec gives
them. A meaning is total on every command; a list that is too short reads as zeros past its end. -/
namespace Sys2Proof

/-- Does a list have a length? -/
def lenIs {α : Type} (l : List α) (n : Nat) : Bool := l.length == n

/-- The captured words of a datapath clock: 256 codes for each of the four ADCs (R81, R112). -/
def wordsOk (ws : List CapWord) : Bool := ws.all fun w => lenIs w 4 && w.all fun a => lenIs a 256

/-- A well-formed command. -/
def WellFormed : Instr → Bool
  -- OAM of at most 133 bytes, four neighbours (R60, R187)
  | .transmitBoundary _ o => Nat.ble o.oam.length 133 && lenIs o.hw 4
  | .negSwitchSuperframe _ o => Nat.ble o.oam.length 133 && lenIs o.hw 4
  | .txOn _ o => Nat.ble o.oam.length 133 && lenIs o.hw 4
  | .receiveBoundary _ o => wordsOk o.ws && lenIs o.hw 4
  | .negLocalTarget _ o => wordsOk o.ws && lenIs o.hw 4
  | .gaitCatchUp _ o => wordsOk o.ws && lenIs o.hw 4
  -- symbols elapsed since each engine's last transmit boundary (R256)
  | .reinPeriod el => lenIs el 48 && el.all fun x => Nat.blt x 65536
  -- a spare has 65,536 samples of its own (R92, R98)
  | .sliceTrackUpdate _ _ k ws own => wordsOk ws && lenIs own (if Nat.blt k.val 64 then 0 else 65536)
  | .spareCompareDone _ c _ ws own act => wordsOk ws && lenIs own 65536 && lenIs act (if Nat.blt c.val 4 then 0 else 65536)
  -- 2^20 codes of each of four ADCs (R101)
  | .calStepDone _ m => lenIs m.codes 4 && m.codes.all (fun a => lenIs a 1048576)
  | .rxPowerQualified _ ws => wordsOk ws
  | .rxPowerLost _ ws => wordsOk ws
  | .cdScanComplete _ ws => wordsOk ws
  | .convergeDwellEnd _ ws => wordsOk ws
  | .syncHit _ ws => wordsOk ws
  | .huntLimitExpiry _ ws => wordsOk ws
  | .expectedPosition _ ws => wordsOk ws
  | .tunePeriodEnd l => l.all fun e => wordsOk e.2
  | .eqSnap _ _ _ ws => wordsOk ws
  -- a group of 32 symbols on each polarisation with its position, marks and CRC-16 (R200)
  | .edgeGroupReceive _ _ _ _ bs => Nat.ble 2 bs.length
  | .capPretriggerFull _ ws => wordsOk ws
  | .capDisarm _ _ _ ws => wordsOk ws
  | .faultMessage ws => wordsOk ws
  | .capTriggerPin _ ws => ws.all fun e => wordsOk e.2
  | .capTriggerTime _ ws => wordsOk ws
  | .capPosttriggerDone _ ws => wordsOk ws
  -- three eyes of 65 phases each (R290, R297)
  | .laneCalDone _ _ es => lenIs es 3 && es.all fun e => lenIs e 65
  -- at most 32 PHYs of a group (R275)
  | .clientBlockArrival _ _ _ rs => Nat.ble rs.length 32
  -- nine sensors (R535)
  | .thermSample ts => lenIs ts 9
  -- 16 counters of an engine (R516)
  | .engCntSnap _ _ inc => inc.isEmpty || lenIs inc 16
  | .monCoarseRead _ _ ws => wordsOk ws
  | .monFineRead _ _ ws => wordsOk ws
  | .monFineOutput _ ws => wordsOk ws
  -- the ball signals of R520 but the 18 of THERM (R537)
  | .tapInstructionLoad _ x => match x with | some y => lenIs y.pins 1093 | none => true
  | _ => true

end Sys2Proof
end

