-- ==== Sys2Proof/Decode.lean ====
section
/-! DEFINITION. The reading of a word by the opcode table. The table gives no row of this device any bits: a command is an
access or an event and has no encoding. -/
namespace Sys2Proof

/-- The command that a word spells by the bits of the opcode table: none, since no row has bits. -/
def decodeTableWord (_nbits _w : Nat) : Option Instr := none

end Sys2Proof
end

