-- ==== Sys2Proof/Config.lean ====
section
/-! DEFINITION. What an implementation fixes, and the free values: constants with no body, so no proof can see a value of them.
Each is named in the assumption log. -/
namespace Sys2Proof.Config

/-- A fresh value that the spec leaves open, applied to the counter `fresh` of the state (DESIGN CHOICE, log 3). -/
opaque freeWord : Nat → W
/-- The ordering code that the fuses name: VX-5120-X where true (R1, R2, R12; log 4). -/
opaque gradeX : Bool
/-- GRADE of the ordering code: VX-5120-X or VX-5120-C (R1). -/
def grade : Byte := if gradeX then 0x0E#8 else 0x0C#8
/-- The SECURE fuse (R358; log 4). -/
opaque fuseSecure : Bool
/-- The key slots that hold a hash at manufacture (R358; log 4). -/
opaque fuseKeyPresent : BitVec 4
/-- The key slots revoked before this power-up (R358; log 4). -/
opaque fuseKeyRevoked : BitVec 4
/-- MIN_SVN before this power-up (R358; log 4). -/
opaque fuseMinSvn : BitVec 7
/-- The SHA-384 hash held by a key slot (R352 check 7; log 4). -/
opaque fuseKeyHash : Nat → BitVec 384
/-- The signature that self-test ROM holds for LOGIC patterns: kind, index and tests of a run (R454; log 5). -/
opaque logicSig : Nat → Nat → Nat → BitVec 64
/-- What LOOP drives (R453; log 5): the state of the PRBS at the start of the test on the DACs, its amplitude in codes, and the words that a
harness expects. -/
opaque loopSeed : BitVec 31
opaque loopAmp : Fin 128
opaque loopWord : Nat → BitVec 64
/-- Which of the columns that remain a data bit has in the check matrix of a code, (39,32) or (72,64) (R408; log 6). -/
opaque eccColumn : Bool → Nat → Nat
/-- The word of a half of the client buffer that a context's block goes to: egress half, context, blocks written before (R260; log 70). -/
opaque bufWord : Bool → Nat → Nat → Fin 0x400000
/-- The voltage and current that the supervisor samples (R488): index and the counter `fresh` (log 3). -/
opaque supplySample : Nat → Nat → W
/-- The 5 Gb/s calendar slots that a FlexE group, by the number of its first lane, has for a client: its overhead carries them
(R238; log 16). -/
opaque flexSlots : Nat → Nat → Nat

/-- The PCS and FEC of IEEE 802.3 that an Ethernet port or FlexE PHY sends through, alignment markers and scrambling included: port type, a
state, and a block of the port's stream; a state and the bits of each lane in lane order (R273, R275, R277; log 71). -/
opaque pcsSend : Nat → Nat → List Bool → Nat × List (List Bool)
/-- The receiving PCS of a lane: port type, state and bits; a state (log 71). -/
opaque pcsRecv : Nat → Nat → List Bool → Nat

/-! Arithmetic of the signal chains that the spec leaves open (log 25): each is a free function of what it works on. -/

/-- The state of the fill-bit generator of an engine at power-up (R128). -/
opaque fillSeed : Nat → BitVec 31
/-- Is a value between two integers rounded up where the spec names no rounding: the use, numerator and denominator (log 25). -/
opaque roundUp : Nat → Int → Int → Bool
/-- 10 log10 of a ratio that has no logarithm, or one outside the register's range: use, numerator, denominator (R163, R173, R330). -/
opaque noLog : Nat → Nat → Nat → BitVec 16
/-- The phase of the value 0 (R155, R158). -/
opaque phase0 : Int
/-- The overlap of the pulse shaper's 4,096-point blocks (R132). -/
opaque shapeOverlap : Fin 4096
/-- A fractional-delay interpolator: the fraction in 1/256 sample and the samples around the instant (R136). -/
opaque fracDelay : Int → List Int → Int
/-- A DAC sample interpolated from five samples about it, at an instant after the middle one, in units of 1 / 16,777,216,000 sample
(R136). -/
opaque skewed : Int → List Int → Int
/-- The 11 taps of a slice's correction filter, in 2^-14: symbol rate, tracked skew and bandwidth (R91). -/
opaque corrTaps : Nat → Int → Int → List Int
/-- What the tracking loop measures for a slice over the rounds of its statistics: the values that it moves towards (R92). -/
opaque mismatch : Nat → List (List (BitVec 8)) → List (BitVec 8) → List Int
/-- A fractional-delay interpolator of Q: the delay in units of 1 / 1,048,576,000 sample and the samples around the instant (R144). -/
opaque iqDelay : Int → List Int → Int
/-- Which of the nine passes of the block-floating-point transform is the radix-2 pass (R146). -/
opaque radix2At : Fin 9
/-- The band-edge spectral correlation of compensated samples (R150). -/
opaque bandEdge : List ((Int × Int) × (Int × Int)) → Nat
/-- A half-symbol sample: the fraction in 2^-32 sample, and the samples around it (R151). -/
opaque interp : Nat → List (Int × Int) → Int × Int
/-- The scale of an equaliser output while the pilots' places are not known, in 2^-30, from the scale before and the newest value
(R151). -/
opaque eqGain : Nat → Int × Int → Nat
/-- The timing loop's correction of the half-symbol step: that before, NTAPS, the sum of the tap energies times their distances from the
centre tap, and that of the energies (R152). -/
opaque timing : Int → Nat → Int → Nat → Int
/-- What the sum over the symbols of a clock is divided by in an update of a tap, less 1 (R153). -/
opaque tapDiv : Nat
/-- The blind estimator's and the differential estimator's memory, in symbols or pilots less 1, and the loop's gain as a shift (R155). -/
opaque freqSpan : Bool → Nat
opaque freqShift : Bool → Nat
/-- The signal band over which the equaliser's response is taken: half its points less 1, and its width in 1/65,536 of the symbol rate
less 1 (R330). -/
opaque monPoints : Nat
opaque monBand : Fin 65536
/-- a[k] of R104 in 2^-64 code where 2 (P - v0), in 2^-28 codes², is negative: it has no square root (log 30). -/
opaque ampOpen : Int → Nat
/-- The level of a spectral line relative to the tone, in 0.1 dBc: symbol rate, tone frequency in MHz, line j, above or below,
and the samples (R106). -/
opaque spurLine : Nat → Nat → Nat → Bool → List Int → Int

end Sys2Proof.Config
end

