-- ==== Sys2Proof/Machine/Bits.lean ====
section
/-! DEFINITION. Bit fields, signed readings, rounding to nearest with halves to even, integer roots, and CRCs: the arithmetic
the chapters share (R7, R8, R13, R61, R370, R390). -/
namespace Sys2Proof.Machine

/-- The bits of a field, in place. -/
def Fld.mask (f : Fld) : W := (BitVec.allOnes 32 >>> (31 - (f.hi - f.lo))) <<< f.lo

/-- The value of a field of a word. -/
def getFld (w : W) (f : Fld) : Nat := (w.toNat >>> f.lo) % 2 ^ f.width

/-- A word with one field loaded. -/
def setFld (w : W) (f : Fld) (v : Nat) : W := (w &&& ~~~(Fld.mask f)) ||| ((BitVec.ofNat 32 v <<< f.lo) &&& Fld.mask f)

/-- A field as one bit. -/
def bitFld (w : W) (f : Fld) : Bool := getFld w f == 1

/-- Two's complement reading of an unsigned value of `b` bits (R8). -/
def sgn (b v : Nat) : Int := if Nat.blt v (2 ^ (b - 1)) then (v : Int) else (v : Int) - (2 ^ b : Nat)

/-- The unsigned pattern of an integer on `b` bits. -/
def uns (b : Nat) (v : Int) : Nat := (v % ((2 ^ b : Nat) : Int)).toNat

/-- `v` held within `lo` and `hi`. -/
def clampI (lo hi v : Int) : Int := if v < lo then lo else if hi < v then hi else v

/-- `num / den` rounded to nearest, halves to even (R104, R136, R144); `den` positive. -/
def rneDiv (num den : Int) : Int :=
  let q := num / den
  let r := num % den
  if 2 * r > den ∨ (2 * r = den ∧ q % 2 = 1) then q + 1 else q

/-- The convergent rounding of R390. -/
def rne (x : Int) (s : Nat) : Int := rneDiv x ((2 ^ s : Nat) : Int)

/-- Integer square root by `n` binary digits. -/
def isqrtAux (x : Nat) : Nat → Nat → Nat
  | 0, r => r
  | n + 1, r => let c := r + 2 ^ n; isqrtAux x n (if Nat.ble (c * c) x then c else r)

/-- The largest integer whose square is at most `x`, for `x` below 2^256. -/
def isqrt (x : Nat) : Nat := isqrtAux x 128 0

/-- The square root of `num / den` rounded to nearest, halves to even. -/
def rneSqrt (num den : Nat) : Nat :=
  let n := isqrt (num / den)
  let t := (2 * n + 1) * (2 * n + 1) * den
  if Nat.blt t (4 * num) || (t == 4 * num && n % 2 == 1) then n + 1 else n

/-- Number of ones among the low `n` bits. -/
def popc (x : Nat) : Nat → Nat
  | 0 => 0
  | n + 1 => (if x.testBit n then 1 else 0) + popc x n

/-- One bit of the CRC-16 of R61. -/
def crc16Bit (c : Nat) (b : Bool) : Nat :=
  let m := (c.testBit 15) != b
  let c' := (c * 2) % 65536
  if m then c' ^^^ 0x1021 else c'

/-- The bits of a byte, most significant first. -/
def byteBits (b : Byte) : List Bool := [7, 6, 5, 4, 3, 2, 1, 0].map (fun i => b.getLsbD i)

/-- The CRC-16 of R61 over bytes. -/
def crc16 (bs : List Byte) : Nat := bs.foldl (fun c b => (byteBits b).foldl crc16Bit c) 0xFFFF

/-- One byte of the CRC-32C of R370, reflected. -/
def crc32Byte (c : Nat) (b : Byte) : Nat :=
  [0, 1, 2, 3, 4, 5, 6, 7].foldl (fun c _ => if c % 2 == 1 then (c / 2) ^^^ 0x82F63B78 else c / 2) (c ^^^ b.toNat)

/-- The CRC-32C of R370 over bytes. -/
def crc32c (bs : List Byte) : Nat := bs.foldl crc32Byte 0xFFFFFFFF ^^^ 0xFFFFFFFF

/-- The `n` bytes of a value, little-endian (R7). -/
def leBytes (n v : Nat) : List Byte := (List.range n).map (fun i => BitVec.ofNat 8 (v / 2 ^ (8 * i)))

/-- The `n` bytes of a value, big-endian (R60). -/
def beBytes (n v : Nat) : List Byte := (leBytes n v).reverse

/-- The little-endian value of bytes. -/
def leVal (bs : List Byte) : Nat := bs.foldr (fun b a => b.toNat + 256 * a) 0

/-- The big-endian value of bytes. -/
def beVal (bs : List Byte) : Nat := bs.foldl (fun a b => a * 256 + b.toNat) 0

/-- The step of the 64-bit MISR of R454. -/
def misrStep (s w : BitVec 64) : BitVec 64 :=
  (if s.getLsbD 63 then (s <<< 1) ^^^ 0x1B#64 else s <<< 1) ^^^ w

/-- `a - b` modulo 2^24, for superframe numbers and block counts (R27, R38, R251). -/
def sub24 (a b : BitVec 24) : Nat := (a - b).toNat

end Sys2Proof.Machine
end

