-- ==== Sys2Proof/Machine/Regs.lean ====
section
/-! DEFINITION. Every register of BAR0: its address as a function of its indices, its fields by name, and the layout
(access masks of R11, implemented bits of R10, reset value of R12) of the word at an address (R504, R508, R512, R515). -/
namespace Sys2Proof.Machine

/-- ID_DEVICE (R2): address. -/
def ID_DEVICE : Nat := 0x0
def ID_DEVICE_PART : Fld := ⟨31, 16⟩
def ID_DEVICE_STEP : Fld := ⟨15, 8⟩
def ID_DEVICE_GRADE : Fld := ⟨7, 0⟩
/-- REG_STAT (R507): address. -/
def REG_STAT : Nat := 0x10
def REG_STAT_DARK_WRITE : Fld := ⟨1, 1⟩
def REG_STAT_DARK_READ : Fld := ⟨0, 0⟩
/-- REG_DARK_ADDR (R507): address. -/
def REG_DARK_ADDR : Nat := 0x14
def REG_DARK_ADDR_ADDR : Fld := ⟨31, 0⟩
/-- REG_DARK_INFO (R507): address. -/
def REG_DARK_INFO : Nat := 0x18
def REG_DARK_INFO_PARTY : Fld := ⟨15, 10⟩
def REG_DARK_INFO_WRITE : Fld := ⟨9, 9⟩
def REG_DARK_INFO_SPACE : Fld := ⟨8, 8⟩
def REG_DARK_INFO_DOMAIN : Fld := ⟨7, 0⟩
/-- STW_CMD (R375): address. -/
def STW_CMD : Nat := 0x100
def STW_CMD_GO : Fld := ⟨31, 31⟩
def STW_CMD_OP : Fld := ⟨26, 24⟩
def STW_CMD_SLOT : Fld := ⟨1, 0⟩
/-- STW_ARG_ADDR (R375): address. -/
def STW_ARG_ADDR : Nat := 0x104
def STW_ARG_ADDR_ADDR : Fld := ⟨24, 0⟩
/-- STW_ARG_LEN (R375): address. -/
def STW_ARG_LEN : Nat := 0x108
def STW_ARG_LEN_LEN : Fld := ⟨24, 0⟩
/-- STW_CMD_STAT (R376): address. -/
def STW_CMD_STAT : Nat := 0x10c
def STW_CMD_STAT_STATE : Fld := ⟨31, 29⟩
def STW_CMD_STAT_BUSY : Fld := ⟨28, 28⟩
def STW_CMD_STAT_UNSIGNED : Fld := ⟨27, 27⟩
def STW_CMD_STAT_WRITE_BLOCKED : Fld := ⟨26, 26⟩
def STW_CMD_STAT_LAST_OP : Fld := ⟨18, 16⟩
def STW_CMD_STAT_ERR : Fld := ⟨4, 0⟩
/-- STW_FUSE (R378): address. -/
def STW_FUSE : Nat := 0x110
def STW_FUSE_SECURE : Fld := ⟨31, 31⟩
def STW_FUSE_KEY_PRESENT : Fld := ⟨27, 24⟩
def STW_FUSE_KEY_REVOKED : Fld := ⟨23, 20⟩
def STW_FUSE_MIN_SVN : Fld := ⟨6, 0⟩
/-- STW_BUILD (R378): address. -/
def STW_BUILD : Nat := 0x114
def STW_BUILD_BUILD : Fld := ⟨31, 0⟩
/-- STW_VAULT_STAT (R378): address. -/
def STW_VAULT_STAT : Nat := 0x118
def STW_VAULT_STAT_ERASED : Fld := ⟨31, 16⟩
def STW_VAULT_STAT_ERASE_CNT : Fld := ⟨15, 0⟩
/-- STW_VAULT_SEQ (R378): address. -/
def STW_VAULT_SEQ : Nat := 0x11c
def STW_VAULT_SEQ_SEQ : Fld := ⟨31, 0⟩
/-- STW_VAULT_LAST (R378): address. -/
def STW_VAULT_LAST : Nat := 0x120
def STW_VAULT_LAST_OFFSET : Fld := ⟨19, 0⟩
/-- SUP_STAT (R483): address. -/
def SUP_STAT : Nat := 0x200
def SUP_STAT_CLASS_B : Fld := ⟨7, 6⟩
def SUP_STAT_CLASS_A : Fld := ⟨5, 4⟩
def SUP_STAT_ACTIVE : Fld := ⟨3, 3⟩
def SUP_STAT_SWITCH_REFUSED : Fld := ⟨1, 1⟩
def SUP_STAT_SWITCHED : Fld := ⟨0, 0⟩
/-- SUP_CFG (R484): address. -/
def SUP_CFG : Nat := 0x204
def SUP_CFG_AUTO_REVERT : Fld := ⟨1, 1⟩
def SUP_CFG_PREF : Fld := ⟨0, 0⟩
/-- SUP_CMD (R484): address. -/
def SUP_CMD : Nat := 0x208
def SUP_CMD_SWITCH : Fld := ⟨0, 0⟩
/-- SUP_SWITCH_CNT (R488): address. -/
def SUP_SWITCH_CNT : Nat := 0x210
def SUP_SWITCH_CNT_CNT : Fld := ⟨31, 0⟩
/-- SUP_LAST_TS_LO (R488): address. -/
def SUP_LAST_TS_LO : Nat := 0x214
def SUP_LAST_TS_LO_TS : Fld := ⟨31, 0⟩
/-- SUP_LAST_TS_HI (R488): address. -/
def SUP_LAST_TS_HI : Nat := 0x218
def SUP_LAST_TS_HI_TS : Fld := ⟨15, 0⟩
/-- SUP_VIN (R488): address. -/
def SUP_VIN (i : Nat) : Nat := 0x220 + 0x4 * i
def SUP_VIN_VOLTAGE : Fld := ⟨31, 16⟩
def SUP_VIN_CURRENT : Fld := ⟨15, 0⟩
/-- SUP_RAIL (R488): address. -/
def SUP_RAIL (i : Nat) : Nat := 0x240 + 0x4 * i
def SUP_RAIL_VOLTAGE : Fld := ⟨15, 0⟩
/-- PWR_CMD (R485): address. -/
def PWR_CMD : Nat := 0x400
def PWR_CMD_GO : Fld := ⟨31, 31⟩
def PWR_CMD_ALL : Fld := ⟨30, 30⟩
def PWR_CMD_TARGET : Fld := ⟨2, 0⟩
/-- PWR_CMD_STAT (R486): address. -/
def PWR_CMD_STAT : Nat := 0x404
def PWR_CMD_STAT_BUSY : Fld := ⟨31, 31⟩
def PWR_CMD_STAT_ERR : Fld := ⟨26, 24⟩
def PWR_CMD_STAT_REASON : Fld := ⟨19, 16⟩
def PWR_CMD_STAT_REF_DOM : Fld := ⟨7, 0⟩
/-- PWR_PAD_REL (R488): address. -/
def PWR_PAD_REL : Nat := 0x408
def PWR_PAD_REL_DOMAIN : Fld := ⟨7, 0⟩
/-- PWR_STAT (R488): address. -/
def PWR_STAT : Nat := 0x40c
def PWR_STAT_PAD_REL_REFUSED : Fld := ⟨0, 0⟩
/-- PWR_SEL (R485): address. -/
def PWR_SEL (i : Nat) : Nat := 0x410 + 0x4 * i
def PWR_SEL_SEL : Fld := ⟨31, 0⟩
/-- PWR_WAKE_SEL (R485): address. -/
def PWR_WAKE_SEL (i : Nat) : Nat := 0x420 + 0x4 * i
def PWR_WAKE_SEL_SEL : Fld := ⟨31, 0⟩
/-- PWR_ABORT_CNT (R488): address. -/
def PWR_ABORT_CNT : Nat := 0x430
def PWR_ABORT_CNT_CNT : Fld := ⟨31, 0⟩
/-- PWR_REFUSE_CNT (R488): address. -/
def PWR_REFUSE_CNT : Nat := 0x434
def PWR_REFUSE_CNT_CNT : Fld := ⟨31, 0⟩
/-- PWR_DOM (R487): address. -/
def PWR_DOM (i : Nat) : Nat := 0x500 + 0x4 * i
def PWR_DOM_STATE : Fld := ⟨31, 29⟩
def PWR_DOM_READY : Fld := ⟨28, 28⟩
def PWR_DOM_PAD_HOLD : Fld := ⟨27, 27⟩
def PWR_DOM_RET_LOST : Fld := ⟨26, 26⟩
def PWR_DOM_STEP : Fld := ⟨25, 24⟩
def PWR_DOM_REFUSALS : Fld := ⟨7, 0⟩
/-- THERM_TEMP (R536): address. -/
def THERM_TEMP (i : Nat) : Nat := 0x700 + 0x4 * i
def THERM_TEMP_VALID : Fld := ⟨31, 31⟩
def THERM_TEMP_TEMP : Fld := ⟨15, 0⟩
/-- THERM_CFG (R536): address. -/
def THERM_CFG : Nat := 0x740
def THERM_CFG_WARN : Fld := ⟨7, 0⟩
/-- REF_STAT (R536): address. -/
def REF_STAT : Nat := 0x744
def REF_STAT_LOST : Fld := ⟨1, 1⟩
def REF_STAT_WAS_LOST : Fld := ⟨0, 0⟩
/-- FC_STAT (R449): address. -/
def FC_STAT : Nat := 0x100000
def FC_STAT_CFG_REFUSED : Fld := ⟨6, 6⟩
def FC_STAT_INJ_REFUSED : Fld := ⟨5, 5⟩
def FC_STAT_CHIP_RESET : Fld := ⟨4, 4⟩
def FC_STAT_MERGE_SAT : Fld := ⟨3, 3⟩
def FC_STAT_NMI_REDIRECT : Fld := ⟨2, 2⟩
def FC_STAT_ERR : Fld := ⟨1, 1⟩
def FC_STAT_IRQ : Fld := ⟨0, 0⟩
/-- FC_CFG (R452): address. -/
def FC_CFG : Nat := 0x100004
def FC_CFG_INT_EN : Fld := ⟨16, 16⟩
def FC_CFG_ERR_HOLD : Fld := ⟨15, 0⟩
/-- FC_INJECT_LO (R452): address. -/
def FC_INJECT_LO : Nat := 0x100010
def FC_INJECT_LO_MSG : Fld := ⟨31, 0⟩
/-- FC_INJECT_HI (R452): address. -/
def FC_INJECT_HI : Nat := 0x100014
def FC_INJECT_HI_MSG : Fld := ⟨31, 0⟩
/-- FC_HQ_SEQ (R452): address. -/
def FC_HQ_SEQ : Nat := 0x100020
def FC_HQ_SEQ_SEQ : Fld := ⟨31, 0⟩
/-- FC_CHIP_RESET_CNT (R452): address. -/
def FC_CHIP_RESET_CNT : Nat := 0x100024
def FC_CHIP_RESET_CNT_CNT : Fld := ⟨31, 0⟩
/-- FC_SUMMARY (R452): address. -/
def FC_SUMMARY (i : Nat) : Nat := 0x100100 + 0x4 * i
def FC_SUMMARY_BITS : Fld := ⟨31, 0⟩
/-- FC_HQ (R452): address. -/
def FC_HQ (i j : Nat) : Nat := 0x101000 + 0x10 * i + 0x4 * j
def FC_HQ_WORD : Fld := ⟨31, 0⟩
/-- FC_SRC_CFG (R450): address. -/
def FC_SRC_CFG (i : Nat) : Nat := 0x104000 + 0x4 * i
def FC_SRC_CFG_OWNER : Fld := ⟨29, 24⟩
def FC_SRC_CFG_ERR_EN : Fld := ⟨22, 18⟩
def FC_SRC_CFG_CEILING : Fld := ⟨17, 15⟩
def FC_SRC_CFG_DEVICE : Fld := ⟨14, 12⟩
def FC_SRC_CFG_TRAFFIC : Fld := ⟨11, 9⟩
def FC_SRC_CFG_DEGRADE : Fld := ⟨8, 6⟩
def FC_SRC_CFG_CORRECTED : Fld := ⟨5, 3⟩
def FC_SRC_CFG_NOTICE : Fld := ⟨2, 0⟩
/-- FC_SRC_STAT (R451): address. -/
def FC_SRC_STAT (i : Nat) : Nat := 0x108000 + 0x4 * i
def FC_SRC_STAT_LEVEL : Fld := ⟨31, 17⟩
def FC_SRC_STAT_LIVE : Fld := ⟨12, 8⟩
def FC_SRC_STAT_STICKY : Fld := ⟨4, 0⟩
/-- FC_SRC_REASSERT (R452): address. -/
def FC_SRC_REASSERT (i : Nat) : Nat := 0x10c000 + 0x4 * i
def FC_SRC_REASSERT_CNT : Fld := ⟨31, 0⟩
/-- TU_CTL (R328): address. -/
def TU_CTL : Nat := 0x200000
def TU_CTL_STEP_ACCEPT : Fld := ⟨31, 31⟩
def TU_CTL_RESET_TIME : Fld := ⟨30, 30⟩
def TU_CTL_SYNT : Fld := ⟨0, 0⟩
/-- TU_STAT (R327): address. -/
def TU_STAT : Nat := 0x200004
def TU_STAT_STAMP_ST : Fld := ⟨31, 30⟩
def TU_STAT_LINE_ST : Fld := ⟨29, 28⟩
def TU_STAT_SRC_OK : Fld := ⟨27, 27⟩
def TU_STAT_CMD_REFUSED : Fld := ⟨7, 7⟩
def TU_STAT_PPS_GLITCH : Fld := ⟨6, 6⟩
def TU_STAT_LOOP : Fld := ⟨5, 5⟩
def TU_STAT_DISCARD : Fld := ⟨4, 4⟩
def TU_STAT_RATE_SAT : Fld := ⟨3, 3⟩
def TU_STAT_STEPPED : Fld := ⟨2, 2⟩
def TU_STAT_STEP_REFUSED : Fld := ⟨1, 1⟩
def TU_STAT_HOLDOVER : Fld := ⟨0, 0⟩
/-- TU_SRV_CFG (R328): address. -/
def TU_SRV_CFG : Nat := 0x200008
def TU_SRV_CFG_SRC : Fld := ⟨31, 30⟩
def TU_SRV_CFG_ENG : Fld := ⟨29, 24⟩
/-- TU_SRV_GAIN (R328): address. -/
def TU_SRV_GAIN : Nat := 0x20000c
def TU_SRV_GAIN_KP : Fld := ⟨31, 16⟩
def TU_SRV_GAIN_KI : Fld := ⟨15, 0⟩
/-- TU_SRV_LIM (R328): address. -/
def TU_SRV_LIM : Nat := 0x200010
def TU_SRV_LIM_TIMEOUT : Fld := ⟨31, 16⟩
def TU_SRV_LIM_STEP_THR : Fld := ⟨15, 0⟩
/-- TU_LINE_CFG (R328): address. -/
def TU_LINE_CFG : Nat := 0x200014
def TU_LINE_CFG_LSLEW : Fld := ⟨31, 16⟩
def TU_LINE_CFG_TC : Fld := ⟨15, 0⟩
/-- TU_MEAS_LO (R328): address. -/
def TU_MEAS_LO : Nat := 0x200018
def TU_MEAS_LO_E : Fld := ⟨31, 0⟩
/-- TU_MEAS_HI (R328): address. -/
def TU_MEAS_HI : Nat := 0x20001c
def TU_MEAS_HI_E : Fld := ⟨15, 0⟩
/-- TU_CNT_LO (R328): address. -/
def TU_CNT_LO : Nat := 0x200020
def TU_CNT_LO_C : Fld := ⟨31, 0⟩
/-- TU_CNT_HI (R328): address. -/
def TU_CNT_HI : Nat := 0x200024
def TU_CNT_HI_C : Fld := ⟨31, 0⟩
/-- TU_ADJ_LO (R328): address. -/
def TU_ADJ_LO : Nat := 0x200028
def TU_ADJ_LO_E : Fld := ⟨31, 0⟩
/-- TU_ADJ_HI (R328): address. -/
def TU_ADJ_HI : Nat := 0x20002c
def TU_ADJ_HI_E : Fld := ⟨15, 0⟩
/-- TU_STEP_REF_CNT (R328): address. -/
def TU_STEP_REF_CNT : Nat := 0x200030
def TU_STEP_REF_CNT_CNT : Fld := ⟨31, 0⟩
/-- TU_STEP_CNT (R328): address. -/
def TU_STEP_CNT : Nat := 0x200034
def TU_STEP_CNT_CNT : Fld := ⟨31, 0⟩
/-- TU_DISCARD_CNT (R328): address. -/
def TU_DISCARD_CNT : Nat := 0x200038
def TU_DISCARD_CNT_CNT : Fld := ⟨31, 0⟩
/-- NOW_TS_LO (R328): address. -/
def NOW_TS_LO (i : Nat) : Nat := 0x200040 + 0x40 * i
def NOW_TS_LO_TS : Fld := ⟨31, 0⟩
/-- NOW_TS_HI (R328): address. -/
def NOW_TS_HI (i : Nat) : Nat := 0x200044 + 0x40 * i
def NOW_TS_HI_TS : Fld := ⟨15, 0⟩
/-- NOW_SEC_LO (R328): address. -/
def NOW_SEC_LO (i : Nat) : Nat := 0x200048 + 0x40 * i
def NOW_SEC_LO_SEC : Fld := ⟨31, 0⟩
/-- NOW_SEC_HI (R328): address. -/
def NOW_SEC_HI (i : Nat) : Nat := 0x20004c + 0x40 * i
def NOW_SEC_HI_SEC : Fld := ⟨15, 0⟩
/-- NOW_NSEC (R328): address. -/
def NOW_NSEC (i : Nat) : Nat := 0x200050 + 0x40 * i
def NOW_NSEC_NSEC : Fld := ⟨29, 0⟩
/-- EPOCH_LO (R328): address. -/
def EPOCH_LO (i : Nat) : Nat := 0x200054 + 0x40 * i
def EPOCH_LO_E : Fld := ⟨31, 0⟩
/-- EPOCH_HI (R328): address. -/
def EPOCH_HI (i : Nat) : Nat := 0x200058 + 0x40 * i
def EPOCH_HI_E : Fld := ⟨15, 0⟩
/-- OFS_0 (R328): address. -/
def OFS_0 (i : Nat) : Nat := 0x20005c + 0x40 * i
def OFS_0_O : Fld := ⟨31, 0⟩
/-- OFS_1 (R328): address. -/
def OFS_1 (i : Nat) : Nat := 0x200060 + 0x40 * i
def OFS_1_O : Fld := ⟨31, 0⟩
/-- OFS_2 (R328): address. -/
def OFS_2 (i : Nat) : Nat := 0x200064 + 0x40 * i
def OFS_2_O : Fld := ⟨15, 0⟩
/-- RATE_LO (R328): address. -/
def RATE_LO (i : Nat) : Nat := 0x200068 + 0x40 * i
def RATE_LO_R : Fld := ⟨31, 0⟩
/-- RATE_HI (R328): address. -/
def RATE_HI (i : Nat) : Nat := 0x20006c + 0x40 * i
def RATE_HI_R : Fld := ⟨7, 0⟩
/-- TU_STEP_PEND_LO (R328): address. -/
def TU_STEP_PEND_LO : Nat := 0x2000c0
def TU_STEP_PEND_LO_E : Fld := ⟨31, 0⟩
/-- TU_STEP_PEND_HI (R328): address. -/
def TU_STEP_PEND_HI : Nat := 0x2000c4
def TU_STEP_PEND_HI_E : Fld := ⟨15, 0⟩
/-- TU_PPS_CFG (R328): address. -/
def TU_PPS_CFG : Nat := 0x2000d0
def TU_PPS_CFG_OUT_EN : Fld := ⟨31, 31⟩
def TU_PPS_CFG_OUT_CLASS : Fld := ⟨30, 30⟩
def TU_PPS_CFG_IN_EDGE : Fld := ⟨29, 29⟩
def TU_PPS_CFG_WIDTH : Fld := ⟨19, 0⟩
/-- TU_PPS_IN_TS_LO (R328): address. -/
def TU_PPS_IN_TS_LO : Nat := 0x2000d4
def TU_PPS_IN_TS_LO_TS : Fld := ⟨31, 0⟩
/-- TU_PPS_IN_TS_HI (R328): address. -/
def TU_PPS_IN_TS_HI : Nat := 0x2000d8
def TU_PPS_IN_TS_HI_TS : Fld := ⟨15, 0⟩
/-- TU_PPS_IN_DLY (R328): address. -/
def TU_PPS_IN_DLY : Nat := 0x2000dc
def TU_PPS_IN_DLY_DLY : Fld := ⟨15, 0⟩
/-- LTT_CFG (R328): address. -/
def LTT_CFG (i : Nat) : Nat := 0x201000 + 0x20 * i
def LTT_CFG_EN : Fld := ⟨31, 31⟩
def LTT_CFG_DSRC : Fld := ⟨30, 30⟩
def LTT_CFG_DIV : Fld := ⟨27, 24⟩
def LTT_CFG_TX_LAMBDA : Fld := ⟨17, 0⟩
/-- LTT_D (R328): address. -/
def LTT_D (i : Nat) : Nat := 0x201004 + 0x20 * i
def LTT_D_D : Fld := ⟨23, 0⟩
/-- LTT_ASYM (R328): address. -/
def LTT_ASYM (i : Nat) : Nat := 0x201008 + 0x20 * i
def LTT_ASYM_ASYM : Fld := ⟨31, 0⟩
/-- LTT_THETA_LO (R328): address. -/
def LTT_THETA_LO (i : Nat) : Nat := 0x20100c + 0x20 * i
def LTT_THETA_LO_THETA : Fld := ⟨31, 0⟩
/-- LTT_THETA_HI (R328): address. -/
def LTT_THETA_HI (i : Nat) : Nat := 0x201010 + 0x20 * i
def LTT_THETA_HI_VALID : Fld := ⟨31, 31⟩
def LTT_THETA_HI_THETA : Fld := ⟨15, 0⟩
/-- LTT_STAT (R328): address. -/
def LTT_STAT (i : Nat) : Nat := 0x201014 + 0x20 * i
def LTT_STAT_LOOP : Fld := ⟨1, 1⟩
def LTT_STAT_NO_D : Fld := ⟨0, 0⟩
/-- TU_TPORT_CFG (R328): address. -/
def TU_TPORT_CFG (i : Nat) : Nat := 0x202000 + 0x100 * i
def TU_TPORT_CFG_EN : Fld := ⟨31, 31⟩
def TU_TPORT_CFG_LANE : Fld := ⟨5, 0⟩
/-- TXQ_BASE (R328): address. -/
def TXQ_BASE (i : Nat) : Nat := 0x202004 + 0x100 * i
def TXQ_BASE_ADDR : Fld := ⟨31, 0⟩
/-- TXQ_WR (R328): address. -/
def TXQ_WR (i : Nat) : Nat := 0x202008 + 0x100 * i
def TXQ_WR_IDX : Fld := ⟨5, 0⟩
/-- TXQ_RD (R328): address. -/
def TXQ_RD (i : Nat) : Nat := 0x20200c + 0x100 * i
def TXQ_RD_IDX : Fld := ⟨5, 0⟩
/-- TXC_BASE (R328): address. -/
def TXC_BASE (i : Nat) : Nat := 0x202010 + 0x100 * i
def TXC_BASE_ADDR : Fld := ⟨31, 0⟩
/-- LAUNCH_LATE_CNT (R328): address. -/
def LAUNCH_LATE_CNT (i : Nat) : Nat := 0x202014 + 0x100 * i
def LAUNCH_LATE_CNT_CNT : Fld := ⟨31, 0⟩
/-- LAUNCH_DROP_CNT (R328): address. -/
def LAUNCH_DROP_CNT (i : Nat) : Nat := 0x202018 + 0x100 * i
def LAUNCH_DROP_CNT_CNT : Fld := ⟨31, 0⟩
/-- RXQ_BASE (R328): address. -/
def RXQ_BASE (i : Nat) : Nat := 0x202020 + 0x100 * i
def RXQ_BASE_ADDR : Fld := ⟨31, 0⟩
/-- RXQ_WR (R328): address. -/
def RXQ_WR (i : Nat) : Nat := 0x202024 + 0x100 * i
def RXQ_WR_IDX : Fld := ⟨5, 0⟩
/-- RXQ_RD (R328): address. -/
def RXQ_RD (i : Nat) : Nat := 0x202028 + 0x100 * i
def RXQ_RD_IDX : Fld := ⟨5, 0⟩
/-- RX_DISCARD_CNT (R328): address. -/
def RX_DISCARD_CNT (i : Nat) : Nat := 0x20202c + 0x100 * i
def RX_DISCARD_CNT_CNT : Fld := ⟨31, 0⟩
/-- TU_PTP_CTX (R328): address. -/
def TU_PTP_CTX (i : Nat) : Nat := 0x203000 + 0x4 * i
def TU_PTP_CTX_EN : Fld := ⟨31, 0⟩
/-- CNT_W0 (R500): address. -/
def CNT_W0 (i : Nat) : Nat := 0x300000 + 0x20 * i
def CNT_W0_V : Fld := ⟨31, 0⟩
/-- CNT_W1 (R500): address. -/
def CNT_W1 (i : Nat) : Nat := 0x300004 + 0x20 * i
def CNT_W1_V : Fld := ⟨31, 0⟩
/-- CNT_W2 (R500): address. -/
def CNT_W2 (i : Nat) : Nat := 0x300008 + 0x20 * i
def CNT_W2_V : Fld := ⟨31, 0⟩
/-- CNT_CFG_LO (R500): address. -/
def CNT_CFG_LO (i : Nat) : Nat := 0x300010 + 0x20 * i
def CNT_CFG_LO_EN : Fld := ⟨31, 31⟩
def CNT_CFG_LO_CLASS : Fld := ⟨30, 28⟩
def CNT_CFG_LO_INDEX : Fld := ⟨27, 16⟩
def CNT_CFG_LO_EVENT : Fld := ⟨7, 0⟩
/-- CNT_CFG_HI (R500): address. -/
def CNT_CFG_HI (i : Nat) : Nat := 0x300014 + 0x20 * i
def CNT_CFG_HI_EN : Fld := ⟨31, 31⟩
def CNT_CFG_HI_CLASS : Fld := ⟨30, 28⟩
def CNT_CFG_HI_INDEX : Fld := ⟨27, 16⟩
def CNT_CFG_HI_EVENT : Fld := ⟨7, 0⟩
/-- PAIR_CTL (R502): address. -/
def PAIR_CTL (i : Nat) : Nat := 0x300018 + 0x20 * i
def PAIR_CTL_WOW : Fld := ⟨3, 3⟩
def PAIR_CTL_OVF_HI : Fld := ⟨2, 2⟩
def PAIR_CTL_OVF_LO : Fld := ⟨1, 1⟩
def PAIR_CTL_CHAIN : Fld := ⟨0, 0⟩
/-- CNT_STAT (R503): address. -/
def CNT_STAT : Nat := 0x320000
def CNT_STAT_IRQ : Fld := ⟨3, 3⟩
def CNT_STAT_BW_DONE : Fld := ⟨2, 2⟩
def CNT_STAT_WRAP_ON_WRITE : Fld := ⟨1, 1⟩
def CNT_STAT_CFG_REFUSED : Fld := ⟨0, 0⟩
/-- CNT_GCFG (R503): address. -/
def CNT_GCFG : Nat := 0x320004
def CNT_GCFG_OVF_IRQ : Fld := ⟨0, 0⟩
/-- CNT_BANK_CTL (R503): address. -/
def CNT_BANK_CTL (i : Nat) : Nat := 0x320010 + 0x4 * i
def CNT_BANK_CTL_CLEAR : Fld := ⟨1, 1⟩
def CNT_BANK_CTL_FREEZE : Fld := ⟨0, 0⟩
/-- CNT_WORKER_EN (R503): address. -/
def CNT_WORKER_EN (i : Nat) : Nat := 0x320020 + 0x4 * i
def CNT_WORKER_EN_EN : Fld := ⟨31, 0⟩
/-- BW_CFG (R503): address. -/
def BW_CFG (i : Nat) : Nat := 0x321000 + 0x10 * i
def BW_CFG_EN : Fld := ⟨31, 31⟩
def BW_CFG_IRQ : Fld := ⟨30, 30⟩
def BW_CFG_KIND : Fld := ⟨29, 28⟩
def BW_CFG_DIR : Fld := ⟨27, 27⟩
def BW_CFG_INDEX : Fld := ⟨11, 0⟩
/-- BW_WIN (R503): address. -/
def BW_WIN (i : Nat) : Nat := 0x321004 + 0x10 * i
def BW_WIN_W : Fld := ⟨19, 0⟩
/-- BW_LAST (R503): address. -/
def BW_LAST (i : Nat) : Nat := 0x321008 + 0x10 * i
def BW_LAST_BLOCKS : Fld := ⟨31, 0⟩
/-- BW_RATE (R503): address. -/
def BW_RATE (i : Nat) : Nat := 0x32100c + 0x10 * i
def BW_RATE_VALID : Fld := ⟨31, 31⟩
def BW_RATE_RATE : Fld := ⟨26, 0⟩
/-- CTX_LOST (R503): address. -/
def CTX_LOST (i : Nat) : Nat := 0x324000 + 0x4 * i
def CTX_LOST_CNT : Fld := ⟨31, 0⟩
/-- ECC_CFG (R430): address. -/
def ECC_CFG : Nat := 0x400000
def ECC_CFG_HARD_THR : Fld := ⟨7, 0⟩
/-- ECC_STAT (R430): address. -/
def ECC_STAT : Nat := 0x400004
def ECC_STAT_FLIP_REFUSED : Fld := ⟨0, 0⟩
/-- ECC_FLIP_CTL (R430): address. -/
def ECC_FLIP_CTL : Nat := 0x400010
def ECC_FLIP_CTL_ARM : Fld := ⟨31, 31⟩
def ECC_FLIP_CTL_USED : Fld := ⟨30, 30⟩
def ECC_FLIP_CTL_REGION : Fld := ⟨7, 0⟩
/-- ECC_FLIP_DATA_LO (R430): address. -/
def ECC_FLIP_DATA_LO : Nat := 0x400014
def ECC_FLIP_DATA_LO_MASK : Fld := ⟨31, 0⟩
/-- ECC_FLIP_DATA_HI (R430): address. -/
def ECC_FLIP_DATA_HI : Nat := 0x400018
def ECC_FLIP_DATA_HI_MASK : Fld := ⟨31, 0⟩
/-- ECC_FLIP_CHECK (R430): address. -/
def ECC_FLIP_CHECK : Nat := 0x40001c
def ECC_FLIP_CHECK_MASK : Fld := ⟨7, 0⟩
/-- ECC_FLIP_ADDR (R430): address. -/
def ECC_FLIP_ADDR : Nat := 0x400020
def ECC_FLIP_ADDR_MACRO : Fld := ⟨31, 24⟩
def ECC_FLIP_ADDR_ROW : Fld := ⟨23, 12⟩
def ECC_FLIP_ADDR_WORD : Fld := ⟨11, 6⟩
/-- ECC_FLIP_EXP (R430): address. -/
def ECC_FLIP_EXP : Nat := 0x400024
def ECC_FLIP_EXP_SYND : Fld := ⟨7, 0⟩
/-- ECC_FLIP_STAT (R430): address. -/
def ECC_FLIP_STAT : Nat := 0x400028
def ECC_FLIP_STAT_PENDING : Fld := ⟨1, 1⟩
def ECC_FLIP_STAT_LOST : Fld := ⟨0, 0⟩
/-- FAR_CFG (R430): address. -/
def FAR_CFG : Nat := 0x400100
def FAR_CFG_RETRY : Fld := ⟨15, 8⟩
def FAR_CFG_AUTO_UNIT : Fld := ⟨3, 3⟩
def FAR_CFG_AUTO_STRIP : Fld := ⟨2, 2⟩
def FAR_CFG_AUTO_SLICE : Fld := ⟨1, 1⟩
def FAR_CFG_AUTO_ROW : Fld := ⟨0, 0⟩
/-- FAR_CMD (R431): address. -/
def FAR_CMD : Nat := 0x400104
def FAR_CMD_GO : Fld := ⟨31, 31⟩
def FAR_CMD_KIND : Fld := ⟨30, 28⟩
def FAR_CMD_ENG : Fld := ⟨21, 16⟩
def FAR_CMD_CONV : Fld := ⟨10, 8⟩
def FAR_CMD_TARGET : Fld := ⟨7, 0⟩
/-- FAR_ARG (R430): address. -/
def FAR_ARG : Nat := 0x400108
def FAR_ARG_MACRO : Fld := ⟨31, 24⟩
def FAR_ARG_ROW : Fld := ⟨23, 12⟩
def FAR_ARG_WORD : Fld := ⟨11, 6⟩
/-- FAR_STAT (R430): address. -/
def FAR_STAT : Nat := 0x40010c
def FAR_STAT_BUSY : Fld := ⟨31, 31⟩
def FAR_STAT_QUEUED : Fld := ⟨23, 16⟩
def FAR_STAT_NEXT : Fld := ⟨13, 8⟩
def FAR_STAT_QUEUE_FULL : Fld := ⟨0, 0⟩
/-- FAR_LOG (R432): address. -/
def FAR_LOG (i j : Nat) : Nat := 0x400800 + 0x10 * i + 0x4 * j
def FAR_LOG_WORD : Fld := ⟨31, 0⟩
/-- FG_CFG (R429): address. -/
def FG_CFG (i : Nat) : Nat := 0x401000 + 0x20 * i
def FG_CFG_EN : Fld := ⟨31, 31⟩
def FG_CFG_PERIOD : Fld := ⟨15, 0⟩
/-- FG_STAT (R429): address. -/
def FG_STAT (i : Nat) : Nat := 0x401004 + 0x20 * i
def FG_STAT_CD_TX_POISON : Fld := ⟨12, 12⟩
def FG_STAT_CD_RX_POISON : Fld := ⟨11, 11⟩
def FG_STAT_CD_TX_ZERO : Fld := ⟨10, 10⟩
def FG_STAT_CD_RX_ZERO : Fld := ⟨9, 9⟩
def FG_STAT_CD_TX_FALLBACK : Fld := ⟨8, 8⟩
def FG_STAT_CD_RX_FALLBACK : Fld := ⟨7, 7⟩
def FG_STAT_CD_TX_GOOD_SHADOW : Fld := ⟨6, 6⟩
def FG_STAT_CD_RX_GOOD_SHADOW : Fld := ⟨5, 5⟩
def FG_STAT_LOG_LOST : Fld := ⟨1, 1⟩
def FG_STAT_LAG : Fld := ⟨0, 0⟩
/-- CE_CNT (R429): address. -/
def CE_CNT (i : Nat) : Nat := 0x401008 + 0x20 * i
def CE_CNT_CNT : Fld := ⟨31, 0⟩
/-- UE_CNT (R429): address. -/
def UE_CNT (i : Nat) : Nat := 0x40100c + 0x20 * i
def UE_CNT_CNT : Fld := ⟨31, 0⟩
/-- POISON_CNT (R429): address. -/
def POISON_CNT (i : Nat) : Nat := 0x401010 + 0x20 * i
def POISON_CNT_CNT : Fld := ⟨31, 0⟩
/-- FG_CANCEL_CNT (R429): address. -/
def FG_CANCEL_CNT (i : Nat) : Nat := 0x401014 + 0x20 * i
def FG_CANCEL_CNT_CNT : Fld := ⟨31, 0⟩
/-- FG_POS (R429): address. -/
def FG_POS (i : Nat) : Nat := 0x401018 + 0x20 * i
def FG_POS_POS : Fld := ⟨23, 0⟩
/-- FG_SPARES (R429): address. -/
def FG_SPARES (i : Nat) : Nat := 0x40101c + 0x20 * i
def FG_SPARES_SPARES_LEFT : Fld := ⟨10, 0⟩
/-- ECC_LOG_ADDR (R428): address. -/
def ECC_LOG_ADDR (i j : Nat) : Nat := 0x408000 + 0x100 * i + 0x8 * j
def ECC_LOG_ADDR_MACRO : Fld := ⟨31, 24⟩
def ECC_LOG_ADDR_ROW : Fld := ⟨23, 12⟩
def ECC_LOG_ADDR_WORD : Fld := ⟨11, 6⟩
/-- ECC_LOG_INFO (R428): address. -/
def ECC_LOG_INFO (i j : Nat) : Nat := 0x408004 + 0x100 * i + 0x8 * j
def ECC_LOG_INFO_VALID : Fld := ⟨31, 31⟩
def ECC_LOG_INFO_HARD : Fld := ⟨30, 30⟩
def ECC_LOG_INFO_ARMED : Fld := ⟨29, 29⟩
def ECC_LOG_INFO_INJ : Fld := ⟨28, 28⟩
def ECC_LOG_INFO_REMAPPED : Fld := ⟨27, 27⟩
def ECC_LOG_INFO_SYND : Fld := ⟨15, 8⟩
def ECC_LOG_INFO_HITS : Fld := ⟨7, 0⟩
/-- HST_CMD (R461): address. -/
def HST_CMD : Nat := 0x400200
def HST_CMD_GO : Fld := ⟨31, 31⟩
def HST_CMD_ABORT : Fld := ⟨30, 30⟩
def HST_CMD_KIND : Fld := ⟨27, 24⟩
def HST_CMD_TESTS : Fld := ⟨23, 20⟩
def HST_CMD_INDEX : Fld := ⟨11, 0⟩
/-- HST_STAT (R462): address. -/
def HST_STAT : Nat := 0x400204
def HST_STAT_BUSY : Fld := ⟨31, 31⟩
def HST_STAT_DONE : Fld := ⟨30, 30⟩
def HST_STAT_RESULT : Fld := ⟨29, 28⟩
def HST_STAT_RETIRE : Fld := ⟨27, 27⟩
def HST_STAT_ERR : Fld := ⟨26, 24⟩
/-- HST_COUNT (R463): address. -/
def HST_COUNT : Nat := 0x400208
def HST_COUNT_COUNT : Fld := ⟨31, 0⟩
/-- HST_EXP_COUNT (R463): address. -/
def HST_EXP_COUNT : Nat := 0x40020c
def HST_EXP_COUNT_COUNT : Fld := ⟨31, 0⟩
/-- HST_SIG_LO (R463): address. -/
def HST_SIG_LO : Nat := 0x400210
def HST_SIG_LO_SIG : Fld := ⟨31, 0⟩
/-- HST_SIG_HI (R463): address. -/
def HST_SIG_HI : Nat := 0x400214
def HST_SIG_HI_SIG : Fld := ⟨31, 0⟩
/-- HST_EXP_SIG_LO (R463): address. -/
def HST_EXP_SIG_LO : Nat := 0x400218
def HST_EXP_SIG_LO_SIG : Fld := ⟨31, 0⟩
/-- HST_EXP_SIG_HI (R463): address. -/
def HST_EXP_SIG_HI : Nat := 0x40021c
def HST_EXP_SIG_HI_SIG : Fld := ⟨31, 0⟩
/-- HST_FAIL_INFO (R463): address. -/
def HST_FAIL_INFO : Nat := 0x400220
def HST_FAIL_INFO_VALID : Fld := ⟨31, 31⟩
def HST_FAIL_INFO_INDEX : Fld := ⟨30, 0⟩
/-- ST_CFG (R463): address. -/
def ST_CFG : Nat := 0x400240
def ST_CFG_AT_RETIRE_HUB : Fld := ⟨11, 8⟩
def ST_CFG_AT_RETIRE_ENG : Fld := ⟨3, 0⟩
/-- ST_DOM_LO (R463): address. -/
def ST_DOM_LO : Nat := 0x400250
def ST_DOM_LO_RES : Fld := ⟨21, 0⟩
/-- ST_DOM_HI (R463): address. -/
def ST_DOM_HI : Nat := 0x400254
def ST_DOM_HI_RES : Fld := ⟨21, 0⟩
/-- ST_ENG_RES (R463): address. -/
def ST_ENG_RES (i : Nat) : Nat := 0x400260 + 0x4 * i
def ST_ENG_RES_RES : Fld := ⟨31, 0⟩
/-- HIVE_DRN_CTL (R378): address. -/
def HIVE_DRN_CTL (i : Nat) : Nat := 0x500000 + 0x10 * i
def HIVE_DRN_CTL_HALT : Fld := ⟨31, 31⟩
def HIVE_DRN_CTL_RESUME : Fld := ⟨30, 30⟩
def HIVE_DRN_CTL_REVERT : Fld := ⟨29, 29⟩
def HIVE_DRN_CTL_CANCEL : Fld := ⟨28, 28⟩
/-- HIVE_DRN_STAT (R377): address. -/
def HIVE_DRN_STAT (i : Nat) : Nat := 0x500004 + 0x10 * i
def HIVE_DRN_STAT_STATE : Fld := ⟨31, 29⟩
def HIVE_DRN_STAT_ACTIVE_BANK : Fld := ⟨28, 28⟩
def HIVE_DRN_STAT_PENDING : Fld := ⟨27, 27⟩
def HIVE_DRN_STAT_IDLE_VALID : Fld := ⟨26, 26⟩
def HIVE_DRN_STAT_READY : Fld := ⟨25, 25⟩
def HIVE_DRN_STAT_CTL_REFUSED : Fld := ⟨24, 24⟩
/-- HIVE_DRN_HOV (R378): address. -/
def HIVE_DRN_HOV (i : Nat) : Nat := 0x500008 + 0x10 * i
def HIVE_DRN_HOV_COUNT : Fld := ⟨31, 16⟩
def HIVE_DRN_HOV_PAUSE : Fld := ⟨15, 0⟩
/-- HIVE_DRN_BUILD (R378): address. -/
def HIVE_DRN_BUILD (i : Nat) : Nat := 0x50000c + 0x10 * i
def HIVE_DRN_BUILD_BUILD : Fld := ⟨31, 0⟩
/-- HIVE_MBX_H2D_WR (R378): address. -/
def HIVE_MBX_H2D_WR (i : Nat) : Nat := 0x501000 + 0x20 * i
def HIVE_MBX_H2D_WR_WR : Fld := ⟨6, 0⟩
/-- HIVE_MBX_H2D_RD (R378): address. -/
def HIVE_MBX_H2D_RD (i : Nat) : Nat := 0x501004 + 0x20 * i
def HIVE_MBX_H2D_RD_RD : Fld := ⟨6, 0⟩
/-- HIVE_MBX_D2H_WR (R378): address. -/
def HIVE_MBX_D2H_WR (i : Nat) : Nat := 0x501008 + 0x20 * i
def HIVE_MBX_D2H_WR_WR : Fld := ⟨6, 0⟩
/-- HIVE_MBX_D2H_RD (R378): address. -/
def HIVE_MBX_D2H_RD (i : Nat) : Nat := 0x50100c + 0x20 * i
def HIVE_MBX_D2H_RD_RD : Fld := ⟨6, 0⟩
/-- HIVE_MBX_CFG (R378): address. -/
def HIVE_MBX_CFG (i : Nat) : Nat := 0x501010 + 0x20 * i
def HIVE_MBX_CFG_IRQ : Fld := ⟨0, 0⟩
/-- HIVE_MBX_STAT (R378): address. -/
def HIVE_MBX_STAT (i : Nat) : Nat := 0x501014 + 0x20 * i
def HIVE_MBX_STAT_OVERRUN : Fld := ⟨0, 0⟩
/-- POOL_STAT (R234): address. -/
def POOL_STAT : Nat := 0x600000
def POOL_STAT_REFUSED_ENG : Fld := ⟨29, 24⟩
def POOL_STAT_ASSIGNED : Fld := ⟨23, 16⟩
def POOL_STAT_SPARES : Fld := ⟨15, 8⟩
def POOL_STAT_POOL_FULL : Fld := ⟨5, 5⟩
def POOL_STAT_UNDERSIZED : Fld := ⟨4, 4⟩
def POOL_STAT_COUNT_MISMATCH : Fld := ⟨3, 3⟩
def POOL_STAT_UNIT_BUSY : Fld := ⟨2, 2⟩
def POOL_STAT_BAD_LIST : Fld := ⟨1, 1⟩
def POOL_STAT_NO_SPARE : Fld := ⟨0, 0⟩
/-- POOL_MIRROR_CTL (R236): address. -/
def POOL_MIRROR_CTL : Nat := 0x600010
def POOL_MIRROR_CTL_GO : Fld := ⟨31, 31⟩
def POOL_MIRROR_CTL_ABORT : Fld := ⟨30, 30⟩
def POOL_MIRROR_CTL_TARGET : Fld := ⟨22, 16⟩
def POOL_MIRROR_CTL_SPARE : Fld := ⟨6, 0⟩
/-- POOL_MIRROR_STAT (R236): address. -/
def POOL_MIRROR_STAT : Nat := 0x600014
def POOL_MIRROR_STAT_STATE : Fld := ⟨31, 30⟩
def POOL_MIRROR_STAT_PASS : Fld := ⟨29, 29⟩
def POOL_MIRROR_STAT_ABORTED : Fld := ⟨28, 28⟩
def POOL_MIRROR_STAT_ERR : Fld := ⟨27, 24⟩
def POOL_MIRROR_STAT_COMPARED : Fld := ⟨12, 0⟩
/-- POOL_UNIT (R235): address. -/
def POOL_UNIT (i : Nat) : Nat := 0x600100 + 0x4 * i
def POOL_UNIT_STATE : Fld := ⟨31, 29⟩
def POOL_UNIT_OWNER : Fld := ⟨21, 16⟩
/-- POOL_DEC (R233): address. -/
def POOL_DEC (i : Nat) : Nat := 0x601000 + 0x4 * i
def POOL_DEC_COUNT : Fld := ⟨31, 30⟩
def POOL_DEC_UNIT2 : Fld := ⟨22, 16⟩
def POOL_DEC_UNIT1 : Fld := ⟨14, 8⟩
def POOL_DEC_UNIT0 : Fld := ⟨6, 0⟩
/-- POOL_ENC (R233): address. -/
def POOL_ENC (i : Nat) : Nat := 0x601100 + 0x4 * i
def POOL_ENC_LANES : Fld := ⟨1, 0⟩
/-- FEC_STAT (R237): address. -/
def FEC_STAT (i : Nat) : Nat := 0x602000 + 0x40 * i
def FEC_STAT_MARGIN_LIVE : Fld := ⟨5, 5⟩
def FEC_STAT_UNCORR : Fld := ⟨2, 2⟩
def FEC_STAT_LDPC_FAIL : Fld := ⟨1, 1⟩
def FEC_STAT_MARGIN : Fld := ⟨0, 0⟩
/-- FEC_ALARM (R237): address. -/
def FEC_ALARM (i : Nat) : Nat := 0x602004 + 0x40 * i
def FEC_ALARM_THR : Fld := ⟨15, 0⟩
/-- FEC_BER_LOG (R237): address. -/
def FEC_BER_LOG (i : Nat) : Nat := 0x602008 + 0x40 * i
def FEC_BER_LOG_BER_LOG : Fld := ⟨15, 0⟩
/-- FEC_ERR_LO (R237): address. -/
def FEC_ERR_LO (i : Nat) : Nat := 0x602010 + 0x40 * i
def FEC_ERR_LO_CNT : Fld := ⟨31, 0⟩
/-- FEC_ERR_HI (R237): address. -/
def FEC_ERR_HI (i : Nat) : Nat := 0x602014 + 0x40 * i
def FEC_ERR_HI_CNT : Fld := ⟨31, 0⟩
/-- FEC_BITS_LO (R237): address. -/
def FEC_BITS_LO (i : Nat) : Nat := 0x602018 + 0x40 * i
def FEC_BITS_LO_CNT : Fld := ⟨31, 0⟩
/-- FEC_BITS_HI (R237): address. -/
def FEC_BITS_HI (i : Nat) : Nat := 0x60201c + 0x40 * i
def FEC_BITS_HI_CNT : Fld := ⟨31, 0⟩
/-- FEC_CW (R237): address. -/
def FEC_CW (i : Nat) : Nat := 0x602020 + 0x40 * i
def FEC_CW_CNT : Fld := ⟨31, 0⟩
/-- FEC_LDPC_FAIL (R237): address. -/
def FEC_LDPC_FAIL (i : Nat) : Nat := 0x602024 + 0x40 * i
def FEC_LDPC_FAIL_CNT : Fld := ⟨31, 0⟩
/-- FEC_BCH_CORR (R237): address. -/
def FEC_BCH_CORR (i : Nat) : Nat := 0x602028 + 0x40 * i
def FEC_BCH_CORR_CNT : Fld := ⟨31, 0⟩
/-- FEC_BCH_UNCORR (R237): address. -/
def FEC_BCH_UNCORR (i : Nat) : Nat := 0x60202c + 0x40 * i
def FEC_BCH_UNCORR_CNT : Fld := ⟨31, 0⟩
/-- CLI_CMD (R266): address. -/
def CLI_CMD : Nat := 0x700000
def CLI_CMD_GO : Fld := ⟨31, 31⟩
def CLI_CMD_OP : Fld := ⟨30, 28⟩
def CLI_CMD_CTX : Fld := ⟨11, 0⟩
/-- CLI_STAT (R268): address. -/
def CLI_STAT : Nat := 0x700004
def CLI_STAT_REFUSED_ENG : Fld := ⟨29, 24⟩
def CLI_STAT_SHRINK_LEAD : Fld := ⟨9, 9⟩
def CLI_STAT_BOUND_LOW : Fld := ⟨8, 8⟩
def CLI_STAT_TOTAL : Fld := ⟨7, 7⟩
def CLI_STAT_SPREAD : Fld := ⟨6, 6⟩
def CLI_STAT_ELASTIC_RANGE : Fld := ⟨5, 5⟩
def CLI_STAT_COMMITTED_SPREAD : Fld := ⟨4, 4⟩
def CLI_STAT_CLASS : Fld := ⟨3, 3⟩
def CLI_STAT_CTX_STATE : Fld := ⟨2, 2⟩
def CLI_STAT_GUARD : Fld := ⟨1, 1⟩
def CLI_STAT_ENTRY_RANGE : Fld := ⟨0, 0⟩
/-- CLI_CMD_STAT (R267): address. -/
def CLI_CMD_STAT : Nat := 0x700008
def CLI_CMD_STAT_ERR : Fld := ⟨3, 0⟩
/-- CTX_CFG (R270): address. -/
def CTX_CFG (i : Nat) : Nat := 0x708000 + 0x20 * i
def CTX_CFG_TYPE : Fld := ⟨29, 28⟩
def CTX_CFG_COMMITTED : Fld := ⟨27, 27⟩
def CTX_CFG_PORT : Fld := ⟨23, 16⟩
def CTX_CFG_CLIENT : Fld := ⟨15, 0⟩
/-- CTX_SLOTS (R270): address. -/
def CTX_SLOTS (i : Nat) : Nat := 0x708004 + 0x20 * i
def CTX_SLOTS_MAX : Fld := ⟨24, 16⟩
def CTX_SLOTS_MIN : Fld := ⟨8, 0⟩
/-- CTX_BOUND (R270): address. -/
def CTX_BOUND (i : Nat) : Nat := 0x708008 + 0x20 * i
def CTX_BOUND_BOUND : Fld := ⟨12, 0⟩
/-- CTX_STAT (R270): address. -/
def CTX_STAT (i : Nat) : Nat := 0x70800c + 0x20 * i
def CTX_STAT_STATE : Fld := ⟨31, 30⟩
def CTX_STAT_CARRIER_DOWN : Fld := ⟨29, 29⟩
def CTX_STAT_SEQ_GAP : Fld := ⟨2, 2⟩
def CTX_STAT_ERRORED : Fld := ⟨1, 1⟩
def CTX_STAT_REFUSED : Fld := ⟨0, 0⟩
/-- CTX_LIM (R270): address. -/
def CTX_LIM (i : Nat) : Nat := 0x708010 + 0x20 * i
def CTX_LIM_LIM : Fld := ⟨23, 0⟩
/-- CTX_ACC (R270): address. -/
def CTX_ACC (i : Nat) : Nat := 0x708014 + 0x20 * i
def CTX_ACC_ACC : Fld := ⟨23, 0⟩
/-- CTX_REFUSED (R270): address. -/
def CTX_REFUSED (i : Nat) : Nat := 0x708018 + 0x20 * i
def CTX_REFUSED_CNT : Fld := ⟨31, 0⟩
/-- CTX_ERRORED (R270): address. -/
def CTX_ERRORED (i : Nat) : Nat := 0x70801c + 0x20 * i
def CTX_ERRORED_CNT : Fld := ⟨31, 0⟩
/-- CAL_IN (R269): address. -/
def CAL_IN (i j : Nat) : Nat := 0x730000 + 0x800 * i + 0x4 * j
def CAL_IN_EN : Fld := ⟨31, 31⟩
def CAL_IN_COMMITTED : Fld := ⟨30, 30⟩
def CAL_IN_CTX : Fld := ⟨11, 0⟩
/-- CAL_OUT (R269): address. -/
def CAL_OUT (i j : Nat) : Nat := 0x748000 + 0x800 * i + 0x4 * j
def CAL_OUT_EN : Fld := ⟨31, 31⟩
def CAL_OUT_COMMITTED : Fld := ⟨30, 30⟩
def CAL_OUT_CTX : Fld := ⟨11, 0⟩
/-- ENG_ID (R509): address. -/
def ENG_ID (n : Nat) : Nat := 0x1000000 + 0x80000 * n + 0x0
def ENG_ID_TILE : Fld := ⟨10, 8⟩
def ENG_ID_ENGINE : Fld := ⟨5, 0⟩
/-- ENG_SWAP_REQ (R25): address. -/
def ENG_SWAP_REQ (n : Nat) : Nat := 0x1000000 + 0x80000 * n + 0x40
def ENG_SWAP_REQ_WHEN : Fld := ⟨31, 30⟩
def ENG_SWAP_REQ_BLOCKS : Fld := ⟨14, 0⟩
/-- ENG_SWAP_AT (R26): address. -/
def ENG_SWAP_AT (n : Nat) : Nat := 0x1000000 + 0x80000 * n + 0x44
def ENG_SWAP_AT_SF : Fld := ⟨23, 0⟩
/-- ENG_SWAP_PEND (R31): address. -/
def ENG_SWAP_PEND (n : Nat) : Nat := 0x1000000 + 0x80000 * n + 0x48
def ENG_SWAP_PEND_PEND : Fld := ⟨14, 0⟩
/-- ENG_SWAP_STAT (R31): address. -/
def ENG_SWAP_STAT (n : Nat) : Nat := 0x1000000 + 0x80000 * n + 0x4c
def ENG_SWAP_STAT_DONE_CNT : Fld := ⟨31, 16⟩
def ENG_SWAP_STAT_FLYWHEEL : Fld := ⟨6, 6⟩
def ENG_SWAP_STAT_CANCELLED : Fld := ⟨5, 5⟩
def ENG_SWAP_STAT_WRITE_BLOCKED : Fld := ⟨4, 4⟩
def ENG_SWAP_STAT_REJECT_WHEN : Fld := ⟨3, 3⟩
def ENG_SWAP_STAT_REJECT_IMMED : Fld := ⟨2, 2⟩
def ENG_SWAP_STAT_REJECT_LATE : Fld := ⟨1, 1⟩
def ENG_SWAP_STAT_REJECT_CLASH : Fld := ⟨0, 0⟩
/-- GAIT_SEL (R56): address. -/
def GAIT_SEL (n : Nat) : Nat := 0x1000000 + 0x80000 * n + 0x50
def GAIT_SEL_RX_IDX : Fld := ⟨7, 4⟩
def GAIT_SEL_TX_IDX : Fld := ⟨3, 0⟩
/-- GAIT_STAT (R57): address. -/
def GAIT_STAT (n : Nat) : Nat := 0x1000000 + 0x80000 * n + 0x54
def GAIT_STAT_BAD_REASON : Fld := ⟨19, 16⟩
def GAIT_STAT_RX_ACT : Fld := ⟨15, 12⟩
def GAIT_STAT_TX_ACT : Fld := ⟨11, 8⟩
def GAIT_STAT_EPOCH_RX : Fld := ⟨7, 7⟩
def GAIT_STAT_EPOCH_TX : Fld := ⟨6, 6⟩
def GAIT_STAT_EPOCH_MISMATCH : Fld := ⟨5, 5⟩
def GAIT_STAT_CATCH_UP : Fld := ⟨4, 4⟩
def GAIT_STAT_WRITE_ACTIVE : Fld := ⟨3, 3⟩
def GAIT_STAT_SEL_INVALID : Fld := ⟨2, 2⟩
def GAIT_STAT_BAD_ENTRY : Fld := ⟨1, 1⟩
/-- NEG_TX_CTL (R74): address. -/
def NEG_TX_CTL (n : Nat) : Nat := 0x1000000 + 0x80000 * n + 0x60
def NEG_TX_CTL_GO : Fld := ⟨31, 31⟩
def NEG_TX_CTL_ABANDON : Fld := ⟨30, 30⟩
def NEG_TX_CTL_INDEX : Fld := ⟨19, 16⟩
def NEG_TX_CTL_BLOCKS : Fld := ⟨14, 0⟩
/-- NEG_TX_S (R74): address. -/
def NEG_TX_S (n : Nat) : Nat := 0x1000000 + 0x80000 * n + 0x64
def NEG_TX_S_S : Fld := ⟨23, 0⟩
/-- NEG_TX_STAT (R75): address. -/
def NEG_TX_STAT (n : Nat) : Nat := 0x1000000 + 0x80000 * n + 0x68
def NEG_TX_STAT_STATE : Fld := ⟨18, 16⟩
def NEG_TX_STAT_TID : Fld := ⟨15, 8⟩
def NEG_TX_STAT_REASON : Fld := ⟨7, 0⟩
/-- NEG_RX_PROP (R76): address. -/
def NEG_RX_PROP (n : Nat) : Nat := 0x1000000 + 0x80000 * n + 0x6c
def NEG_RX_PROP_NEW : Fld := ⟨31, 31⟩
def NEG_RX_PROP_CHECK_OK : Fld := ⟨30, 30⟩
def NEG_RX_PROP_INDEX : Fld := ⟨27, 24⟩
def NEG_RX_PROP_TID : Fld := ⟨23, 16⟩
def NEG_RX_PROP_CHECK : Fld := ⟨15, 0⟩
/-- NEG_RX_S (R76): address. -/
def NEG_RX_S (n : Nat) : Nat := 0x1000000 + 0x80000 * n + 0x70
def NEG_RX_S_S : Fld := ⟨23, 0⟩
/-- NEG_RX_CTL (R77): address. -/
def NEG_RX_CTL (n : Nat) : Nat := 0x1000000 + 0x80000 * n + 0x74
def NEG_RX_CTL_ACK : Fld := ⟨31, 31⟩
def NEG_RX_CTL_NAK : Fld := ⟨30, 30⟩
def NEG_RX_CTL_REASON : Fld := ⟨23, 16⟩
def NEG_RX_CTL_BLOCKS : Fld := ⟨14, 0⟩
/-- NEG_RX_STAT (R78): address. -/
def NEG_RX_STAT (n : Nat) : Nat := 0x1000000 + 0x80000 * n + 0x78
def NEG_RX_STAT_STATE : Fld := ⟨18, 16⟩
def NEG_RX_STAT_TID : Fld := ⟨15, 8⟩
def NEG_RX_STAT_LT : Fld := ⟨7, 0⟩
/-- ENG_SF_TX (R38): address. -/
def ENG_SF_TX (n : Nat) : Nat := 0x1000000 + 0x80000 * n + 0x80
def ENG_SF_TX_SN : Fld := ⟨23, 0⟩
/-- ENG_SF_RX (R39): address. -/
def ENG_SF_RX (n : Nat) : Nat := 0x1000000 + 0x80000 * n + 0x84
def ENG_SF_RX_COUNT : Fld := ⟨23, 0⟩
/-- ENG_SF_OFS (R40): address. -/
def ENG_SF_OFS (n : Nat) : Nat := 0x1000000 + 0x80000 * n + 0x88
def ENG_SF_OFS_VALID : Fld := ⟨31, 31⟩
def ENG_SF_OFS_OFS : Fld := ⟨23, 0⟩
/-- GAIT_W0 (R52): address. -/
def GAIT_W0 (n i : Nat) : Nat := 0x1000000 + 0x80000 * n + 0x100 + 0x10 * i
def GAIT_W0_VALID : Fld := ⟨31, 31⟩
def GAIT_W0_CONST : Fld := ⟨30, 29⟩
def GAIT_W0_OH : Fld := ⟨28, 27⟩
def GAIT_W0_ENTROPY : Fld := ⟨26, 18⟩
def GAIT_W0_SYMRATE : Fld := ⟨12, 0⟩
/-- GAIT_W1 (R52): address. -/
def GAIT_W1 (n i : Nat) : Nat := 0x1000000 + 0x80000 * n + 0x104 + 0x10 * i
def GAIT_W1_SLOTS : Fld := ⟨8, 0⟩
/-- GAIT_W2 (R52): address. -/
def GAIT_W2 (n i : Nat) : Nat := 0x1000000 + 0x80000 * n + 0x108 + 0x10 * i
def GAIT_W2_N5 : Fld := ⟨23, 16⟩
def GAIT_W2_N3 : Fld := ⟨15, 8⟩
def GAIT_W2_N1 : Fld := ⟨7, 0⟩
/-- CONV_SEL (R84): address. -/
def CONV_SEL (n : Nat) : Nat := 0x1000000 + 0x80000 * n + 0x8000
def CONV_SEL_REF_NEG : Fld := ⟨8, 8⟩
def CONV_SEL_YQ : Fld := ⟨7, 6⟩
def CONV_SEL_YI : Fld := ⟨5, 4⟩
def CONV_SEL_XQ : Fld := ⟨3, 2⟩
def CONV_SEL_XI : Fld := ⟨1, 0⟩
/-- CONV_OVR_STAT (R89): address. -/
def CONV_OVR_STAT (n : Nat) : Nat := 0x1000000 + 0x80000 * n + 0x8004
def CONV_OVR_STAT_LIVE : Fld := ⟨7, 4⟩
def CONV_OVR_STAT_STICKY : Fld := ⟨3, 0⟩
/-- CONV_STAT (R510): address. -/
def CONV_STAT (n : Nat) : Nat := 0x1000000 + 0x80000 * n + 0x8008
def CONV_STAT_MAP_INVALID : Fld := ⟨1, 1⟩
def CONV_STAT_SEL_REFUSED : Fld := ⟨0, 0⟩
/-- CONV_CLIP_CNT (R90): address. -/
def CONV_CLIP_CNT (n i : Nat) : Nat := 0x1000000 + 0x80000 * n + 0x8010 + 0x4 * i
def CONV_CLIP_CNT_CNT : Fld := ⟨31, 0⟩
/-- CONV_ADC_MAP (R95): address. -/
def CONV_ADC_MAP (n i : Nat) : Nat := 0x1000000 + 0x80000 * n + 0x8020 + 0x4 * i
def CONV_ADC_MAP_EN3 : Fld := ⟨31, 31⟩
def CONV_ADC_MAP_SLICE3 : Fld := ⟨29, 24⟩
def CONV_ADC_MAP_EN2 : Fld := ⟨23, 23⟩
def CONV_ADC_MAP_SLICE2 : Fld := ⟨21, 16⟩
def CONV_ADC_MAP_EN1 : Fld := ⟨15, 15⟩
def CONV_ADC_MAP_SLICE1 : Fld := ⟨13, 8⟩
def CONV_ADC_MAP_EN0 : Fld := ⟨7, 7⟩
def CONV_ADC_MAP_SLICE0 : Fld := ⟨5, 0⟩
/-- CONV_DAC_MAP (R96): address. -/
def CONV_DAC_MAP (n i : Nat) : Nat := 0x1000000 + 0x80000 * n + 0x8030 + 0x4 * i
def CONV_DAC_MAP_EN1 : Fld := ⟨15, 15⟩
def CONV_DAC_MAP_SLICE1 : Fld := ⟨12, 8⟩
def CONV_DAC_MAP_EN0 : Fld := ⟨7, 7⟩
def CONV_DAC_MAP_SLICE0 : Fld := ⟨4, 0⟩
/-- CONV_CAL_CTL (R107): address. -/
def CONV_CAL_CTL (n : Nat) : Nat := 0x1000000 + 0x80000 * n + 0x8040
def CONV_CAL_CTL_GO : Fld := ⟨31, 31⟩
def CONV_CAL_CTL_ABORT : Fld := ⟨30, 30⟩
def CONV_CAL_CTL_STEP : Fld := ⟨5, 4⟩
def CONV_CAL_CTL_MASK : Fld := ⟨3, 0⟩
/-- CONV_CAL_STAT (R109): address. -/
def CONV_CAL_STAT (n : Nat) : Nat := 0x1000000 + 0x80000 * n + 0x8044
def CONV_CAL_STAT_STATE : Fld := ⟨31, 30⟩
def CONV_CAL_STAT_DONE : Fld := ⟨19, 16⟩
def CONV_CAL_STAT_PASS : Fld := ⟨11, 8⟩
def CONV_CAL_STAT_ERR : Fld := ⟨3, 0⟩
/-- CONV_CAL_TONE (R108): address. -/
def CONV_CAL_TONE (n : Nat) : Nat := 0x1000000 + 0x80000 * n + 0x8048
def CONV_CAL_TONE_AMP : Fld := ⟨23, 16⟩
def CONV_CAL_TONE_FREQ : Fld := ⟨15, 0⟩
/-- CONV_CAL_SPUR (R106): address. -/
def CONV_CAL_SPUR (n i : Nat) : Nat := 0x1000000 + 0x80000 * n + 0x8050 + 0x4 * i
def CONV_CAL_SPUR_SPUR : Fld := ⟨15, 0⟩
/-- CONV_ADC_CORR (R105): address. -/
def CONV_ADC_CORR (n i : Nat) : Nat := 0x1000000 + 0x80000 * n + 0x8060 + 0x4 * i
def CONV_ADC_CORR_G : Fld := ⟨31, 16⟩
def CONV_ADC_CORR_O : Fld := ⟨15, 0⟩
/-- CONV_SPARE_STAT (R98): address. -/
def CONV_SPARE_STAT (n i : Nat) : Nat := 0x1000000 + 0x80000 * n + 0x8070 + 0x4 * i
def CONV_SPARE_STAT_DONE : Fld := ⟨31, 16⟩
def CONV_SPARE_STAT_PASS : Fld := ⟨15, 0⟩
/-- CONV_TRACK_LIMIT (R94): address. -/
def CONV_TRACK_LIMIT (n i j : Nat) : Nat := 0x1000000 + 0x80000 * n + 0x8080 + 0x8 * i + 0x4 * j
def CONV_TRACK_LIMIT_BITS : Fld := ⟨31, 0⟩
/-- CONV_SLICE_CORR (R105): address. -/
def CONV_SLICE_CORR (n i j : Nat) : Nat := 0x1000000 + 0x80000 * n + 0x8400 + 0x100 * i + 0x4 * j
def CONV_SLICE_CORR_G : Fld := ⟨31, 16⟩
def CONV_SLICE_CORR_O : Fld := ⟨15, 0⟩
/-- TX_CTL (R125): address. -/
def TX_CTL (n : Nat) : Nat := 0x1000000 + 0x80000 * n + 0x10000
def TX_CTL_EN : Fld := ⟨0, 0⟩
/-- TX_STAT (R127): address. -/
def TX_STAT (n : Nat) : Nat := 0x1000000 + 0x80000 * n + 0x10004
def TX_STAT_ON : Fld := ⟨15, 15⟩
def TX_STAT_CLIP_LIVE : Fld := ⟨11, 8⟩
def TX_STAT_CLIP_STICKY : Fld := ⟨7, 4⟩
def TX_STAT_RATE_REFUSED : Fld := ⟨3, 3⟩
def TX_STAT_MODE_INVALID : Fld := ⟨2, 2⟩
def TX_STAT_HELD : Fld := ⟨1, 1⟩
def TX_STAT_ON_REFUSED : Fld := ⟨0, 0⟩
/-- TX_MODE (R138): address. -/
def TX_MODE (n : Nat) : Nat := 0x1000000 + 0x80000 * n + 0x10008
def TX_MODE_ROLLOFF : Fld := ⟨15, 8⟩
def TX_MODE_CDPRE : Fld := ⟨3, 2⟩
def TX_MODE_GLO : Fld := ⟨1, 0⟩
/-- TX_CD_OVL (R138): address. -/
def TX_CD_OVL (n : Nat) : Nat := 0x1000000 + 0x80000 * n + 0x1000c
def TX_CD_OVL_OVL : Fld := ⟨5, 0⟩
/-- TX_GAIN (R138): address. -/
def TX_GAIN (n i : Nat) : Nat := 0x1000000 + 0x80000 * n + 0x10010 + 0x4 * i
def TX_GAIN_GAIN : Fld := ⟨15, 0⟩
/-- TX_DELAY (R138): address. -/
def TX_DELAY (n i : Nat) : Nat := 0x1000000 + 0x80000 * n + 0x10020 + 0x4 * i
def TX_DELAY_INT : Fld := ⟨15, 8⟩
def TX_DELAY_FRAC : Fld := ⟨7, 0⟩
/-- TX_CLIP_CNT (R138): address. -/
def TX_CLIP_CNT (n i : Nat) : Nat := 0x1000000 + 0x80000 * n + 0x10030 + 0x4 * i
def TX_CLIP_CNT_CNT : Fld := ⟨31, 0⟩
/-- TX_LAT (R138): address. -/
def TX_LAT (n : Nat) : Nat := 0x1000000 + 0x80000 * n + 0x10040
def TX_LAT_TOTAL : Fld := ⟨15, 0⟩
/-- TX_PREEMPH (R138): address. -/
def TX_PREEMPH (n i j : Nat) : Nat := 0x1000000 + 0x80000 * n + 0x10100 + 0x40 * i + 0x4 * j
def TX_PREEMPH_TAP : Fld := ⟨15, 0⟩
/-- TX_SLICE_CORR (R138): address. -/
def TX_SLICE_CORR (n i j : Nat) : Nat := 0x1000000 + 0x80000 * n + 0x10400 + 0x100 * i + 0x4 * j
def TX_SLICE_CORR_SKEW : Fld := ⟨27, 16⟩
def TX_SLICE_CORR_OFFSET : Fld := ⟨7, 0⟩
/-- RX_CTL (R177): address. -/
def RX_CTL (n : Nat) : Nat := 0x1000000 + 0x80000 * n + 0x20000
def RX_CTL_RESTART : Fld := ⟨1, 1⟩
def RX_CTL_EN : Fld := ⟨0, 0⟩
/-- RX_STAT (R178): address. -/
def RX_STAT (n : Nat) : Nat := 0x1000000 + 0x80000 * n + 0x20004
def RX_STAT_STATE : Fld := ⟨31, 29⟩
def RX_STAT_READY : Fld := ⟨28, 28⟩
def RX_STAT_OH_LOCK : Fld := ⟨27, 27⟩
def RX_STAT_POL_SWAP : Fld := ⟨26, 26⟩
def RX_STAT_ROT : Fld := ⟨25, 24⟩
def RX_STAT_SYNC_ERR : Fld := ⟨23, 16⟩
def RX_STAT_SEL_HOLD : Fld := ⟨15, 15⟩
def RX_STAT_FREQ_LIMIT : Fld := ⟨14, 14⟩
def RX_STAT_CD_EDGE : Fld := ⟨7, 7⟩
def RX_STAT_RATE_MISMATCH : Fld := ⟨6, 6⟩
def RX_STAT_HELD : Fld := ⟨5, 5⟩
def RX_STAT_MODE_INVALID : Fld := ⟨4, 4⟩
def RX_STAT_REPLACE_SLOW : Fld := ⟨3, 3⟩
def RX_STAT_SIGNAL_REPLACED : Fld := ⟨2, 2⟩
def RX_STAT_LOCK_LOST : Fld := ⟨1, 1⟩
def RX_STAT_ACQ_FAIL : Fld := ⟨0, 0⟩
/-- RX_MODE (R179): address. -/
def RX_MODE (n : Nat) : Nat := 0x1000000 + 0x80000 * n + 0x20008
def RX_MODE_ROLLOFF : Fld := ⟨15, 8⟩
def RX_MODE_CDSRC : Fld := ⟨5, 4⟩
def RX_MODE_GLO : Fld := ⟨1, 0⟩
/-- RX_CD_OVL (R180): address. -/
def RX_CD_OVL (n : Nat) : Nat := 0x1000000 + 0x80000 * n + 0x2000c
def RX_CD_OVL_OVL : Fld := ⟨6, 0⟩
/-- RX_CD_D (R180): address. -/
def RX_CD_D (n : Nat) : Nat := 0x1000000 + 0x80000 * n + 0x20010
def RX_CD_D_D : Fld := ⟨23, 0⟩
/-- RX_CD_LAMBDA (R180): address. -/
def RX_CD_LAMBDA (n : Nat) : Nat := 0x1000000 + 0x80000 * n + 0x20014
def RX_CD_LAMBDA_LAMBDA : Fld := ⟨17, 0⟩
/-- RX_EQ_CFG (R180): address. -/
def RX_EQ_CFG (n : Nat) : Nat := 0x1000000 + 0x80000 * n + 0x20018
def RX_EQ_CFG_MU_LMS : Fld := ⟨15, 12⟩
def RX_EQ_CFG_MU_CMA : Fld := ⟨11, 8⟩
def RX_EQ_CFG_NTAPS : Fld := ⟨5, 0⟩
/-- RX_PR_CFG (R180): address. -/
def RX_PR_CFG (n : Nat) : Nat := 0x1000000 + 0x80000 * n + 0x2001c
def RX_PR_CFG_BWIN : Fld := ⟨23, 16⟩
def RX_PR_CFG_BLIND : Fld := ⟨9, 8⟩
def RX_PR_CFG_PAVG : Fld := ⟨3, 0⟩
/-- RX_LLR_CFG (R180): address. -/
def RX_LLR_CFG (n : Nat) : Nat := 0x1000000 + 0x80000 * n + 0x20020
def RX_LLR_CFG_SCALE : Fld := ⟨7, 0⟩
/-- RX_IQ (R180): address. -/
def RX_IQ (n i : Nat) : Nat := 0x1000000 + 0x80000 * n + 0x20024 + 0x4 * i
def RX_IQ_GAIN : Fld := ⟨27, 16⟩
def RX_IQ_PHASE : Fld := ⟨15, 8⟩
def RX_IQ_SKEW : Fld := ⟨7, 0⟩
/-- RX_ACQ_PWR (R182): address. -/
def RX_ACQ_PWR (n : Nat) : Nat := 0x1000000 + 0x80000 * n + 0x20030
def RX_ACQ_PWR_THR : Fld := ⟨31, 16⟩
def RX_ACQ_PWR_DWELL : Fld := ⟨15, 0⟩
/-- RX_ACQ_SYNC (R182): address. -/
def RX_ACQ_SYNC (n : Nat) : Nat := 0x1000000 + 0x80000 * n + 0x20034
def RX_ACQ_SYNC_STEP : Fld := ⟨31, 24⟩
def RX_ACQ_SYNC_RCONV : Fld := ⟨15, 8⟩
def RX_ACQ_SYNC_E : Fld := ⟨5, 0⟩
/-- RX_ACQ_TIME (R182): address. -/
def RX_ACQ_TIME (n : Nat) : Nat := 0x1000000 + 0x80000 * n + 0x20038
def RX_ACQ_TIME_HUNT_TO : Fld := ⟨31, 16⟩
def RX_ACQ_TIME_CONV : Fld := ⟨15, 0⟩
/-- RX_CD_SCAN (R182): address. -/
def RX_CD_SCAN (n : Nat) : Nat := 0x1000000 + 0x80000 * n + 0x20040
def RX_CD_SCAN_RANGE : Fld := ⟨27, 16⟩
def RX_CD_SCAN_STEP : Fld := ⟨11, 0⟩
/-- RX_CD_SCAN_CTR (R182): address. -/
def RX_CD_SCAN_CTR (n : Nat) : Nat := 0x1000000 + 0x80000 * n + 0x20044
def RX_CD_SCAN_CTR_CENTRE : Fld := ⟨23, 0⟩
/-- RX_CD_EST (R182): address. -/
def RX_CD_EST (n : Nat) : Nat := 0x1000000 + 0x80000 * n + 0x20048
def RX_CD_EST_VALID : Fld := ⟨31, 31⟩
def RX_CD_EST_EST : Fld := ⟨23, 0⟩
/-- RX_TUNE_CFG (R182): address. -/
def RX_TUNE_CFG (n : Nat) : Nat := 0x1000000 + 0x80000 * n + 0x20050
def RX_TUNE_CFG_EN : Fld := ⟨31, 31⟩
def RX_TUNE_CFG_PERIOD : Fld := ⟨30, 21⟩
def RX_TUNE_CFG_GAIN : Fld := ⟨20, 13⟩
def RX_TUNE_CFG_DEADBAND : Fld := ⟨12, 8⟩
def RX_TUNE_CFG_MAX_STEP : Fld := ⟨7, 0⟩
/-- RX_FREQ (R182): address. -/
def RX_FREQ (n : Nat) : Nat := 0x1000000 + 0x80000 * n + 0x20054
def RX_FREQ_LIMIT : Fld := ⟨31, 31⟩
def RX_FREQ_OFFSET : Fld := ⟨15, 0⟩
/-- RX_SYNCQ_SF (R182): address. -/
def RX_SYNCQ_SF (n : Nat) : Nat := 0x1000000 + 0x80000 * n + 0x20060
def RX_SYNCQ_SF_VALID : Fld := ⟨31, 31⟩
def RX_SYNCQ_SF_COUNT : Fld := ⟨23, 0⟩
/-- RX_SYNCQ_PWR (R182): address. -/
def RX_SYNCQ_PWR (n : Nat) : Nat := 0x1000000 + 0x80000 * n + 0x20064
def RX_SYNCQ_PWR_PWR : Fld := ⟨15, 0⟩
/-- RX_SYNCQ_SNR (R182): address. -/
def RX_SYNCQ_SNR (n : Nat) : Nat := 0x1000000 + 0x80000 * n + 0x20068
def RX_SYNCQ_SNR_SNR : Fld := ⟨15, 0⟩
/-- RX_LAT (R182): address. -/
def RX_LAT (n : Nat) : Nat := 0x1000000 + 0x80000 * n + 0x20070
def RX_LAT_TOTAL : Fld := ⟨15, 0⟩
/-- RX_LOCK_LOSS_CNT (R183): address. -/
def RX_LOCK_LOSS_CNT (n : Nat) : Nat := 0x1000000 + 0x80000 * n + 0x20080
def RX_LOCK_LOSS_CNT_CNT : Fld := ⟨31, 0⟩
/-- RX_REPLACE_CNT (R183): address. -/
def RX_REPLACE_CNT (n : Nat) : Nat := 0x1000000 + 0x80000 * n + 0x20084
def RX_REPLACE_CNT_CNT : Fld := ⟨31, 0⟩
/-- RX_ACQ_FAIL_CNT (R183): address. -/
def RX_ACQ_FAIL_CNT (n : Nat) : Nat := 0x1000000 + 0x80000 * n + 0x20088
def RX_ACQ_FAIL_CNT_CNT : Fld := ⟨31, 0⟩
/-- RX_DM_ERR_CNT (R183): address. -/
def RX_DM_ERR_CNT (n : Nat) : Nat := 0x1000000 + 0x80000 * n + 0x2008c
def RX_DM_ERR_CNT_CNT : Fld := ⟨31, 0⟩
/-- RX_EQ_CTL (R182): address. -/
def RX_EQ_CTL (n : Nat) : Nat := 0x1000000 + 0x80000 * n + 0x200a0
def RX_EQ_CTL_SNAP : Fld := ⟨2, 2⟩
def RX_EQ_CTL_RESET : Fld := ⟨1, 1⟩
def RX_EQ_CTL_FREEZE : Fld := ⟨0, 0⟩
/-- RX_EQ_TAP (R182): address. -/
def RX_EQ_TAP (n i j : Nat) : Nat := 0x1000000 + 0x80000 * n + 0x20400 + 0x100 * i + 0x4 * j
def RX_EQ_TAP_Q : Fld := ⟨31, 16⟩
def RX_EQ_TAP_I : Fld := ⟨15, 0⟩
/-- GLO_SEL (R201): address. -/
def GLO_SEL (n : Nat) : Nat := 0x1000000 + 0x80000 * n + 0x30000
def GLO_SEL_RX_PATH : Fld := ⟨30, 28⟩
def GLO_SEL_RX_POWER : Fld := ⟨27, 24⟩
def GLO_SEL_RX_OCC : Fld := ⟨19, 16⟩
def GLO_SEL_TX_PATH : Fld := ⟨14, 12⟩
def GLO_SEL_TX_POWER : Fld := ⟨11, 8⟩
def GLO_SEL_TX_OCC : Fld := ⟨3, 0⟩
/-- GLO_OCC (R202): address. -/
def GLO_OCC (n : Nat) : Nat := 0x1000000 + 0x80000 * n + 0x30004
def GLO_OCC_RX_SEEN : Fld := ⟨31, 28⟩
def GLO_OCC_RX_PAGE : Fld := ⟨26, 16⟩
def GLO_OCC_TX_SEEN : Fld := ⟨15, 12⟩
def GLO_OCC_TX_PAGE : Fld := ⟨10, 0⟩
/-- GLO_STAT (R203): address. -/
def GLO_STAT (n : Nat) : Nat := 0x1000000 + 0x80000 * n + 0x30008
def GLO_STAT_NO_PAGE_RX : Fld := ⟨15, 15⟩
def GLO_STAT_NO_PAGE_TX : Fld := ⟨14, 14⟩
def GLO_STAT_EDGE_DOWN_HI : Fld := ⟨13, 13⟩
def GLO_STAT_EDGE_DOWN_LO : Fld := ⟨12, 12⟩
def GLO_STAT_SAT : Fld := ⟨7, 7⟩
def GLO_STAT_WITHDRAWN : Fld := ⟨6, 6⟩
def GLO_STAT_HINT_NEW : Fld := ⟨5, 5⟩
def GLO_STAT_EDGE_ERR : Fld := ⟨4, 4⟩
def GLO_STAT_WRITE_DISCARDED : Fld := ⟨3, 3⟩
def GLO_STAT_TERM_REFUSED : Fld := ⟨2, 2⟩
def GLO_STAT_PAGE_LOADING : Fld := ⟨1, 1⟩
def GLO_STAT_PAGE_INVALID : Fld := ⟨0, 0⟩
/-- GLO_CFG (R204): address. -/
def GLO_CFG (n : Nat) : Nat := 0x1000000 + 0x80000 * n + 0x3000c
def GLO_CFG_EV_HINT : Fld := ⟨2, 2⟩
def GLO_CFG_EV_RX : Fld := ⟨1, 1⟩
def GLO_CFG_EV_TX : Fld := ⟨0, 0⟩
/-- GLO_ALIGN (R205): address. -/
def GLO_ALIGN (n i j : Nat) : Nat := 0x1000000 + 0x80000 * n + 0x30010 + 0x10 * i + 0x4 * j
def GLO_ALIGN_ALIGN : Fld := ⟨12, 0⟩
/-- GLO_HWOFS (R205): address. -/
def GLO_HWOFS (n i j : Nat) : Nat := 0x1000000 + 0x80000 * n + 0x30030 + 0x10 * i + 0x4 * j
def GLO_HWOFS_VALID : Fld := ⟨31, 31⟩
def GLO_HWOFS_OFS : Fld := ⟨15, 0⟩
/-- GLO_PAGE_CTL (R205): address. -/
def GLO_PAGE_CTL (n : Nat) : Nat := 0x1000000 + 0x80000 * n + 0x30050
def GLO_PAGE_CTL_OPEN : Fld := ⟨31, 31⟩
def GLO_PAGE_CTL_CLOSE : Fld := ⟨30, 30⟩
def GLO_PAGE_CTL_PAGE : Fld := ⟨10, 0⟩
/-- GLO_PAGE_STAT (R205): address. -/
def GLO_PAGE_STAT (n : Nat) : Nat := 0x1000000 + 0x80000 * n + 0x30054
def GLO_PAGE_STAT_IS_OPEN : Fld := ⟨31, 31⟩
def GLO_PAGE_STAT_OPEN_REFUSED : Fld := ⟨16, 16⟩
def GLO_PAGE_STAT_PAGE : Fld := ⟨10, 0⟩
/-- GLO_HINT_TX (R205): address. -/
def GLO_HINT_TX (n : Nat) : Nat := 0x1000000 + 0x80000 * n + 0x30058
def GLO_HINT_TX_PATH : Fld := ⟨14, 12⟩
def GLO_HINT_TX_POWER : Fld := ⟨11, 8⟩
def GLO_HINT_TX_POWER_V : Fld := ⟨2, 2⟩
def GLO_HINT_TX_PATH_V : Fld := ⟨1, 1⟩
/-- GLO_HINT_RX (R205): address. -/
def GLO_HINT_RX (n : Nat) : Nat := 0x1000000 + 0x80000 * n + 0x3005c
def GLO_HINT_RX_VALID : Fld := ⟨31, 31⟩
def GLO_HINT_RX_OCC : Fld := ⟨19, 16⟩
def GLO_HINT_RX_PATH : Fld := ⟨14, 12⟩
def GLO_HINT_RX_POWER : Fld := ⟨11, 8⟩
def GLO_HINT_RX_FLAGS : Fld := ⟨2, 0⟩
/-- GLO_EDGE_ERR_CNT (R205): address. -/
def GLO_EDGE_ERR_CNT (n : Nat) : Nat := 0x1000000 + 0x80000 * n + 0x30060
def GLO_EDGE_ERR_CNT_CNT : Fld := ⟨31, 0⟩
/-- GLO_DISCARD_CNT (R205): address. -/
def GLO_DISCARD_CNT (n : Nat) : Nat := 0x1000000 + 0x80000 * n + 0x30064
def GLO_DISCARD_CNT_CNT : Fld := ⟨31, 0⟩
/-- GLO_SAT_CNT (R205): address. -/
def GLO_SAT_CNT (n : Nat) : Nat := 0x1000000 + 0x80000 * n + 0x30068
def GLO_SAT_CNT_CNT : Fld := ⟨31, 0⟩
/-- GLO_PAGE_VALID (R205): address. -/
def GLO_PAGE_VALID (n i : Nat) : Nat := 0x1000000 + 0x80000 * n + 0x30080 + 0x4 * i
def GLO_PAGE_VALID_VALID : Fld := ⟨31, 0⟩
/-- GLO_TERM (R188): address. -/
def GLO_TERM (n i j : Nat) : Nat := 0x1000000 + 0x80000 * n + 0x30400 + 0x200 * i + 0x4 * j
def GLO_TERM_EN : Fld := ⟨31, 31⟩
def GLO_TERM_SRC_A : Fld := ⟨30, 28⟩
def GLO_TERM_SRC_B : Fld := ⟨27, 25⟩
def GLO_TERM_SRC_C : Fld := ⟨24, 22⟩
def GLO_TERM_POL_A : Fld := ⟨21, 21⟩
def GLO_TERM_POL_B : Fld := ⟨20, 20⟩
def GLO_TERM_POL_C : Fld := ⟨19, 19⟩
def GLO_TERM_SUM : Fld := ⟨18, 18⟩
def GLO_TERM_OFS_A : Fld := ⟨17, 12⟩
def GLO_TERM_OFS_B : Fld := ⟨11, 6⟩
def GLO_TERM_OFS_C : Fld := ⟨5, 0⟩
/-- MON_CTL (R341): address. -/
def MON_CTL (n : Nat) : Nat := 0x1000000 + 0x80000 * n + 0x40000
def MON_CTL_START : Fld := ⟨31, 31⟩
def MON_CTL_STOP : Fld := ⟨30, 30⟩
/-- MON_CFG (R342): address. -/
def MON_CFG (n : Nat) : Nat := 0x1000000 + 0x80000 * n + 0x40004
def MON_CFG_EV : Fld := ⟨31, 31⟩
def MON_CFG_MED : Fld := ⟨18, 16⟩
def MON_CFG_DEC : Fld := ⟨13, 12⟩
def MON_CFG_NT : Fld := ⟨11, 6⟩
def MON_CFG_CIC_R : Fld := ⟨3, 0⟩
/-- MON_STAT (R343): address. -/
def MON_STAT (n : Nat) : Nat := 0x1000000 + 0x80000 * n + 0x40008
def MON_STAT_RUN : Fld := ⟨31, 31⟩
def MON_STAT_LIVE_INV : Fld := ⟨15, 8⟩
def MON_STAT_FIR_SAT : Fld := ⟨1, 1⟩
def MON_STAT_CFG_REFUSED : Fld := ⟨0, 0⟩
/-- MON_GD (R344): address. -/
def MON_GD (n : Nat) : Nat := 0x1000000 + 0x80000 * n + 0x4000c
def MON_GD_GD : Fld := ⟨19, 0⟩
/-- MON_OSNR_CORR (R344): address. -/
def MON_OSNR_CORR (n : Nat) : Nat := 0x1000000 + 0x80000 * n + 0x40010
def MON_OSNR_CORR_CORR : Fld := ⟨15, 0⟩
/-- MON_FINE (R344): address. -/
def MON_FINE (n i : Nat) : Nat := 0x1000000 + 0x80000 * n + 0x40020 + 0x4 * i
def MON_FINE_VALID : Fld := ⟨31, 31⟩
def MON_FINE_OUT : Fld := ⟨19, 0⟩
/-- MON_FINE_CNT (R344): address. -/
def MON_FINE_CNT (n : Nat) : Nat := 0x1000000 + 0x80000 * n + 0x40040
def MON_FINE_CNT_CNT : Fld := ⟨31, 0⟩
/-- MON_COARSE (R344): address. -/
def MON_COARSE (n i : Nat) : Nat := 0x1000000 + 0x80000 * n + 0x40060 + 0x4 * i
def MON_COARSE_VALID : Fld := ⟨31, 31⟩
def MON_COARSE_RAW : Fld := ⟨15, 0⟩
/-- MON_FIR (R344): address. -/
def MON_FIR (n i : Nat) : Nat := 0x1000000 + 0x80000 * n + 0x40100 + 0x4 * i
def MON_FIR_TAP : Fld := ⟨15, 0⟩
/-- CAP_CTL (R118): address. -/
def CAP_CTL (n : Nat) : Nat := 0x1000000 + 0x80000 * n + 0x50000
def CAP_CTL_ARM : Fld := ⟨31, 31⟩
def CAP_CTL_DISARM : Fld := ⟨30, 30⟩
def CAP_CTL_POINT : Fld := ⟨25, 24⟩
def CAP_CTL_TRIG_OUT_EN : Fld := ⟨23, 23⟩
def CAP_CTL_SRC_FAULT : Fld := ⟨22, 22⟩
def CAP_CTL_SRC_TIME : Fld := ⟨21, 21⟩
def CAP_CTL_SRC_PIN : Fld := ⟨20, 20⟩
def CAP_CTL_EDGE : Fld := ⟨19, 19⟩
def CAP_CTL_FAULT_CLASS : Fld := ⟨18, 16⟩
def CAP_CTL_MASK : Fld := ⟨3, 0⟩
/-- CAP_LEN (R111): address. -/
def CAP_LEN (n : Nat) : Nat := 0x1000000 + 0x80000 * n + 0x50004
def CAP_LEN_L : Fld := ⟨20, 0⟩
/-- CAP_POST (R111): address. -/
def CAP_POST (n : Nat) : Nat := 0x1000000 + 0x80000 * n + 0x50008
def CAP_POST_T : Fld := ⟨20, 0⟩
/-- CAP_STAT (R119): address. -/
def CAP_STAT (n : Nat) : Nat := 0x1000000 + 0x80000 * n + 0x5000c
def CAP_STAT_STATE : Fld := ⟨31, 29⟩
def CAP_STAT_PEND : Fld := ⟨28, 28⟩
def CAP_STAT_PEND_SRC : Fld := ⟨27, 26⟩
def CAP_STAT_TRIG_SRC : Fld := ⟨25, 24⟩
def CAP_STAT_SHORT_PRE : Fld := ⟨23, 23⟩
def CAP_STAT_LATE : Fld := ⟨22, 22⟩
def CAP_STAT_ARM_REFUSED : Fld := ⟨21, 21⟩
def CAP_STAT_WPTR : Fld := ⟨20, 0⟩
/-- CAP_TRIG_IDX (R115): address. -/
def CAP_TRIG_IDX (n : Nat) : Nat := 0x1000000 + 0x80000 * n + 0x50010
def CAP_TRIG_IDX_IDX : Fld := ⟨20, 0⟩
/-- CAP_PEND_IDX (R114): address. -/
def CAP_PEND_IDX (n : Nat) : Nat := 0x1000000 + 0x80000 * n + 0x50014
def CAP_PEND_IDX_IDX : Fld := ⟨20, 0⟩
/-- CAP_START (R113): address. -/
def CAP_START (n : Nat) : Nat := 0x1000000 + 0x80000 * n + 0x50018
def CAP_START_IDX : Fld := ⟨20, 0⟩
/-- CAP_COUNT (R113): address. -/
def CAP_COUNT (n : Nat) : Nat := 0x1000000 + 0x80000 * n + 0x5001c
def CAP_COUNT_CNT : Fld := ⟨20, 0⟩
/-- CAP_TRIG_OVERRUN (R114): address. -/
def CAP_TRIG_OVERRUN (n : Nat) : Nat := 0x1000000 + 0x80000 * n + 0x50020
def CAP_TRIG_OVERRUN_CNT : Fld := ⟨31, 0⟩
/-- CAP_TRIG_TIME_LO (R115): address. -/
def CAP_TRIG_TIME_LO (n : Nat) : Nat := 0x1000000 + 0x80000 * n + 0x50028
def CAP_TRIG_TIME_LO_T : Fld := ⟨31, 0⟩
/-- CAP_TRIG_TIME_HI (R115): address. -/
def CAP_TRIG_TIME_HI (n : Nat) : Nat := 0x1000000 + 0x80000 * n + 0x5002c
def CAP_TRIG_TIME_HI_T : Fld := ⟨15, 0⟩
/-- CAP_TSTAMP_LO (R115): address. -/
def CAP_TSTAMP_LO (n : Nat) : Nat := 0x1000000 + 0x80000 * n + 0x50030
def CAP_TSTAMP_LO_TS : Fld := ⟨31, 0⟩
/-- CAP_TSTAMP_HI (R115): address. -/
def CAP_TSTAMP_HI (n : Nat) : Nat := 0x1000000 + 0x80000 * n + 0x50034
def CAP_TSTAMP_HI_TS : Fld := ⟨15, 0⟩
/-- STRIP_MAP (R433): address. -/
def STRIP_MAP (n : Nat) : Nat := 0x1000000 + 0x80000 * n + 0x60000
def STRIP_MAP_RX_EN : Fld := ⟨31, 31⟩
def STRIP_MAP_RX_STRIP : Fld := ⟨19, 16⟩
def STRIP_MAP_TX_EN : Fld := ⟨15, 15⟩
def STRIP_MAP_TX_STRIP : Fld := ⟨3, 0⟩
/-- STRIP_SPARE_STAT (R433): address. -/
def STRIP_SPARE_STAT (n : Nat) : Nat := 0x1000000 + 0x80000 * n + 0x60004
def STRIP_SPARE_STAT_RX_DONE : Fld := ⟨3, 3⟩
def STRIP_SPARE_STAT_RX_PASS : Fld := ⟨2, 2⟩
def STRIP_SPARE_STAT_TX_DONE : Fld := ⟨1, 1⟩
def STRIP_SPARE_STAT_TX_PASS : Fld := ⟨0, 0⟩
/-- EST_CMD (R461): address. -/
def EST_CMD (n : Nat) : Nat := 0x1000000 + 0x80000 * n + 0x60100
def EST_CMD_GO : Fld := ⟨31, 31⟩
def EST_CMD_ABORT : Fld := ⟨30, 30⟩
def EST_CMD_KIND : Fld := ⟨27, 24⟩
def EST_CMD_TESTS : Fld := ⟨23, 20⟩
def EST_CMD_INDEX : Fld := ⟨11, 0⟩
/-- EST_STAT (R462): address. -/
def EST_STAT (n : Nat) : Nat := 0x1000000 + 0x80000 * n + 0x60104
def EST_STAT_BUSY : Fld := ⟨31, 31⟩
def EST_STAT_DONE : Fld := ⟨30, 30⟩
def EST_STAT_RESULT : Fld := ⟨29, 28⟩
def EST_STAT_RETIRE : Fld := ⟨27, 27⟩
def EST_STAT_ERR : Fld := ⟨26, 24⟩
/-- EST_COUNT (R463): address. -/
def EST_COUNT (n : Nat) : Nat := 0x1000000 + 0x80000 * n + 0x60108
def EST_COUNT_COUNT : Fld := ⟨31, 0⟩
/-- EST_EXP_COUNT (R463): address. -/
def EST_EXP_COUNT (n : Nat) : Nat := 0x1000000 + 0x80000 * n + 0x6010c
def EST_EXP_COUNT_COUNT : Fld := ⟨31, 0⟩
/-- EST_SIG_LO (R463): address. -/
def EST_SIG_LO (n : Nat) : Nat := 0x1000000 + 0x80000 * n + 0x60110
def EST_SIG_LO_SIG : Fld := ⟨31, 0⟩
/-- EST_SIG_HI (R463): address. -/
def EST_SIG_HI (n : Nat) : Nat := 0x1000000 + 0x80000 * n + 0x60114
def EST_SIG_HI_SIG : Fld := ⟨31, 0⟩
/-- EST_EXP_SIG_LO (R463): address. -/
def EST_EXP_SIG_LO (n : Nat) : Nat := 0x1000000 + 0x80000 * n + 0x60118
def EST_EXP_SIG_LO_SIG : Fld := ⟨31, 0⟩
/-- EST_EXP_SIG_HI (R463): address. -/
def EST_EXP_SIG_HI (n : Nat) : Nat := 0x1000000 + 0x80000 * n + 0x6011c
def EST_EXP_SIG_HI_SIG : Fld := ⟨31, 0⟩
/-- EST_FAIL_INFO (R463): address. -/
def EST_FAIL_INFO (n : Nat) : Nat := 0x1000000 + 0x80000 * n + 0x60120
def EST_FAIL_INFO_VALID : Fld := ⟨31, 31⟩
def EST_FAIL_INFO_INDEX : Fld := ⟨30, 0⟩
/-- ENG_CNT_CTL (R516): address. -/
def ENG_CNT_CTL (n : Nat) : Nat := 0x1000000 + 0x80000 * n + 0x70000
def ENG_CNT_CTL_SNAP : Fld := ⟨0, 0⟩
/-- ENG_CNT_SEQ (R516): address. -/
def ENG_CNT_SEQ (n : Nat) : Nat := 0x1000000 + 0x80000 * n + 0x70004
def ENG_CNT_SEQ_SEQ : Fld := ⟨31, 0⟩
/-- ENG_CNT_SNAP (R516): address. -/
def ENG_CNT_SNAP (n i : Nat) : Nat := 0x1000000 + 0x80000 * n + 0x70100 + 0x4 * i
def ENG_CNT_SNAP_CNT : Fld := ⟨31, 0⟩
/-- HRN_STAT (R297): address. -/
def HRN_STAT (h : Nat) : Nat := 0x3000000 + 0x100000 * h + 0x0
def HRN_STAT_PORT_BUSY : Fld := ⟨1, 1⟩
def HRN_STAT_PORT_BAD : Fld := ⟨0, 0⟩
/-- PORT_CFG (R292): address. -/
def PORT_CFG (h i : Nat) : Nat := 0x3000000 + 0x100000 * h + 0x100 + 0x4 * i
def PORT_CFG_EN : Fld := ⟨31, 31⟩
def PORT_CFG_TYPE : Fld := ⟨30, 28⟩
def PORT_CFG_NLANES : Fld := ⟨17, 16⟩
def PORT_CFG_GROUP : Fld := ⟨5, 0⟩
/-- PORT_STAT (R293): address. -/
def PORT_STAT (h i : Nat) : Nat := 0x3000000 + 0x100000 * h + 0x200 + 0x4 * i
def PORT_STAT_ALIGNED : Fld := ⟨31, 31⟩
def PORT_STAT_GROUP_UP : Fld := ⟨30, 30⟩
def PORT_STAT_ALIGN_LOST : Fld := ⟨0, 0⟩
/-- LANE_CFG (R294): address. -/
def LANE_CFG (h i : Nat) : Nat := 0x3000000 + 0x100000 * h + 0x1000 + 0x4 * i
def LANE_CFG_EN : Fld := ⟨31, 31⟩
def LANE_CFG_TX_INV : Fld := ⟨9, 9⟩
def LANE_CFG_RX_INV : Fld := ⟨8, 8⟩
/-- LANE_CTL (R295): address. -/
def LANE_CTL (h i : Nat) : Nat := 0x3000000 + 0x100000 * h + 0x1200 + 0x4 * i
def LANE_CTL_CAL_GO : Fld := ⟨31, 31⟩
def LANE_CTL_CAL_ABORT : Fld := ⟨30, 30⟩
def LANE_CTL_POWER : Fld := ⟨9, 8⟩
def LANE_CTL_LOOP : Fld := ⟨1, 0⟩
/-- LANE_STAT (R296): address. -/
def LANE_STAT (h i : Nat) : Nat := 0x3000000 + 0x100000 * h + 0x1300 + 0x4 * i
def LANE_STAT_STATE : Fld := ⟨31, 30⟩
def LANE_STAT_PSTATE : Fld := ⟨29, 28⟩
def LANE_STAT_CAL_BUSY : Fld := ⟨27, 27⟩
def LANE_STAT_CAL_ERR : Fld := ⟨26, 24⟩
def LANE_STAT_INVALID : Fld := ⟨23, 16⟩
def LANE_STAT_EYE_LOW : Fld := ⟨4, 4⟩
def LANE_STAT_TXEQ_BAD : Fld := ⟨3, 3⟩
def LANE_STAT_LOCK_LOST : Fld := ⟨2, 2⟩
def LANE_STAT_CAL_DONE : Fld := ⟨1, 1⟩
def LANE_STAT_CTL_REFUSED : Fld := ⟨0, 0⟩
/-- LANE_TXEQ (R297): address. -/
def LANE_TXEQ (h i : Nat) : Nat := 0x3000000 + 0x100000 * h + 0x1400 + 0x4 * i
def LANE_TXEQ_C_M3 : Fld := ⟨29, 24⟩
def LANE_TXEQ_C_M2 : Fld := ⟨23, 18⟩
def LANE_TXEQ_C_M1 : Fld := ⟨17, 12⟩
def LANE_TXEQ_C_0 : Fld := ⟨11, 6⟩
def LANE_TXEQ_C_P1 : Fld := ⟨5, 0⟩
/-- LANE_EYE (R297): address. -/
def LANE_EYE (h i j : Nat) : Nat := 0x3000000 + 0x100000 * h + 0x2000 + 0x10 * i + 0x4 * j
def LANE_EYE_HEIGHT : Fld := ⟨31, 16⟩
def LANE_EYE_WIDTH : Fld := ⟨15, 0⟩
/-- PCIE_STAT (R302): address. -/
def PCIE_STAT : Nat := 0x3400000
def PCIE_STAT_SPEED : Fld := ⟨31, 28⟩
def PCIE_STAT_WIDTH : Fld := ⟨27, 24⟩
def PCIE_STAT_LINK_UP : Fld := ⟨23, 23⟩
def PCIE_STAT_FLIT : Fld := ⟨22, 22⟩
def PCIE_STAT_DOWN_CNT : Fld := ⟨15, 0⟩
/-- MSIX_TABLE (R300): address. -/
def MSIX_TABLE (i : Nat) : Nat := 0x3408000 + 0x4 * i
def MSIX_TABLE_ENTRY : Fld := ⟨31, 0⟩
/-- MSIX_PBA (R300): address. -/
def MSIX_PBA (i : Nat) : Nat := 0x3409000 + 0x4 * i
def MSIX_PBA_PEND : Fld := ⟨31, 0⟩

/-- The layout of one register word: reset value, implemented bits, and the bits of each access code of R11. -/
structure Lay where
  rst : W
  imp : W
  rw  : W
  w1c : W
  w1s : W
  rc  : W
  deriving DecidableEq, Repr

/-- A row of a block's register table: an offset, two replication counts with their strides, the layout, and whether the row
holds RWS fields, whose active copies lie in the block's active view (R515). -/
structure Row where
  off : Nat
  n1  : Nat
  st1 : Nat
  n2  : Nat
  st2 : Nat
  sh  : Bool
  lay : Lay
  deriving DecidableEq, Repr

/-- Does offset `o` of the block fall on an element of the row? -/
def Row.hit (r : Row) (o : Nat) : Bool :=
  Nat.ble r.off o &&
    (let d := o - r.off
     let a := d / r.st1
     let m := d % r.st1
     Nat.blt a r.n1 && Nat.blt (m / r.st2) r.n2 && Nat.beq (m % r.st2) 0)

/-- Register rows of block ID, part 0. -/
def rowsID_0 : List Row := [
  ⟨0x0, 1, 0x4, 1, 0x4, false, ⟨0x5120b00c#32, 0xffffffff#32, 0x0#32, 0x0#32, 0x0#32, 0x0#32⟩⟩,
  ⟨0x10, 1, 0x4, 1, 0x4, false, ⟨0x0#32, 0x3#32, 0x0#32, 0x3#32, 0x0#32, 0x0#32⟩⟩,
  ⟨0x14, 1, 0x4, 1, 0x4, false, ⟨0x0#32, 0xffffffff#32, 0x0#32, 0x0#32, 0x0#32, 0x0#32⟩⟩,
  ⟨0x18, 1, 0x4, 1, 0x4, false, ⟨0x0#32, 0xffff#32, 0x0#32, 0x0#32, 0x0#32, 0x0#32⟩⟩,
  ⟨0x100, 1, 0x4, 1, 0x4, false, ⟨0x0#32, 0x0#32, 0x0#32, 0x0#32, 0x0#32, 0x0#32⟩⟩,
  ⟨0x104, 1, 0x4, 1, 0x4, false, ⟨0x0#32, 0x1ffffff#32, 0x1ffffff#32, 0x0#32, 0x0#32, 0x0#32⟩⟩,
  ⟨0x108, 1, 0x4, 1, 0x4, false, ⟨0x0#32, 0x1ffffff#32, 0x1ffffff#32, 0x0#32, 0x0#32, 0x0#32⟩⟩,
  ⟨0x10c, 1, 0x4, 1, 0x4, false, ⟨0x0#32, 0xfc07001f#32, 0x0#32, 0x4000000#32, 0x0#32, 0x0#32⟩⟩,
  ⟨0x110, 1, 0x4, 1, 0x4, false, ⟨0x0#32, 0x8ff0007f#32, 0x0#32, 0x0#32, 0x0#32, 0x0#32⟩⟩,
  ⟨0x114, 1, 0x4, 1, 0x4, false, ⟨0x0#32, 0xffffffff#32, 0x0#32, 0x0#32, 0x0#32, 0x0#32⟩⟩,
  ⟨0x118, 1, 0x4, 1, 0x4, false, ⟨0x0#32, 0xffffffff#32, 0x0#32, 0x0#32, 0x0#32, 0x0#32⟩⟩,
  ⟨0x11c, 1, 0x4, 1, 0x4, false, ⟨0x0#32, 0xffffffff#32, 0x0#32, 0x0#32, 0x0#32, 0x0#32⟩⟩,
  ⟨0x120, 1, 0x4, 1, 0x4, false, ⟨0x0#32, 0xfffff#32, 0x0#32, 0x0#32, 0x0#32, 0x0#32⟩⟩,
  ⟨0x200, 1, 0x4, 1, 0x4, false, ⟨0x0#32, 0xfb#32, 0x0#32, 0x3#32, 0x0#32, 0x0#32⟩⟩,
  ⟨0x204, 1, 0x4, 1, 0x4, false, ⟨0x2#32, 0x3#32, 0x3#32, 0x0#32, 0x0#32, 0x0#32⟩⟩,
  ⟨0x208, 1, 0x4, 1, 0x4, false, ⟨0x0#32, 0x0#32, 0x0#32, 0x0#32, 0x0#32, 0x0#32⟩⟩,
  ⟨0x210, 1, 0x4, 1, 0x4, false, ⟨0x0#32, 0xffffffff#32, 0x0#32, 0x0#32, 0x0#32, 0xffffffff#32⟩⟩,
  ⟨0x214, 1, 0x4, 1, 0x4, false, ⟨0x0#32, 0xffffffff#32, 0x0#32, 0x0#32, 0x0#32, 0x0#32⟩⟩,
  ⟨0x218, 1, 0x4, 1, 0x4, false, ⟨0x0#32, 0xffff#32, 0x0#32, 0x0#32, 0x0#32, 0x0#32⟩⟩,
  ⟨0x220, 2, 0x4, 1, 0x4, false, ⟨0x0#32, 0xffffffff#32, 0x0#32, 0x0#32, 0x0#32, 0x0#32⟩⟩,
  ⟨0x240, 36, 0x4, 1, 0x4, false, ⟨0x0#32, 0xffff#32, 0x0#32, 0x0#32, 0x0#32, 0x0#32⟩⟩,
  ⟨0x400, 1, 0x4, 1, 0x4, false, ⟨0x0#32, 0x0#32, 0x0#32, 0x0#32, 0x0#32, 0x0#32⟩⟩,
  ⟨0x404, 1, 0x4, 1, 0x4, false, ⟨0x0#32, 0x870f00ff#32, 0x0#32, 0x0#32, 0x0#32, 0x0#32⟩⟩,
  ⟨0x408, 1, 0x4, 1, 0x4, false, ⟨0x0#32, 0x0#32, 0x0#32, 0x0#32, 0x0#32, 0x0#32⟩⟩]
/-- Register rows of block ID, part 1. -/
def rowsID_1 : List Row := [
  ⟨0x40c, 1, 0x4, 1, 0x4, false, ⟨0x0#32, 0x1#32, 0x0#32, 0x1#32, 0x0#32, 0x0#32⟩⟩,
  ⟨0x410, 3, 0x4, 1, 0x4, false, ⟨0x0#32, 0xffffffff#32, 0xffffffff#32, 0x0#32, 0x0#32, 0x0#32⟩⟩,
  ⟨0x420, 3, 0x4, 1, 0x4, false, ⟨0x0#32, 0xffffffff#32, 0xffffffff#32, 0x0#32, 0x0#32, 0x0#32⟩⟩,
  ⟨0x430, 1, 0x4, 1, 0x4, false, ⟨0x0#32, 0xffffffff#32, 0x0#32, 0x0#32, 0x0#32, 0xffffffff#32⟩⟩,
  ⟨0x434, 1, 0x4, 1, 0x4, false, ⟨0x0#32, 0xffffffff#32, 0x0#32, 0x0#32, 0x0#32, 0xffffffff#32⟩⟩,
  ⟨0x500, 71, 0x4, 1, 0x4, false, ⟨0x88000000#32, 0xff0000ff#32, 0x0#32, 0x0#32, 0x0#32, 0x0#32⟩⟩,
  ⟨0x700, 9, 0x4, 1, 0x4, false, ⟨0x0#32, 0x8000ffff#32, 0x0#32, 0x0#32, 0x0#32, 0x0#32⟩⟩,
  ⟨0x740, 1, 0x4, 1, 0x4, false, ⟨0x64#32, 0xff#32, 0xff#32, 0x0#32, 0x0#32, 0x0#32⟩⟩,
  ⟨0x744, 1, 0x4, 1, 0x4, false, ⟨0x0#32, 0x3#32, 0x0#32, 0x1#32, 0x0#32, 0x0#32⟩⟩]
def rowsID : List Row := rowsID_0 ++ rowsID_1
/-- Register rows of block FC. -/
def rowsFC : List Row := [
  ⟨0x0, 1, 0x4, 1, 0x4, false, ⟨0x0#32, 0x7f#32, 0x0#32, 0x7d#32, 0x0#32, 0x0#32⟩⟩,
  ⟨0x4, 1, 0x4, 1, 0x4, false, ⟨0x1000a#32, 0x1ffff#32, 0x1ffff#32, 0x0#32, 0x0#32, 0x0#32⟩⟩,
  ⟨0x10, 1, 0x4, 1, 0x4, false, ⟨0x0#32, 0xffffffff#32, 0xffffffff#32, 0x0#32, 0x0#32, 0x0#32⟩⟩,
  ⟨0x14, 1, 0x4, 1, 0x4, false, ⟨0x0#32, 0x0#32, 0x0#32, 0x0#32, 0x0#32, 0x0#32⟩⟩,
  ⟨0x20, 1, 0x4, 1, 0x4, false, ⟨0x0#32, 0xffffffff#32, 0x0#32, 0x0#32, 0x0#32, 0x0#32⟩⟩,
  ⟨0x24, 1, 0x4, 1, 0x4, false, ⟨0x0#32, 0xffffffff#32, 0x0#32, 0x0#32, 0x0#32, 0x0#32⟩⟩,
  ⟨0x100, 128, 0x4, 1, 0x4, false, ⟨0x0#32, 0xffffffff#32, 0x0#32, 0x0#32, 0x0#32, 0x0#32⟩⟩,
  ⟨0x1000, 256, 0x10, 4, 0x4, false, ⟨0x0#32, 0xffffffff#32, 0x0#32, 0x0#32, 0x0#32, 0x0#32⟩⟩,
  ⟨0x4000, 4096, 0x4, 1, 0x4, false, ⟨0x719241#32, 0x3f7fffff#32, 0x3f7fffff#32, 0x0#32, 0x0#32, 0x0#32⟩⟩,
  ⟨0x8000, 4096, 0x4, 1, 0x4, false, ⟨0x0#32, 0xfffe1f1f#32, 0x0#32, 0x1f#32, 0x0#32, 0x0#32⟩⟩,
  ⟨0xc000, 4096, 0x4, 1, 0x4, false, ⟨0x0#32, 0xffffffff#32, 0x0#32, 0x0#32, 0x0#32, 0xffffffff#32⟩⟩]
/-- Register rows of block TU, part 0. -/
def rowsTU_0 : List Row := [
  ⟨0x0, 1, 0x4, 1, 0x4, false, ⟨0x0#32, 0x1#32, 0x1#32, 0x0#32, 0x0#32, 0x0#32⟩⟩,
  ⟨0x4, 1, 0x4, 1, 0x4, false, ⟨0x0#32, 0xf80000ff#32, 0x0#32, 0xff#32, 0x0#32, 0x0#32⟩⟩,
  ⟨0x8, 1, 0x4, 1, 0x4, false, ⟨0x0#32, 0xff000000#32, 0xff000000#32, 0x0#32, 0x0#32, 0x0#32⟩⟩,
  ⟨0xc, 1, 0x4, 1, 0x4, false, ⟨0x40000400#32, 0xffffffff#32, 0xffffffff#32, 0x0#32, 0x0#32, 0x0#32⟩⟩,
  ⟨0x10, 1, 0x4, 1, 0x4, false, ⟨0xbb80064#32, 0xffffffff#32, 0xffffffff#32, 0x0#32, 0x0#32, 0x0#32⟩⟩,
  ⟨0x14, 1, 0x4, 1, 0x4, false, ⟨0x140064#32, 0xffffffff#32, 0xffffffff#32, 0x0#32, 0x0#32, 0x0#32⟩⟩,
  ⟨0x18, 1, 0x4, 1, 0x4, false, ⟨0x0#32, 0x0#32, 0x0#32, 0x0#32, 0x0#32, 0x0#32⟩⟩,
  ⟨0x1c, 1, 0x4, 1, 0x4, false, ⟨0x0#32, 0x0#32, 0x0#32, 0x0#32, 0x0#32, 0x0#32⟩⟩,
  ⟨0x20, 1, 0x4, 1, 0x4, false, ⟨0x0#32, 0xffffffff#32, 0x0#32, 0x0#32, 0x0#32, 0x0#32⟩⟩,
  ⟨0x24, 1, 0x4, 1, 0x4, false, ⟨0x0#32, 0xffffffff#32, 0x0#32, 0x0#32, 0x0#32, 0x0#32⟩⟩,
  ⟨0x28, 1, 0x4, 1, 0x4, false, ⟨0x0#32, 0x0#32, 0x0#32, 0x0#32, 0x0#32, 0x0#32⟩⟩,
  ⟨0x2c, 1, 0x4, 1, 0x4, false, ⟨0x0#32, 0x0#32, 0x0#32, 0x0#32, 0x0#32, 0x0#32⟩⟩,
  ⟨0x30, 1, 0x4, 1, 0x4, false, ⟨0x0#32, 0xffffffff#32, 0x0#32, 0x0#32, 0x0#32, 0xffffffff#32⟩⟩,
  ⟨0x34, 1, 0x4, 1, 0x4, false, ⟨0x0#32, 0xffffffff#32, 0x0#32, 0x0#32, 0x0#32, 0xffffffff#32⟩⟩,
  ⟨0x38, 1, 0x4, 1, 0x4, false, ⟨0x0#32, 0xffffffff#32, 0x0#32, 0x0#32, 0x0#32, 0xffffffff#32⟩⟩,
  ⟨0x40, 2, 0x40, 1, 0x40, false, ⟨0x0#32, 0xffffffff#32, 0x0#32, 0x0#32, 0x0#32, 0x0#32⟩⟩,
  ⟨0x44, 2, 0x40, 1, 0x40, false, ⟨0x0#32, 0xffff#32, 0x0#32, 0x0#32, 0x0#32, 0x0#32⟩⟩,
  ⟨0x48, 2, 0x40, 1, 0x40, false, ⟨0x0#32, 0xffffffff#32, 0x0#32, 0x0#32, 0x0#32, 0x0#32⟩⟩,
  ⟨0x4c, 2, 0x40, 1, 0x40, false, ⟨0x0#32, 0xffff#32, 0x0#32, 0x0#32, 0x0#32, 0x0#32⟩⟩,
  ⟨0x50, 2, 0x40, 1, 0x40, false, ⟨0x0#32, 0x3fffffff#32, 0x0#32, 0x0#32, 0x0#32, 0x0#32⟩⟩,
  ⟨0x54, 2, 0x40, 1, 0x40, false, ⟨0x0#32, 0xffffffff#32, 0xffffffff#32, 0x0#32, 0x0#32, 0x0#32⟩⟩,
  ⟨0x58, 2, 0x40, 1, 0x40, false, ⟨0x0#32, 0xffff#32, 0xffff#32, 0x0#32, 0x0#32, 0x0#32⟩⟩,
  ⟨0x5c, 2, 0x40, 1, 0x40, false, ⟨0x0#32, 0xffffffff#32, 0x0#32, 0x0#32, 0x0#32, 0x0#32⟩⟩,
  ⟨0x60, 2, 0x40, 1, 0x40, false, ⟨0x0#32, 0xffffffff#32, 0x0#32, 0x0#32, 0x0#32, 0x0#32⟩⟩]
/-- Register rows of block TU, part 1. -/
def rowsTU_1 : List Row := [
  ⟨0x64, 2, 0x40, 1, 0x40, false, ⟨0x0#32, 0xffff#32, 0x0#32, 0x0#32, 0x0#32, 0x0#32⟩⟩,
  ⟨0x68, 2, 0x40, 1, 0x40, false, ⟨0x0#32, 0xffffffff#32, 0xffffffff#32, 0x0#32, 0x0#32, 0x0#32⟩⟩,
  ⟨0x6c, 2, 0x40, 1, 0x40, false, ⟨0x0#32, 0xff#32, 0xff#32, 0x0#32, 0x0#32, 0x0#32⟩⟩,
  ⟨0xc0, 1, 0x4, 1, 0x4, false, ⟨0x0#32, 0xffffffff#32, 0x0#32, 0x0#32, 0x0#32, 0x0#32⟩⟩,
  ⟨0xc4, 1, 0x4, 1, 0x4, false, ⟨0x0#32, 0xffff#32, 0x0#32, 0x0#32, 0x0#32, 0x0#32⟩⟩,
  ⟨0xd0, 1, 0x4, 1, 0x4, false, ⟨0x186a0#32, 0xe00fffff#32, 0xe00fffff#32, 0x0#32, 0x0#32, 0x0#32⟩⟩,
  ⟨0xd4, 1, 0x4, 1, 0x4, false, ⟨0x0#32, 0xffffffff#32, 0x0#32, 0x0#32, 0x0#32, 0x0#32⟩⟩,
  ⟨0xd8, 1, 0x4, 1, 0x4, false, ⟨0x0#32, 0xffff#32, 0x0#32, 0x0#32, 0x0#32, 0x0#32⟩⟩,
  ⟨0xdc, 1, 0x4, 1, 0x4, false, ⟨0x0#32, 0xffff#32, 0xffff#32, 0x0#32, 0x0#32, 0x0#32⟩⟩,
  ⟨0x1000, 48, 0x20, 1, 0x20, false, ⟨0xc025d78#32, 0xcf03ffff#32, 0xcf03ffff#32, 0x0#32, 0x0#32, 0x0#32⟩⟩,
  ⟨0x1004, 48, 0x20, 1, 0x20, false, ⟨0x0#32, 0xffffff#32, 0xffffff#32, 0x0#32, 0x0#32, 0x0#32⟩⟩,
  ⟨0x1008, 48, 0x20, 1, 0x20, false, ⟨0x0#32, 0xffffffff#32, 0xffffffff#32, 0x0#32, 0x0#32, 0x0#32⟩⟩,
  ⟨0x100c, 48, 0x20, 1, 0x20, false, ⟨0x0#32, 0xffffffff#32, 0x0#32, 0x0#32, 0x0#32, 0x0#32⟩⟩,
  ⟨0x1010, 48, 0x20, 1, 0x20, false, ⟨0x0#32, 0x8000ffff#32, 0x0#32, 0x0#32, 0x0#32, 0x0#32⟩⟩,
  ⟨0x1014, 48, 0x20, 1, 0x20, false, ⟨0x0#32, 0x3#32, 0x0#32, 0x3#32, 0x0#32, 0x0#32⟩⟩,
  ⟨0x2000, 4, 0x100, 1, 0x100, false, ⟨0x0#32, 0x8000003f#32, 0x8000003f#32, 0x0#32, 0x0#32, 0x0#32⟩⟩,
  ⟨0x2004, 4, 0x100, 1, 0x100, false, ⟨0x0#32, 0xffffffff#32, 0xffffffff#32, 0x0#32, 0x0#32, 0x0#32⟩⟩,
  ⟨0x2008, 4, 0x100, 1, 0x100, false, ⟨0x0#32, 0x3f#32, 0x3f#32, 0x0#32, 0x0#32, 0x0#32⟩⟩,
  ⟨0x200c, 4, 0x100, 1, 0x100, false, ⟨0x0#32, 0x3f#32, 0x0#32, 0x0#32, 0x0#32, 0x0#32⟩⟩,
  ⟨0x2010, 4, 0x100, 1, 0x100, false, ⟨0x0#32, 0xffffffff#32, 0xffffffff#32, 0x0#32, 0x0#32, 0x0#32⟩⟩,
  ⟨0x2014, 4, 0x100, 1, 0x100, false, ⟨0x0#32, 0xffffffff#32, 0x0#32, 0x0#32, 0x0#32, 0xffffffff#32⟩⟩,
  ⟨0x2018, 4, 0x100, 1, 0x100, false, ⟨0x0#32, 0xffffffff#32, 0x0#32, 0x0#32, 0x0#32, 0xffffffff#32⟩⟩,
  ⟨0x2020, 4, 0x100, 1, 0x100, false, ⟨0x0#32, 0xffffffff#32, 0xffffffff#32, 0x0#32, 0x0#32, 0x0#32⟩⟩,
  ⟨0x2024, 4, 0x100, 1, 0x100, false, ⟨0x0#32, 0x3f#32, 0x0#32, 0x0#32, 0x0#32, 0x0#32⟩⟩]
/-- Register rows of block TU, part 2. -/
def rowsTU_2 : List Row := [
  ⟨0x2028, 4, 0x100, 1, 0x100, false, ⟨0x0#32, 0x3f#32, 0x3f#32, 0x0#32, 0x0#32, 0x0#32⟩⟩,
  ⟨0x202c, 4, 0x100, 1, 0x100, false, ⟨0x0#32, 0xffffffff#32, 0x0#32, 0x0#32, 0x0#32, 0xffffffff#32⟩⟩,
  ⟨0x3000, 128, 0x4, 1, 0x4, false, ⟨0x0#32, 0xffffffff#32, 0xffffffff#32, 0x0#32, 0x0#32, 0x0#32⟩⟩]
def rowsTU : List Row := rowsTU_0 ++ rowsTU_1 ++ rowsTU_2
/-- Register rows of block CNT. -/
def rowsCNT : List Row := [
  ⟨0x0, 4096, 0x20, 1, 0x20, false, ⟨0x0#32, 0xffffffff#32, 0xffffffff#32, 0x0#32, 0x0#32, 0x0#32⟩⟩,
  ⟨0x4, 4096, 0x20, 1, 0x20, false, ⟨0x0#32, 0xffffffff#32, 0xffffffff#32, 0x0#32, 0x0#32, 0x0#32⟩⟩,
  ⟨0x8, 4096, 0x20, 1, 0x20, false, ⟨0x0#32, 0xffffffff#32, 0xffffffff#32, 0x0#32, 0x0#32, 0x0#32⟩⟩,
  ⟨0x10, 4096, 0x20, 1, 0x20, false, ⟨0x0#32, 0xffff00ff#32, 0xffff00ff#32, 0x0#32, 0x0#32, 0x0#32⟩⟩,
  ⟨0x14, 4096, 0x20, 1, 0x20, false, ⟨0x0#32, 0xffff00ff#32, 0xffff00ff#32, 0x0#32, 0x0#32, 0x0#32⟩⟩,
  ⟨0x18, 4096, 0x20, 1, 0x20, false, ⟨0x1#32, 0xf#32, 0x1#32, 0xe#32, 0x0#32, 0x0#32⟩⟩,
  ⟨0x20000, 1, 0x4, 1, 0x4, false, ⟨0x0#32, 0xf#32, 0x0#32, 0xf#32, 0x0#32, 0x0#32⟩⟩,
  ⟨0x20004, 1, 0x4, 1, 0x4, false, ⟨0x0#32, 0x1#32, 0x1#32, 0x0#32, 0x0#32, 0x0#32⟩⟩,
  ⟨0x20010, 4, 0x4, 1, 0x4, false, ⟨0x0#32, 0x1#32, 0x1#32, 0x0#32, 0x0#32, 0x0#32⟩⟩,
  ⟨0x20020, 2, 0x4, 1, 0x4, false, ⟨0x0#32, 0xffffffff#32, 0xffffffff#32, 0x0#32, 0x0#32, 0x0#32⟩⟩,
  ⟨0x21000, 256, 0x10, 1, 0x10, false, ⟨0x0#32, 0xf8000fff#32, 0xf8000fff#32, 0x0#32, 0x0#32, 0x0#32⟩⟩,
  ⟨0x21004, 256, 0x10, 1, 0x10, false, ⟨0x3e8#32, 0xfffff#32, 0xfffff#32, 0x0#32, 0x0#32, 0x0#32⟩⟩,
  ⟨0x21008, 256, 0x10, 1, 0x10, false, ⟨0x0#32, 0xffffffff#32, 0x0#32, 0x0#32, 0x0#32, 0x0#32⟩⟩,
  ⟨0x2100c, 256, 0x10, 1, 0x10, false, ⟨0x0#32, 0x87ffffff#32, 0x0#32, 0x0#32, 0x0#32, 0x0#32⟩⟩,
  ⟨0x24000, 4096, 0x4, 1, 0x4, false, ⟨0x0#32, 0xffffffff#32, 0x0#32, 0x0#32, 0x0#32, 0xffffffff#32⟩⟩]
/-- Register rows of block MEM, part 0. -/
def rowsMEM_0 : List Row := [
  ⟨0x0, 1, 0x4, 1, 0x4, false, ⟨0x3#32, 0xff#32, 0xff#32, 0x0#32, 0x0#32, 0x0#32⟩⟩,
  ⟨0x4, 1, 0x4, 1, 0x4, false, ⟨0x0#32, 0x1#32, 0x0#32, 0x1#32, 0x0#32, 0x0#32⟩⟩,
  ⟨0x10, 1, 0x4, 1, 0x4, false, ⟨0x0#32, 0xc00000ff#32, 0xff#32, 0x0#32, 0x80000000#32, 0x0#32⟩⟩,
  ⟨0x14, 1, 0x4, 1, 0x4, false, ⟨0x0#32, 0xffffffff#32, 0xffffffff#32, 0x0#32, 0x0#32, 0x0#32⟩⟩,
  ⟨0x18, 1, 0x4, 1, 0x4, false, ⟨0x0#32, 0xffffffff#32, 0xffffffff#32, 0x0#32, 0x0#32, 0x0#32⟩⟩,
  ⟨0x1c, 1, 0x4, 1, 0x4, false, ⟨0x0#32, 0xff#32, 0xff#32, 0x0#32, 0x0#32, 0x0#32⟩⟩,
  ⟨0x20, 1, 0x4, 1, 0x4, false, ⟨0x0#32, 0xffffffc0#32, 0x0#32, 0x0#32, 0x0#32, 0x0#32⟩⟩,
  ⟨0x24, 1, 0x4, 1, 0x4, false, ⟨0x0#32, 0xff#32, 0x0#32, 0x0#32, 0x0#32, 0x0#32⟩⟩,
  ⟨0x28, 1, 0x4, 1, 0x4, false, ⟨0x0#32, 0x3#32, 0x0#32, 0x1#32, 0x0#32, 0x0#32⟩⟩,
  ⟨0x100, 1, 0x4, 1, 0x4, false, ⟨0x40f#32, 0xff0f#32, 0xff0f#32, 0x0#32, 0x0#32, 0x0#32⟩⟩,
  ⟨0x104, 1, 0x4, 1, 0x4, false, ⟨0x0#32, 0x0#32, 0x0#32, 0x0#32, 0x0#32, 0x0#32⟩⟩,
  ⟨0x108, 1, 0x4, 1, 0x4, false, ⟨0x0#32, 0xffffffc0#32, 0xffffffc0#32, 0x0#32, 0x0#32, 0x0#32⟩⟩,
  ⟨0x10c, 1, 0x4, 1, 0x4, false, ⟨0x0#32, 0x80ff3f01#32, 0x0#32, 0x1#32, 0x0#32, 0x0#32⟩⟩,
  ⟨0x800, 64, 0x10, 4, 0x4, false, ⟨0x0#32, 0xffffffff#32, 0x0#32, 0x0#32, 0x0#32, 0x0#32⟩⟩,
  ⟨0x1000, 154, 0x20, 1, 0x20, false, ⟨0x800003e8#32, 0x8000ffff#32, 0x8000ffff#32, 0x0#32, 0x0#32, 0x0#32⟩⟩,
  ⟨0x1004, 154, 0x20, 1, 0x20, false, ⟨0x0#32, 0x1fe3#32, 0x0#32, 0x1f83#32, 0x0#32, 0x0#32⟩⟩,
  ⟨0x1008, 154, 0x20, 1, 0x20, false, ⟨0x0#32, 0xffffffff#32, 0x0#32, 0x0#32, 0x0#32, 0xffffffff#32⟩⟩,
  ⟨0x100c, 154, 0x20, 1, 0x20, false, ⟨0x0#32, 0xffffffff#32, 0x0#32, 0x0#32, 0x0#32, 0xffffffff#32⟩⟩,
  ⟨0x1010, 154, 0x20, 1, 0x20, false, ⟨0x0#32, 0xffffffff#32, 0x0#32, 0x0#32, 0x0#32, 0xffffffff#32⟩⟩,
  ⟨0x1014, 154, 0x20, 1, 0x20, false, ⟨0x0#32, 0xffffffff#32, 0x0#32, 0x0#32, 0x0#32, 0xffffffff#32⟩⟩,
  ⟨0x1018, 154, 0x20, 1, 0x20, false, ⟨0x0#32, 0xffffff#32, 0x0#32, 0x0#32, 0x0#32, 0x0#32⟩⟩,
  ⟨0x101c, 154, 0x20, 1, 0x20, false, ⟨0x0#32, 0x7ff#32, 0x0#32, 0x0#32, 0x0#32, 0x0#32⟩⟩,
  ⟨0x8000, 154, 0x100, 32, 0x8, false, ⟨0x0#32, 0xffffffc0#32, 0x0#32, 0x0#32, 0x0#32, 0x0#32⟩⟩,
  ⟨0x8004, 154, 0x100, 32, 0x8, false, ⟨0x0#32, 0xf800ffff#32, 0x0#32, 0x80000000#32, 0x0#32, 0x0#32⟩⟩]
/-- Register rows of block MEM, part 1. -/
def rowsMEM_1 : List Row := [
  ⟨0x200, 1, 0x4, 1, 0x4, false, ⟨0x0#32, 0x0#32, 0x0#32, 0x0#32, 0x0#32, 0x0#32⟩⟩,
  ⟨0x204, 1, 0x4, 1, 0x4, false, ⟨0x0#32, 0xff000000#32, 0x0#32, 0x0#32, 0x0#32, 0x0#32⟩⟩,
  ⟨0x208, 1, 0x4, 1, 0x4, false, ⟨0x0#32, 0xffffffff#32, 0x0#32, 0x0#32, 0x0#32, 0x0#32⟩⟩,
  ⟨0x20c, 1, 0x4, 1, 0x4, false, ⟨0x0#32, 0xffffffff#32, 0x0#32, 0x0#32, 0x0#32, 0x0#32⟩⟩,
  ⟨0x210, 1, 0x4, 1, 0x4, false, ⟨0x0#32, 0xffffffff#32, 0x0#32, 0x0#32, 0x0#32, 0x0#32⟩⟩,
  ⟨0x214, 1, 0x4, 1, 0x4, false, ⟨0x0#32, 0xffffffff#32, 0x0#32, 0x0#32, 0x0#32, 0x0#32⟩⟩,
  ⟨0x218, 1, 0x4, 1, 0x4, false, ⟨0x0#32, 0xffffffff#32, 0x0#32, 0x0#32, 0x0#32, 0x0#32⟩⟩,
  ⟨0x21c, 1, 0x4, 1, 0x4, false, ⟨0x0#32, 0xffffffff#32, 0x0#32, 0x0#32, 0x0#32, 0x0#32⟩⟩,
  ⟨0x220, 1, 0x4, 1, 0x4, false, ⟨0x0#32, 0xffffffff#32, 0x0#32, 0x0#32, 0x0#32, 0x0#32⟩⟩,
  ⟨0x240, 1, 0x4, 1, 0x4, false, ⟨0x10e#32, 0xf0f#32, 0xf0f#32, 0x0#32, 0x0#32, 0x0#32⟩⟩,
  ⟨0x250, 1, 0x4, 1, 0x4, false, ⟨0x0#32, 0x3fffff#32, 0x0#32, 0x0#32, 0x0#32, 0x0#32⟩⟩,
  ⟨0x254, 1, 0x4, 1, 0x4, false, ⟨0x0#32, 0x3fffff#32, 0x0#32, 0x0#32, 0x0#32, 0x0#32⟩⟩,
  ⟨0x260, 3, 0x4, 1, 0x4, false, ⟨0x0#32, 0xffffffff#32, 0x0#32, 0x0#32, 0x0#32, 0x0#32⟩⟩]
def rowsMEM : List Row := rowsMEM_0 ++ rowsMEM_1
/-- Register rows of block HIVE. -/
def rowsHIVE : List Row := [
  ⟨0x0, 56, 0x10, 1, 0x10, false, ⟨0x0#32, 0x0#32, 0x0#32, 0x0#32, 0x0#32, 0x0#32⟩⟩,
  ⟨0x4, 56, 0x10, 1, 0x10, false, ⟨0x0#32, 0xff000000#32, 0x0#32, 0x1000000#32, 0x0#32, 0x0#32⟩⟩,
  ⟨0x8, 56, 0x10, 1, 0x10, false, ⟨0x0#32, 0xffffffff#32, 0x0#32, 0x0#32, 0x0#32, 0x0#32⟩⟩,
  ⟨0xc, 56, 0x10, 1, 0x10, false, ⟨0x0#32, 0xffffffff#32, 0x0#32, 0x0#32, 0x0#32, 0x0#32⟩⟩,
  ⟨0x1000, 57, 0x20, 1, 0x20, false, ⟨0x0#32, 0x7f#32, 0x7f#32, 0x0#32, 0x0#32, 0x0#32⟩⟩,
  ⟨0x1004, 57, 0x20, 1, 0x20, false, ⟨0x0#32, 0x7f#32, 0x0#32, 0x0#32, 0x0#32, 0x0#32⟩⟩,
  ⟨0x1008, 57, 0x20, 1, 0x20, false, ⟨0x0#32, 0x7f#32, 0x0#32, 0x0#32, 0x0#32, 0x0#32⟩⟩,
  ⟨0x100c, 57, 0x20, 1, 0x20, false, ⟨0x0#32, 0x7f#32, 0x7f#32, 0x0#32, 0x0#32, 0x0#32⟩⟩,
  ⟨0x1010, 57, 0x20, 1, 0x20, false, ⟨0x1#32, 0x1#32, 0x1#32, 0x0#32, 0x0#32, 0x0#32⟩⟩,
  ⟨0x1014, 57, 0x20, 1, 0x20, false, ⟨0x0#32, 0x1#32, 0x0#32, 0x1#32, 0x0#32, 0x0#32⟩⟩]
/-- Register rows of block POOL. -/
def rowsPOOL : List Row := [
  ⟨0x0, 1, 0x4, 1, 0x4, false, ⟨0x5800#32, 0x3fffff3f#32, 0x0#32, 0x3e#32, 0x0#32, 0x0#32⟩⟩,
  ⟨0x10, 1, 0x4, 1, 0x4, false, ⟨0x0#32, 0x7f007f#32, 0x7f007f#32, 0x0#32, 0x0#32, 0x0#32⟩⟩,
  ⟨0x14, 1, 0x4, 1, 0x4, false, ⟨0x0#32, 0xff001fff#32, 0x0#32, 0x0#32, 0x0#32, 0x0#32⟩⟩,
  ⟨0x100, 88, 0x4, 1, 0x4, false, ⟨0x0#32, 0xe03f0000#32, 0x0#32, 0x0#32, 0x0#32, 0x0#32⟩⟩,
  ⟨0x1000, 48, 0x4, 1, 0x4, true, ⟨0x0#32, 0xc07f7f7f#32, 0xc07f7f7f#32, 0x0#32, 0x0#32, 0x0#32⟩⟩,
  ⟨0x1100, 48, 0x4, 1, 0x4, true, ⟨0x0#32, 0x3#32, 0x3#32, 0x0#32, 0x0#32, 0x0#32⟩⟩,
  ⟨0x2000, 48, 0x40, 1, 0x40, false, ⟨0x0#32, 0x27#32, 0x0#32, 0x7#32, 0x0#32, 0x0#32⟩⟩,
  ⟨0x2004, 48, 0x40, 1, 0x40, false, ⟨0x0#32, 0xffff#32, 0xffff#32, 0x0#32, 0x0#32, 0x0#32⟩⟩,
  ⟨0x2008, 48, 0x40, 1, 0x40, false, ⟨0xffff#32, 0xffff#32, 0x0#32, 0x0#32, 0x0#32, 0x0#32⟩⟩,
  ⟨0x2010, 48, 0x40, 1, 0x40, false, ⟨0x0#32, 0xffffffff#32, 0x0#32, 0x0#32, 0x0#32, 0xffffffff#32⟩⟩,
  ⟨0x2014, 48, 0x40, 1, 0x40, false, ⟨0x0#32, 0xffffffff#32, 0x0#32, 0x0#32, 0x0#32, 0x0#32⟩⟩,
  ⟨0x2018, 48, 0x40, 1, 0x40, false, ⟨0x0#32, 0xffffffff#32, 0x0#32, 0x0#32, 0x0#32, 0xffffffff#32⟩⟩,
  ⟨0x201c, 48, 0x40, 1, 0x40, false, ⟨0x0#32, 0xffffffff#32, 0x0#32, 0x0#32, 0x0#32, 0x0#32⟩⟩,
  ⟨0x2020, 48, 0x40, 1, 0x40, false, ⟨0x0#32, 0xffffffff#32, 0x0#32, 0x0#32, 0x0#32, 0xffffffff#32⟩⟩,
  ⟨0x2024, 48, 0x40, 1, 0x40, false, ⟨0x0#32, 0xffffffff#32, 0x0#32, 0x0#32, 0x0#32, 0xffffffff#32⟩⟩,
  ⟨0x2028, 48, 0x40, 1, 0x40, false, ⟨0x0#32, 0xffffffff#32, 0x0#32, 0x0#32, 0x0#32, 0xffffffff#32⟩⟩,
  ⟨0x202c, 48, 0x40, 1, 0x40, false, ⟨0x0#32, 0xffffffff#32, 0x0#32, 0x0#32, 0x0#32, 0xffffffff#32⟩⟩]
/-- Register rows of block CLI. -/
def rowsCLI : List Row := [
  ⟨0x0, 1, 0x4, 1, 0x4, false, ⟨0x0#32, 0x0#32, 0x0#32, 0x0#32, 0x0#32, 0x0#32⟩⟩,
  ⟨0x4, 1, 0x4, 1, 0x4, false, ⟨0x0#32, 0x3f0003ff#32, 0x0#32, 0x3ff#32, 0x0#32, 0x0#32⟩⟩,
  ⟨0x8, 1, 0x4, 1, 0x4, false, ⟨0x0#32, 0xf#32, 0x0#32, 0x0#32, 0x0#32, 0x0#32⟩⟩,
  ⟨0x8000, 4096, 0x20, 1, 0x20, false, ⟨0x0#32, 0x38ffffff#32, 0x38ffffff#32, 0x0#32, 0x0#32, 0x0#32⟩⟩,
  ⟨0x8004, 4096, 0x20, 1, 0x20, false, ⟨0x0#32, 0x1ff01ff#32, 0x1ff01ff#32, 0x0#32, 0x0#32, 0x0#32⟩⟩,
  ⟨0x8008, 4096, 0x20, 1, 0x20, false, ⟨0xc80#32, 0x1fff#32, 0x1fff#32, 0x0#32, 0x0#32, 0x0#32⟩⟩,
  ⟨0x800c, 4096, 0x20, 1, 0x20, false, ⟨0x0#32, 0xe0000007#32, 0x0#32, 0x7#32, 0x0#32, 0x0#32⟩⟩,
  ⟨0x8010, 4096, 0x20, 1, 0x20, false, ⟨0x0#32, 0xffffff#32, 0x0#32, 0x0#32, 0x0#32, 0x0#32⟩⟩,
  ⟨0x8014, 4096, 0x20, 1, 0x20, false, ⟨0x0#32, 0xffffff#32, 0x0#32, 0x0#32, 0x0#32, 0x0#32⟩⟩,
  ⟨0x8018, 4096, 0x20, 1, 0x20, false, ⟨0x0#32, 0xffffffff#32, 0x0#32, 0x0#32, 0x0#32, 0xffffffff#32⟩⟩,
  ⟨0x801c, 4096, 0x20, 1, 0x20, false, ⟨0x0#32, 0xffffffff#32, 0x0#32, 0x0#32, 0x0#32, 0xffffffff#32⟩⟩,
  ⟨0x30000, 48, 0x800, 320, 0x4, true, ⟨0x0#32, 0xc0000fff#32, 0xc0000fff#32, 0x0#32, 0x0#32, 0x0#32⟩⟩,
  ⟨0x48000, 48, 0x800, 320, 0x4, true, ⟨0x0#32, 0xc0000fff#32, 0xc0000fff#32, 0x0#32, 0x0#32, 0x0#32⟩⟩]
/-- Register rows of block ENG0. -/
def rowsENG0 : List Row := [
  ⟨0x0, 1, 0x4, 1, 0x4, false, ⟨0x0#32, 0x73f#32, 0x0#32, 0x0#32, 0x0#32, 0x0#32⟩⟩,
  ⟨0x40, 1, 0x4, 1, 0x4, false, ⟨0x0#32, 0x0#32, 0x0#32, 0x0#32, 0x0#32, 0x0#32⟩⟩,
  ⟨0x44, 1, 0x4, 1, 0x4, false, ⟨0x0#32, 0xffffff#32, 0xffffff#32, 0x0#32, 0x0#32, 0x0#32⟩⟩,
  ⟨0x48, 1, 0x4, 1, 0x4, false, ⟨0x0#32, 0x7fff#32, 0x0#32, 0x0#32, 0x0#32, 0x0#32⟩⟩,
  ⟨0x4c, 1, 0x4, 1, 0x4, false, ⟨0x0#32, 0xffff007f#32, 0x0#32, 0x7f#32, 0x0#32, 0x0#32⟩⟩,
  ⟨0x50, 1, 0x4, 1, 0x4, true, ⟨0x0#32, 0xff#32, 0xff#32, 0x0#32, 0x0#32, 0x0#32⟩⟩,
  ⟨0x54, 1, 0x4, 1, 0x4, false, ⟨0x0#32, 0xffffe#32, 0x0#32, 0x3e#32, 0x0#32, 0x0#32⟩⟩,
  ⟨0x60, 1, 0x4, 1, 0x4, false, ⟨0x0#32, 0xf7fff#32, 0xf7fff#32, 0x0#32, 0x0#32, 0x0#32⟩⟩,
  ⟨0x64, 1, 0x4, 1, 0x4, false, ⟨0x0#32, 0xffffff#32, 0xffffff#32, 0x0#32, 0x0#32, 0x0#32⟩⟩,
  ⟨0x68, 1, 0x4, 1, 0x4, false, ⟨0x0#32, 0x7ffff#32, 0x0#32, 0x0#32, 0x0#32, 0x0#32⟩⟩,
  ⟨0x6c, 1, 0x4, 1, 0x4, false, ⟨0x0#32, 0xcfffffff#32, 0x0#32, 0x0#32, 0x0#32, 0x0#32⟩⟩,
  ⟨0x70, 1, 0x4, 1, 0x4, false, ⟨0x0#32, 0xffffff#32, 0x0#32, 0x0#32, 0x0#32, 0x0#32⟩⟩,
  ⟨0x74, 1, 0x4, 1, 0x4, false, ⟨0x0#32, 0x0#32, 0x0#32, 0x0#32, 0x0#32, 0x0#32⟩⟩,
  ⟨0x78, 1, 0x4, 1, 0x4, false, ⟨0x0#32, 0x7ffff#32, 0x0#32, 0x0#32, 0x0#32, 0x0#32⟩⟩,
  ⟨0x80, 1, 0x4, 1, 0x4, false, ⟨0x0#32, 0xffffff#32, 0x0#32, 0x0#32, 0x0#32, 0x0#32⟩⟩,
  ⟨0x84, 1, 0x4, 1, 0x4, false, ⟨0x0#32, 0xffffff#32, 0x0#32, 0x0#32, 0x0#32, 0x0#32⟩⟩,
  ⟨0x88, 1, 0x4, 1, 0x4, false, ⟨0x0#32, 0x80ffffff#32, 0x0#32, 0x0#32, 0x0#32, 0x0#32⟩⟩,
  ⟨0x100, 16, 0x10, 1, 0x10, false, ⟨0x0#32, 0xfffc1fff#32, 0xfffc1fff#32, 0x0#32, 0x0#32, 0x0#32⟩⟩,
  ⟨0x104, 16, 0x10, 1, 0x10, false, ⟨0x0#32, 0x1ff#32, 0x1ff#32, 0x0#32, 0x0#32, 0x0#32⟩⟩,
  ⟨0x108, 16, 0x10, 1, 0x10, false, ⟨0x0#32, 0xffffff#32, 0xffffff#32, 0x0#32, 0x0#32, 0x0#32⟩⟩]
/-- Register rows of block ENG1. -/
def rowsENG1 : List Row := [
  ⟨0x0, 1, 0x4, 1, 0x4, false, ⟨0x0#32, 0x1ff#32, 0x1ff#32, 0x0#32, 0x0#32, 0x0#32⟩⟩,
  ⟨0x4, 1, 0x4, 1, 0x4, false, ⟨0x0#32, 0xff#32, 0x0#32, 0xf#32, 0x0#32, 0x0#32⟩⟩,
  ⟨0x8, 1, 0x4, 1, 0x4, false, ⟨0x0#32, 0x3#32, 0x0#32, 0x3#32, 0x0#32, 0x0#32⟩⟩,
  ⟨0x10, 4, 0x4, 1, 0x4, false, ⟨0x0#32, 0xffffffff#32, 0x0#32, 0x0#32, 0x0#32, 0xffffffff#32⟩⟩,
  ⟨0x20, 4, 0x4, 1, 0x4, true, ⟨0x0#32, 0xbfbfbfbf#32, 0xbfbfbfbf#32, 0x0#32, 0x0#32, 0x0#32⟩⟩,
  ⟨0x30, 4, 0x4, 1, 0x4, true, ⟨0x0#32, 0x9f9f#32, 0x9f9f#32, 0x0#32, 0x0#32, 0x0#32⟩⟩,
  ⟨0x40, 1, 0x4, 1, 0x4, false, ⟨0xf#32, 0x3f#32, 0x3f#32, 0x0#32, 0x0#32, 0x0#32⟩⟩,
  ⟨0x44, 1, 0x4, 1, 0x4, false, ⟨0x0#32, 0xc00f0f0f#32, 0x0#32, 0x0#32, 0x0#32, 0x0#32⟩⟩,
  ⟨0x48, 1, 0x4, 1, 0x4, false, ⟨0x780000#32, 0xffffff#32, 0xffffff#32, 0x0#32, 0x0#32, 0x0#32⟩⟩,
  ⟨0x50, 4, 0x4, 1, 0x4, false, ⟨0x0#32, 0xffff#32, 0x0#32, 0x0#32, 0x0#32, 0x0#32⟩⟩,
  ⟨0x60, 4, 0x4, 1, 0x4, true, ⟨0x40000000#32, 0xffffffff#32, 0xffffffff#32, 0x0#32, 0x0#32, 0x0#32⟩⟩,
  ⟨0x70, 2, 0x4, 1, 0x4, false, ⟨0x0#32, 0xffffffff#32, 0x0#32, 0x0#32, 0x0#32, 0x0#32⟩⟩,
  ⟨0x80, 4, 0x8, 2, 0x4, false, ⟨0x0#32, 0xffffffff#32, 0x0#32, 0x0#32, 0x0#32, 0x0#32⟩⟩,
  ⟨0x400, 4, 0x100, 64, 0x4, true, ⟨0x40000000#32, 0xffffffff#32, 0xffffffff#32, 0x0#32, 0x0#32, 0x0#32⟩⟩]
/-- Register rows of block ENG2. -/
def rowsENG2 : List Row := [
  ⟨0x0, 1, 0x4, 1, 0x4, false, ⟨0x0#32, 0x1#32, 0x1#32, 0x0#32, 0x0#32, 0x0#32⟩⟩,
  ⟨0x4, 1, 0x4, 1, 0x4, false, ⟨0x0#32, 0x8fff#32, 0x0#32, 0xff#32, 0x0#32, 0x0#32⟩⟩,
  ⟨0x8, 1, 0x4, 1, 0x4, true, ⟨0x3200#32, 0xff0f#32, 0xff0f#32, 0x0#32, 0x0#32, 0x0#32⟩⟩,
  ⟨0xc, 1, 0x4, 1, 0x4, true, ⟨0x20#32, 0x3f#32, 0x3f#32, 0x0#32, 0x0#32, 0x0#32⟩⟩,
  ⟨0x10, 4, 0x4, 1, 0x4, true, ⟨0x2000#32, 0xffff#32, 0xffff#32, 0x0#32, 0x0#32, 0x0#32⟩⟩,
  ⟨0x20, 4, 0x4, 1, 0x4, true, ⟨0x0#32, 0xffff#32, 0xffff#32, 0x0#32, 0x0#32, 0x0#32⟩⟩,
  ⟨0x30, 4, 0x4, 1, 0x4, false, ⟨0x0#32, 0xffffffff#32, 0x0#32, 0x0#32, 0x0#32, 0xffffffff#32⟩⟩,
  ⟨0x40, 1, 0x4, 1, 0x4, false, ⟨0x2e9#32, 0xffff#32, 0x0#32, 0x0#32, 0x0#32, 0x0#32⟩⟩,
  ⟨0x100, 4, 0x40, 9, 0x4, true, ⟨0x0#32, 0xffff#32, 0xffff#32, 0x0#32, 0x0#32, 0x0#32⟩⟩,
  ⟨0x400, 4, 0x100, 34, 0x4, true, ⟨0x0#32, 0xfff00ff#32, 0xfff00ff#32, 0x0#32, 0x0#32, 0x0#32⟩⟩]
/-- Register rows of block ENG3, part 0. -/
def rowsENG3_0 : List Row := [
  ⟨0x0, 1, 0x4, 1, 0x4, false, ⟨0x0#32, 0x1#32, 0x1#32, 0x0#32, 0x0#32, 0x0#32⟩⟩,
  ⟨0x4, 1, 0x4, 1, 0x4, false, ⟨0x0#32, 0xffffc0ff#32, 0x0#32, 0xff#32, 0x0#32, 0x0#32⟩⟩,
  ⟨0x8, 1, 0x4, 1, 0x4, true, ⟨0x3200#32, 0xff33#32, 0xff33#32, 0x0#32, 0x0#32, 0x0#32⟩⟩,
  ⟨0xc, 1, 0x4, 1, 0x4, true, ⟨0x40#32, 0x7f#32, 0x7f#32, 0x0#32, 0x0#32, 0x0#32⟩⟩,
  ⟨0x10, 1, 0x4, 1, 0x4, true, ⟨0x0#32, 0xffffff#32, 0xffffff#32, 0x0#32, 0x0#32, 0x0#32⟩⟩,
  ⟨0x14, 1, 0x4, 1, 0x4, true, ⟨0x25d78#32, 0x3ffff#32, 0x3ffff#32, 0x0#32, 0x0#32, 0x0#32⟩⟩,
  ⟨0x18, 1, 0x4, 1, 0x4, true, ⟨0x641f#32, 0xff3f#32, 0xff3f#32, 0x0#32, 0x0#32, 0x0#32⟩⟩,
  ⟨0x1c, 1, 0x4, 1, 0x4, true, ⟨0x100104#32, 0xff030f#32, 0xff030f#32, 0x0#32, 0x0#32, 0x0#32⟩⟩,
  ⟨0x20, 1, 0x4, 1, 0x4, true, ⟨0x20#32, 0xff#32, 0xff#32, 0x0#32, 0x0#32, 0x0#32⟩⟩,
  ⟨0x24, 2, 0x4, 1, 0x4, true, ⟨0x4000000#32, 0xfffffff#32, 0xfffffff#32, 0x0#32, 0x0#32, 0x0#32⟩⟩,
  ⟨0x30, 1, 0x4, 1, 0x4, false, ⟨0xf63c0064#32, 0xffffffff#32, 0xffffffff#32, 0x0#32, 0x0#32, 0x0#32⟩⟩,
  ⟨0x34, 1, 0x4, 1, 0x4, false, ⟨0x3c001418#32, 0xff00ff3f#32, 0xff00ff3f#32, 0x0#32, 0x0#32, 0x0#32⟩⟩,
  ⟨0x38, 1, 0x4, 1, 0x4, false, ⟨0x7d001f4#32, 0xffffffff#32, 0xffffffff#32, 0x0#32, 0x0#32, 0x0#32⟩⟩,
  ⟨0x40, 1, 0x4, 1, 0x4, false, ⟨0x3c0014#32, 0xfff0fff#32, 0xfff0fff#32, 0x0#32, 0x0#32, 0x0#32⟩⟩,
  ⟨0x44, 1, 0x4, 1, 0x4, false, ⟨0x0#32, 0xffffff#32, 0xffffff#32, 0x0#32, 0x0#32, 0x0#32⟩⟩,
  ⟨0x48, 1, 0x4, 1, 0x4, false, ⟨0x0#32, 0x80ffffff#32, 0x0#32, 0x0#32, 0x0#32, 0x0#32⟩⟩,
  ⟨0x50, 1, 0x4, 1, 0x4, false, ⟨0x30020a#32, 0xffffffff#32, 0xffffffff#32, 0x0#32, 0x0#32, 0x0#32⟩⟩,
  ⟨0x54, 1, 0x4, 1, 0x4, false, ⟨0x0#32, 0x8000ffff#32, 0x0#32, 0x0#32, 0x0#32, 0x0#32⟩⟩,
  ⟨0x60, 1, 0x4, 1, 0x4, false, ⟨0x0#32, 0x80ffffff#32, 0x0#32, 0x0#32, 0x0#32, 0x0#32⟩⟩,
  ⟨0x64, 1, 0x4, 1, 0x4, false, ⟨0x0#32, 0xffff#32, 0x0#32, 0x0#32, 0x0#32, 0x0#32⟩⟩,
  ⟨0x68, 1, 0x4, 1, 0x4, false, ⟨0x0#32, 0xffff#32, 0x0#32, 0x0#32, 0x0#32, 0x0#32⟩⟩,
  ⟨0x70, 1, 0x4, 1, 0x4, false, ⟨0x12cc#32, 0xffff#32, 0x0#32, 0x0#32, 0x0#32, 0x0#32⟩⟩,
  ⟨0x80, 1, 0x4, 1, 0x4, false, ⟨0x0#32, 0xffffffff#32, 0x0#32, 0x0#32, 0x0#32, 0xffffffff#32⟩⟩,
  ⟨0x84, 1, 0x4, 1, 0x4, false, ⟨0x0#32, 0xffffffff#32, 0x0#32, 0x0#32, 0x0#32, 0xffffffff#32⟩⟩]
/-- Register rows of block ENG3, part 1. -/
def rowsENG3_1 : List Row := [
  ⟨0x88, 1, 0x4, 1, 0x4, false, ⟨0x0#32, 0xffffffff#32, 0x0#32, 0x0#32, 0x0#32, 0xffffffff#32⟩⟩,
  ⟨0x8c, 1, 0x4, 1, 0x4, false, ⟨0x0#32, 0xffffffff#32, 0x0#32, 0x0#32, 0x0#32, 0xffffffff#32⟩⟩,
  ⟨0xa0, 1, 0x4, 1, 0x4, false, ⟨0x0#32, 0x1#32, 0x1#32, 0x0#32, 0x0#32, 0x0#32⟩⟩,
  ⟨0x400, 4, 0x100, 63, 0x4, false, ⟨0x0#32, 0xffffffff#32, 0x0#32, 0x0#32, 0x0#32, 0x0#32⟩⟩]
def rowsENG3 : List Row := rowsENG3_0 ++ rowsENG3_1
/-- Register rows of block ENG4. -/
def rowsENG4 : List Row := [
  ⟨0x0, 1, 0x4, 1, 0x4, true, ⟨0x0#32, 0x7f0f7f0f#32, 0x7f0f7f0f#32, 0x0#32, 0x0#32, 0x0#32⟩⟩,
  ⟨0x4, 1, 0x4, 1, 0x4, false, ⟨0x0#32, 0xf7fff7ff#32, 0x0#32, 0x0#32, 0x0#32, 0x0#32⟩⟩,
  ⟨0x8, 1, 0x4, 1, 0x4, false, ⟨0x0#32, 0xf0ff#32, 0x0#32, 0xff#32, 0x0#32, 0x0#32⟩⟩,
  ⟨0xc, 1, 0x4, 1, 0x4, false, ⟨0x3#32, 0x7#32, 0x7#32, 0x0#32, 0x0#32, 0x0#32⟩⟩,
  ⟨0x10, 2, 0x10, 4, 0x4, true, ⟨0x0#32, 0x1fff#32, 0x1fff#32, 0x0#32, 0x0#32, 0x0#32⟩⟩,
  ⟨0x30, 2, 0x10, 4, 0x4, false, ⟨0x0#32, 0x8000ffff#32, 0x0#32, 0x0#32, 0x0#32, 0x0#32⟩⟩,
  ⟨0x50, 1, 0x4, 1, 0x4, false, ⟨0x0#32, 0x7ff#32, 0x7ff#32, 0x0#32, 0x0#32, 0x0#32⟩⟩,
  ⟨0x54, 1, 0x4, 1, 0x4, false, ⟨0x0#32, 0x800107ff#32, 0x0#32, 0x10000#32, 0x0#32, 0x0#32⟩⟩,
  ⟨0x58, 1, 0x4, 1, 0x4, false, ⟨0x0#32, 0x7f06#32, 0x7f06#32, 0x0#32, 0x0#32, 0x0#32⟩⟩,
  ⟨0x5c, 1, 0x4, 1, 0x4, false, ⟨0x0#32, 0x800f7f07#32, 0x0#32, 0x0#32, 0x0#32, 0x0#32⟩⟩,
  ⟨0x60, 1, 0x4, 1, 0x4, false, ⟨0x0#32, 0xffffffff#32, 0x0#32, 0x0#32, 0x0#32, 0xffffffff#32⟩⟩,
  ⟨0x64, 1, 0x4, 1, 0x4, false, ⟨0x0#32, 0xffffffff#32, 0x0#32, 0x0#32, 0x0#32, 0xffffffff#32⟩⟩,
  ⟨0x68, 1, 0x4, 1, 0x4, false, ⟨0x0#32, 0xffffffff#32, 0x0#32, 0x0#32, 0x0#32, 0xffffffff#32⟩⟩,
  ⟨0x80, 64, 0x4, 1, 0x4, false, ⟨0x0#32, 0xffffffff#32, 0x0#32, 0x0#32, 0x0#32, 0x0#32⟩⟩,
  ⟨0x400, 2, 0x200, 128, 0x4, false, ⟨0x0#32, 0xffffffff#32, 0xffffffff#32, 0x0#32, 0x0#32, 0x0#32⟩⟩]
/-- Register rows of block ENG5. -/
def rowsENG5 : List Row := [
  ⟨0x0, 1, 0x4, 1, 0x4, false, ⟨0x0#32, 0x0#32, 0x0#32, 0x0#32, 0x0#32, 0x0#32⟩⟩,
  ⟨0x4, 1, 0x4, 1, 0x4, false, ⟨0x4a#32, 0x80073fcf#32, 0x80073fcf#32, 0x0#32, 0x0#32, 0x0#32⟩⟩,
  ⟨0x8, 1, 0x4, 1, 0x4, false, ⟨0x0#32, 0x8000ff03#32, 0x0#32, 0x3#32, 0x0#32, 0x0#32⟩⟩,
  ⟨0xc, 1, 0x4, 1, 0x4, false, ⟨0x140b#32, 0xfffff#32, 0x0#32, 0x0#32, 0x0#32, 0x0#32⟩⟩,
  ⟨0x10, 1, 0x4, 1, 0x4, false, ⟨0x0#32, 0xffff#32, 0xffff#32, 0x0#32, 0x0#32, 0x0#32⟩⟩,
  ⟨0x20, 8, 0x4, 1, 0x4, false, ⟨0x0#32, 0x800fffff#32, 0x0#32, 0x0#32, 0x0#32, 0x0#32⟩⟩,
  ⟨0x40, 1, 0x4, 1, 0x4, false, ⟨0x0#32, 0xffffffff#32, 0x0#32, 0x0#32, 0x0#32, 0x0#32⟩⟩,
  ⟨0x60, 8, 0x4, 1, 0x4, false, ⟨0x0#32, 0x8000ffff#32, 0x0#32, 0x0#32, 0x0#32, 0x0#32⟩⟩,
  ⟨0x100, 63, 0x4, 1, 0x4, false, ⟨0x0#32, 0xffff#32, 0xffff#32, 0x0#32, 0x0#32, 0x0#32⟩⟩]
/-- Register rows of block ENG6. -/
def rowsENG6 : List Row := [
  ⟨0x0, 1, 0x4, 1, 0x4, false, ⟨0x2000f#32, 0x3ff000f#32, 0x3ff000f#32, 0x0#32, 0x0#32, 0x0#32⟩⟩,
  ⟨0x4, 1, 0x4, 1, 0x4, false, ⟨0x0#32, 0x1fffff#32, 0x1fffff#32, 0x0#32, 0x0#32, 0x0#32⟩⟩,
  ⟨0x8, 1, 0x4, 1, 0x4, false, ⟨0x0#32, 0x1fffff#32, 0x1fffff#32, 0x0#32, 0x0#32, 0x0#32⟩⟩,
  ⟨0xc, 1, 0x4, 1, 0x4, false, ⟨0x0#32, 0xffffffff#32, 0x0#32, 0x200000#32, 0x0#32, 0x0#32⟩⟩,
  ⟨0x10, 1, 0x4, 1, 0x4, false, ⟨0x0#32, 0x1fffff#32, 0x0#32, 0x0#32, 0x0#32, 0x0#32⟩⟩,
  ⟨0x14, 1, 0x4, 1, 0x4, false, ⟨0x0#32, 0x1fffff#32, 0x0#32, 0x0#32, 0x0#32, 0x0#32⟩⟩,
  ⟨0x18, 1, 0x4, 1, 0x4, false, ⟨0x0#32, 0x1fffff#32, 0x0#32, 0x0#32, 0x0#32, 0x0#32⟩⟩,
  ⟨0x1c, 1, 0x4, 1, 0x4, false, ⟨0x0#32, 0x1fffff#32, 0x0#32, 0x0#32, 0x0#32, 0x0#32⟩⟩,
  ⟨0x20, 1, 0x4, 1, 0x4, false, ⟨0x0#32, 0xffffffff#32, 0x0#32, 0x0#32, 0x0#32, 0xffffffff#32⟩⟩,
  ⟨0x28, 1, 0x4, 1, 0x4, false, ⟨0x0#32, 0xffffffff#32, 0xffffffff#32, 0x0#32, 0x0#32, 0x0#32⟩⟩,
  ⟨0x2c, 1, 0x4, 1, 0x4, false, ⟨0x0#32, 0xffff#32, 0xffff#32, 0x0#32, 0x0#32, 0x0#32⟩⟩,
  ⟨0x30, 1, 0x4, 1, 0x4, false, ⟨0x0#32, 0xffffffff#32, 0x0#32, 0x0#32, 0x0#32, 0x0#32⟩⟩,
  ⟨0x34, 1, 0x4, 1, 0x4, false, ⟨0x0#32, 0xffff#32, 0x0#32, 0x0#32, 0x0#32, 0x0#32⟩⟩]
/-- Register rows of block ENG7. -/
def rowsENG7 : List Row := [
  ⟨0x0, 1, 0x4, 1, 0x4, true, ⟨0x0#32, 0x800f800f#32, 0x800f800f#32, 0x0#32, 0x0#32, 0x0#32⟩⟩,
  ⟨0x4, 1, 0x4, 1, 0x4, false, ⟨0x0#32, 0xf#32, 0x0#32, 0x0#32, 0x0#32, 0x0#32⟩⟩,
  ⟨0x100, 1, 0x4, 1, 0x4, false, ⟨0x0#32, 0x0#32, 0x0#32, 0x0#32, 0x0#32, 0x0#32⟩⟩,
  ⟨0x104, 1, 0x4, 1, 0x4, false, ⟨0x0#32, 0xff000000#32, 0x0#32, 0x0#32, 0x0#32, 0x0#32⟩⟩,
  ⟨0x108, 1, 0x4, 1, 0x4, false, ⟨0x0#32, 0xffffffff#32, 0x0#32, 0x0#32, 0x0#32, 0x0#32⟩⟩,
  ⟨0x10c, 1, 0x4, 1, 0x4, false, ⟨0x0#32, 0xffffffff#32, 0x0#32, 0x0#32, 0x0#32, 0x0#32⟩⟩,
  ⟨0x110, 1, 0x4, 1, 0x4, false, ⟨0x0#32, 0xffffffff#32, 0x0#32, 0x0#32, 0x0#32, 0x0#32⟩⟩,
  ⟨0x114, 1, 0x4, 1, 0x4, false, ⟨0x0#32, 0xffffffff#32, 0x0#32, 0x0#32, 0x0#32, 0x0#32⟩⟩,
  ⟨0x118, 1, 0x4, 1, 0x4, false, ⟨0x0#32, 0xffffffff#32, 0x0#32, 0x0#32, 0x0#32, 0x0#32⟩⟩,
  ⟨0x11c, 1, 0x4, 1, 0x4, false, ⟨0x0#32, 0xffffffff#32, 0x0#32, 0x0#32, 0x0#32, 0x0#32⟩⟩,
  ⟨0x120, 1, 0x4, 1, 0x4, false, ⟨0x0#32, 0xffffffff#32, 0x0#32, 0x0#32, 0x0#32, 0x0#32⟩⟩]
/-- Register rows of block ENG8. -/
def rowsENG8 : List Row := [
  ⟨0x0, 1, 0x4, 1, 0x4, false, ⟨0x0#32, 0x0#32, 0x0#32, 0x0#32, 0x0#32, 0x0#32⟩⟩,
  ⟨0x4, 1, 0x4, 1, 0x4, false, ⟨0x0#32, 0xffffffff#32, 0x0#32, 0x0#32, 0x0#32, 0x0#32⟩⟩,
  ⟨0x100, 16, 0x4, 1, 0x4, false, ⟨0x0#32, 0xffffffff#32, 0x0#32, 0x0#32, 0x0#32, 0x0#32⟩⟩]
/-- Register rows of block HRN. -/
def rowsHRN : List Row := [
  ⟨0x0, 1, 0x4, 1, 0x4, false, ⟨0x0#32, 0x3#32, 0x0#32, 0x3#32, 0x0#32, 0x0#32⟩⟩,
  ⟨0x100, 64, 0x4, 1, 0x4, false, ⟨0x0#32, 0xf003003f#32, 0xf003003f#32, 0x0#32, 0x0#32, 0x0#32⟩⟩,
  ⟨0x200, 64, 0x4, 1, 0x4, false, ⟨0x0#32, 0xc0000001#32, 0x0#32, 0x1#32, 0x0#32, 0x0#32⟩⟩,
  ⟨0x1000, 64, 0x4, 1, 0x4, false, ⟨0x0#32, 0x80000300#32, 0x80000300#32, 0x0#32, 0x0#32, 0x0#32⟩⟩,
  ⟨0x1200, 64, 0x4, 1, 0x4, false, ⟨0x0#32, 0x303#32, 0x303#32, 0x0#32, 0x0#32, 0x0#32⟩⟩,
  ⟨0x1300, 64, 0x4, 1, 0x4, false, ⟨0x0#32, 0xffff001f#32, 0x0#32, 0x1f#32, 0x0#32, 0x0#32⟩⟩,
  ⟨0x1400, 64, 0x4, 1, 0x4, false, ⟨0x3c700#32, 0x3fffffff#32, 0x3fffffff#32, 0x0#32, 0x0#32, 0x0#32⟩⟩,
  ⟨0x2000, 64, 0x10, 3, 0x4, false, ⟨0x0#32, 0xffffffff#32, 0x0#32, 0x0#32, 0x0#32, 0x0#32⟩⟩]
/-- Register rows of block PCIE. -/
def rowsPCIE : List Row := [
  ⟨0x0, 1, 0x4, 1, 0x4, false, ⟨0x0#32, 0xffc0ffff#32, 0x0#32, 0x0#32, 0x0#32, 0x0#32⟩⟩,
  ⟨0x8000, 1024, 0x4, 1, 0x4, false, ⟨0x0#32, 0xffffffff#32, 0xffffffff#32, 0x0#32, 0x0#32, 0x0#32⟩⟩,
  ⟨0x9000, 8, 0x4, 1, 0x4, false, ⟨0x0#32, 0xffffffff#32, 0x0#32, 0x0#32, 0x0#32, 0x0#32⟩⟩]

/-- The first row of a table that offset `o` falls on. -/
def findRow (t : List Row) (o : Nat) : Option Row := t.find? (fun r => r.hit o)

/-- The layout of an active-view word: only the RWS fields, readable and never written (R515). -/
def Lay.view (l : Lay) : Lay := ⟨l.rst &&& l.rw, l.rw, 0#32, 0#32, 0#32, 0#32⟩

/-- The layout at offset `o` of a sub-block whose active view lies `d` above it (R508, R515). -/
def laySub (t : List Row) (o d : Nat) : Option Lay :=
  match findRow t o with
  | some r => some r.lay
  | none =>
    if Nat.blt o d then none else
    match findRow t (o - d) with
    | some r => if r.sh then some r.lay.view else none
    | none => none

/-- A layout with another reset value. -/
def Lay.withReset (l : Lay) (r : Nat) : Lay := { l with rst := BitVec.ofNat 32 r }

/-- The sub-block tables of a carrier engine (R508). -/
def layEngOff (n o : Nat) : Option Lay :=
  if Nat.blt o 0x8000 then
    if Nat.beq o 0 then (findRow rowsENG0 0).map (fun r => r.lay.withReset (n / 8 * 256 + n)) else laySub rowsENG0 o 0x4000
  else if Nat.blt o 0x10000 then laySub rowsENG1 (o - 0x8000) 0x4000
  else if Nat.blt o 0x20000 then
    (let p := o - 0x10000
     let q := if Nat.blt p 0x4000 then p else p - 0x4000
     (laySub rowsENG2 p 0x4000).map fun l =>
       if Nat.ble 0x100 q && Nat.blt q 0x200 && Nat.beq (q % 0x40) 16 then l.withReset 0x4000 else l)
  else if Nat.blt o 0x30000 then laySub rowsENG3 (o - 0x20000) 0x4000
  else if Nat.blt o 0x40000 then laySub rowsENG4 (o - 0x30000) 0x4000
  else if Nat.blt o 0x50000 then
    (laySub rowsENG5 (o - 0x40000) 0x40000).map fun l => if Nat.beq o 0x40100 then l.withReset 0x4000 else l
  else if Nat.blt o 0x60000 then laySub rowsENG6 (o - 0x50000) 0x40000
  else if Nat.blt o 0x70000 then laySub rowsENG7 (o - 0x60000) 0x4000
  else laySub rowsENG8 (o - 0x70000) 0x40000

/-- Is source number `s` listed in R436? -/
def srcListed (s : Nat) : Bool :=
  Nat.blt s 8 || (Nat.ble 0x10 s && Nat.blt s 0x15) || (Nat.ble 0x20 s && Nat.blt s 0x2B) ||
  (Nat.ble 0x100 s && Nat.blt s 0x400 && !Nat.beq (s % 16) 15) || (Nat.ble 0x400 s && Nat.blt s 0x500) ||
  (Nat.ble 0x500 s && Nat.blt s 0x59A) || (Nat.ble 0x600 s && Nat.blt s 0x638)

/-- The reset OWNER of a source (R436); 63 names the steward. -/
def srcOwner (s : Nat) : Nat :=
  if Nat.beq s 0 || Nat.beq s 1 || Nat.beq s 6 then 63
  else if Nat.beq s 2 then 54 else if Nat.beq s 3 then 53 else if Nat.beq s 4 then 52
  else if Nat.beq s 5 || Nat.beq s 7 then 55
  else if Nat.blt s 0x20 then 55 else if Nat.blt s 0x100 then 52
  else if Nat.blt s 0x400 then (s - 0x100) / 16
  else if Nat.blt s 0x500 then 48 + (s - 0x400) / 64
  else if Nat.blt s 0x530 then s - 0x500 else if Nat.blt s 0x560 then s - 0x530
  else if Nat.beq s 0x560 then 53 else if Nat.beq s 0x599 then 63
  else if Nat.blt s 0x600 then 55
  else if Nat.beq s 0x637 then 63 else 55

/-- The collector block: the words of unlisted sources do not exist, and OWNER resets by R436 (R450). -/
def layFC (o : Nat) : Option Lay :=
  if Nat.blt o 0x4000 then (findRow rowsFC o).map (·.lay)
  else
    (let s := o % 0x4000 / 4
     if srcListed s then
       (findRow rowsFC o).map fun r =>
         if Nat.blt o 0x8000 then r.lay.withReset ((r.lay.rst.toNat &&& 0xFFFFFF) + srcOwner s * 0x1000000) else r.lay
     else none)

/-- Unused spare rows of a region at reset: 8 per 512 KiB macro, 4 per cell macro (R407, R429). -/
def spareRows (r : Nat) : Nat :=
  if Nat.blt r 0x30 then 40 else if Nat.blt r 0x60 then 64 else if Nat.beq r 0x60 then 1024
  else if Nat.beq r 0x61 then 512 else 4

/-- The forager and farrier block; FG_SPARES resets by region, and FG_STAT has its CD bits in coefficient stores only
(R429). -/
def layMEM (o : Nat) : Option Lay :=
  if Nat.ble 0x1000 o && Nat.blt o 0x8000 then
    (let r := (o - 0x1000) / 0x20
     let f := o % 0x20
     (findRow rowsMEM o).map fun w =>
       if Nat.beq f 0x1C then w.lay.withReset (spareRows r)
       else if Nat.beq f 4 && Nat.ble 0x30 r then
         { w.lay with imp := w.lay.imp &&& 3#32, w1c := w.lay.w1c &&& 3#32 }
       else w.lay)
  else (findRow rowsMEM o).map (·.lay)

/-- The layout of the register word at BAR0 byte address `a`, or none where no register lies (R504, R505). -/
def layout (a : Nat) : Option Lay :=
  if Nat.beq (a % 4) 0 then
    if Nat.blt a 0x800000 then
      if Nat.blt a 0x100000 then (if Nat.beq a 0x5FC then none else (findRow rowsID a).map (·.lay))
      else if Nat.blt a 0x200000 then layFC (a - 0x100000)
      else if Nat.blt a 0x300000 then (findRow rowsTU (a - 0x200000)).map (·.lay)
      else if Nat.blt a 0x400000 then (findRow rowsCNT (a - 0x300000)).map (·.lay)
      else if Nat.blt a 0x500000 then layMEM (a - 0x400000)
      else if Nat.blt a 0x600000 then (findRow rowsHIVE (a - 0x500000)).map (·.lay)
      else if Nat.blt a 0x700000 then laySub rowsPOOL (a - 0x600000) 0x4000
      else laySub rowsCLI (a - 0x700000) 0x30000
    else if Nat.blt a 0x1000000 then none
    else if Nat.blt a 0x2800000 then layEngOff ((a - 0x1000000) / 0x80000) ((a - 0x1000000) % 0x80000)
    else if Nat.blt a 0x3000000 then none
    else if Nat.blt a 0x3400000 then (findRow rowsHRN ((a - 0x3000000) % 0x100000)).map (·.lay)
    else if Nat.blt a 0x3500000 then (findRow rowsPCIE (a - 0x3400000)).map (·.lay)
    else none
  else none

/-- The reset value of the word at an address; 0 where no register lies (R12, R505). -/
def rstOf (a : Nat) : W := match layout a with | some l => l.rst | none => 0#32

/-- The implemented bits of the word at an address (R10). -/
def impOf (a : Nat) : W := match layout a with | some l => l.imp | none => 0#32

end Sys2Proof.Machine
end

