-- ==== Sys2Proof/Machine/Table.lean ====
section
/-! DEFINITION. A sparse table: key and value pairs in one canonical form, keys strictly rising and no entry equal to what an
unlisted key reads as. Registers, memory and the hidden state of replicated units are held so. -/
namespace Sys2Proof.Machine

/-- A sparse table from natural keys. -/
abbrev Tab (α : Type) := List (Nat × α)

/-- The value at a key; an unlisted key reads as `d k`. -/
def Tab.get {α : Type} (t : Tab α) (d : Nat → α) (k : Nat) : α :=
  ((t.find? (fun e => e.1 == k)).map (fun e => e.2)).getD (d k)

/-- Insert a pair before the first greater key. -/
def Tab.ins {α : Type} (k : Nat) (v : α) : Tab α → Tab α
  | [] => [(k, v)]
  | e :: r => if Nat.blt k e.1 then (k, v) :: e :: r else e :: Tab.ins k v r

/-- Drop every pair of a key. -/
def Tab.del {α : Type} (k : Nat) (t : Tab α) : Tab α := t.filter (fun e => !(e.1 == k))

/-- The table with a key set: a value equal to what an unlisted key reads as leaves the key unlisted. -/
def Tab.set {α : Type} [DecidableEq α] (t : Tab α) (d : Nat → α) (k : Nat) (v : α) : Tab α :=
  if v = d k then Tab.del k t else Tab.ins k v (Tab.del k t)

/-- Canonical form: keys strictly rising, no entry equal to what an unlisted key reads as. -/
abbrev Tab.wf {α : Type} [DecidableEq α] (t : Tab α) (d : Nat → α) : Prop :=
  t.Pairwise (fun a b => a.1 < b.1) ∧ ∀ e ∈ t, e.2 ≠ d e.1

theorem Tab.mem_ins {α : Type} {k : Nat} {v : α} {t : Tab α} {e : Nat × α} :
    e ∈ Tab.ins k v t ↔ e = (k, v) ∨ e ∈ t := by
  induction t with
  | nil => simp [Tab.ins]
  | cons x r ih =>
    simp only [Tab.ins]
    split
    · simp
    · simp only [List.mem_cons, ih]
      constructor
      · rintro (h | h | h) <;> simp [h]
      · rintro (h | h | h) <;> simp [h]

theorem Tab.mem_del {α : Type} {k : Nat} {t : Tab α} {e : Nat × α} :
    e ∈ Tab.del k t ↔ e ∈ t ∧ e.1 ≠ k := by
  simp [Tab.del]

theorem Tab.sorted_ins {α : Type} {k : Nat} {v : α} {t : Tab α}
    (h : t.Pairwise (fun a b => a.1 < b.1)) (hk : ∀ e ∈ t, e.1 ≠ k) :
    (Tab.ins k v t).Pairwise (fun a b => a.1 < b.1) := by
  induction t with
  | nil => simp [Tab.ins]
  | cons x r ih =>
    simp only [Tab.ins]
    have hx : x.1 ≠ k := hk x (by simp)
    rw [List.pairwise_cons] at h
    split
    · next hb =>
      have hlt : k < x.1 := by simpa [Nat.blt_eq] using hb
      refine List.pairwise_cons.2 ⟨?_, List.pairwise_cons.2 h⟩
      intro e he
      rcases List.mem_cons.1 he with rfl | he
      · exact hlt
      · exact Nat.lt_trans hlt (h.1 e he)
    · next hb =>
      have hle : x.1 < k := by
        have : ¬ k < x.1 := by simpa [Nat.blt_eq] using hb
        omega
      refine List.pairwise_cons.2 ⟨?_, ih h.2 (fun e he => hk e (by simp [he]))⟩
      intro e he
      rcases Tab.mem_ins.1 he with rfl | he
      · exact hle
      · exact h.1 e he

theorem Tab.sorted_del {α : Type} {k : Nat} {t : Tab α}
    (h : t.Pairwise (fun a b => a.1 < b.1)) : (Tab.del k t).Pairwise (fun a b => a.1 < b.1) :=
  List.Pairwise.filter _ h

/-- Setting a key keeps the canonical form. -/
theorem Tab.wf_set {α : Type} [DecidableEq α] {t : Tab α} {d : Nat → α} (h : t.wf d) (k : Nat) (v : α) :
    (t.set d k v).wf d := by
  unfold Tab.set
  split
  · exact ⟨Tab.sorted_del h.1, fun e he => h.2 e (Tab.mem_del.1 he).1⟩
  · next hv =>
    refine ⟨Tab.sorted_ins (Tab.sorted_del h.1) (fun e he => (Tab.mem_del.1 he).2), ?_⟩
    intro e he
    rcases Tab.mem_ins.1 he with rfl | he
    · exact hv
    · exact h.2 e (Tab.mem_del.1 he).1

theorem Tab.find_ins {α : Type} {k j : Nat} {v : α} {t : Tab α} (hk : ∀ e ∈ t, e.1 ≠ k) :
    (Tab.ins k v t).find? (fun e => e.1 == j) =
      if j = k then some (k, v) else t.find? (fun e => e.1 == j) := by
  induction t with
  | nil => by_cases h : j = k <;> simp [Tab.ins, h, List.find?]; omega
  | cons x r ih =>
    have hx : x.1 ≠ k := hk x (by simp)
    have ih := ih (fun e he => hk e (by simp [he]))
    simp only [Tab.ins]
    by_cases h : j = k
    · subst h
      split
      · simp [List.find?]
      · have hb : (x.1 == j) = false := by simpa using hx
        rw [List.find?_cons, ih, hb]; simp
    · have hkj : (k == j) = false := by simp; omega
      split
      · simp [List.find?_cons, hkj]
      · rw [List.find?_cons, ih, if_neg h, List.find?_cons]

/-- A set key reads back. -/
@[simp] theorem Tab.get_set_same {α : Type} [DecidableEq α] (t : Tab α) (d : Nat → α) (k : Nat) (v : α) :
    (t.set d k v).get d k = v := by
  by_cases hv : v = d k
  · have h0 : (Tab.del k t).find? (fun e => e.1 == k) = none := by
      rw [List.find?_eq_none]; intro e he; simp [(Tab.mem_del.1 he).2]
    simp [Tab.set, Tab.get, hv, h0]
  · have h0 := Tab.find_ins (j := k) (v := v) (fun e he => (Tab.mem_del (t := t) (k := k).1 he).2)
    simp [Tab.set, Tab.get, hv, h0]

theorem Tab.find_del {α : Type} {j k : Nat} (t : Tab α) (h : j ≠ k) :
    (Tab.del k t).find? (fun e => e.1 == j) = t.find? (fun e => e.1 == j) := by
  unfold Tab.del
  rw [List.find?_filter]
  congr 1; funext e
  by_cases he : e.1 = j <;> simp [he, h]

/-- Setting a key leaves every other key alone. -/
theorem Tab.get_set_other {α : Type} [DecidableEq α] (t : Tab α) (d : Nat → α) {j k : Nat} (v : α) (h : j ≠ k) :
    (t.set d k v).get d j = t.get d j := by
  have hd := Tab.find_del t h
  by_cases hv : v = d k
  · simp [Tab.set, Tab.get, hv, hd]
  · have h0 := Tab.find_ins (j := j) (v := v) (fun e he => (Tab.mem_del (t := t) (k := k).1 he).2)
    simp [Tab.set, Tab.get, hv, h0, hd, h]

end Sys2Proof.Machine
end

