-- ==== Sys2Proof/Machine/State.lean ====
section
/-! DEFINITION. The state of the device, as plain data. Every register word of BAR0, shadow and active copies alike, is held in
`regs` under its byte address; the addressed memories are held in `mem`; what the spec gives the machine beside its registers
is held in one structure per unit; the commands that wait are held in `pending`. -/
namespace Sys2Proof.Machine

/-- Where one engine's transmitter stands (R126): off, from the write of EN to the first sample, sending, and ending. -/
inductive TxPhase where
  | off | starting | on | stopping
  deriving DecidableEq, Repr

/-- A complex value in datapath units: I and Q. -/
abbrev Cx := Int × Int
/-- A pair of values of the X and Y polarisations. -/
abbrev Pol := Cx × Cx

/-- What a superframe of one side takes from the Glohiord blocks (R186–R191): mode, the descriptor and coefficient of every
term while the active page is VALID, the occupancy part of the page, the match of each usable neighbour (the neighbour's symbol,
counted from its superframe 0, that belongs to own symbol 0, and the neighbour's run), the own symbol from which on nothing is added
any more, and those from which on a neighbour is absent. -/
structure GloRec where
  mode  : Nat
  terms : List (W × W)
  occ   : Nat
  nbr   : List (Option (Int × Nat))
  stop  : Nat
  gone  : List (Nat × Nat)
  deriving DecidableEq, Repr

/-- One superframe of the transmit chain: the transmitter's run, number, gait entry, epoch, overhead slice, the first superframe of its run and
whether it ends the run, data bits and the fill bits of its idle symbols in the order of R218, and the words that govern the
later stages: Glohiord, roll-off, pre-compensation and, per converter, taps, gain, delay, slice words and map. `done` tells that
the bits are known. -/
structure SfRec where
  gen   : Nat
  sn    : Nat
  w0    : W
  w1    : W
  w2    : W
  epoch : Bool
  slice : List Byte
  r0    : Nat
  last  : Bool
  done  : Bool
  hold  : Bool
  lanes : Nat
  data  : List Bool
  fill  : List Bool
  glo   : GloRec
  roll  : Nat
  cdpre : Nat
  ovl   : Nat
  cd    : List W
  conv  : List (List W)
  sat   : Bool
  deriving DecidableEq, Repr

/-- The tracked values of one slice, in units of R92: offset 1/64 code, gain 2^-14, skew 1/1,024 ps, bandwidth 0.01 %. -/
structure Track where
  off  : Int
  gain : Int
  skew : Int
  bw   : Int
  deriving DecidableEq, Repr
def Track.init : Track := ⟨0, 0, 0, 0⟩

/-- The client calendar of one engine (R245, R246): dealing position of the committed and elastic classes. -/
structure Deal where
  com : Nat
  ela : Nat
  deriving DecidableEq, Repr

/-- What governs the receive stages up to the equaliser from a sample on (R22, R91, R143–R145, R148, R153): the calibration tables,
slice maps and tracked values, the words RX_IQ, RX_MODE and RX_EQ_CFG, OVL, D and LAMBDA of a generated response, the symbol rate, and
the stored response when it is selected. -/
structure RxSeg where
  start : Nat
  corr  : List W
  slice : List (List W)
  map   : List W
  track : Tab Track
  iq    : List W
  mode  : W
  eq    : W
  ovl   : Nat
  disp  : Int
  lam   : Nat
  sr    : Nat
  cd    : List W
  deriving DecidableEq, Repr

/-- One superframe of the receive chain: number of the lock it belongs to, local count, first symbol once its sync word is found, far-end number and first local
count of the run, both where known, gait entry, epoch and polarisation swap, the words RX_PR_CFG and SCALE, Glohiord part, units
and egress entries (index, committed, context) in force at its start, the symbols after phase recovery, the LLRs in the order of
the stream with whether the decoder is given them (none while they are not formed), whether its client blocks are marked errored
(R72), whether the deframer has passed it, and whether a saturation of its Glohiord stage has been counted. -/
structure RxSf where
  lk    : Nat
  cnt   : BitVec 24
  t0    : Option Nat
  sn    : Option Nat
  r0    : Option (BitVec 24)
  w0    : W
  w1    : W
  w2    : W
  epoch : Bool
  swap  : Bool
  pr    : W
  scale : Nat
  glo   : GloRec
  dec   : List Nat
  cal   : List (Nat × Bool × Nat)
  syms  : List Pol
  llr   : List Int
  fed   : Option Bool
  bad   : Bool
  done  : Bool
  sat   : Bool
  deriving DecidableEq, Repr

/-- A codeword that a unit has decoded: number of its lock, its number, far number of the superframe of its first symbol, its information positions in the
order of R216, and whether it is uncorrectable (R221). -/
structure Decoded where
  lk   : Nat
  w    : Nat
  sn   : Nat
  bits : List Bool
  bad  : Bool
  deriving DecidableEq, Repr

/-- A run that the deframer hands to the client mapper: whether its share is committed, context, SEQ of an elastic run, whether its sequence block is errored,
its blocks with their marks, and how many of the last ones may have been idle. -/
structure Deframed where
  com   : Bool
  ctx   : Nat
  seq   : BitVec 24
  bad   : Bool
  bs    : List (Blk × Bool)
  slack : Nat
  deriving DecidableEq, Repr

/-- The receive chain's data (R91, R140–R163). `words` are the last datapath words of ADC codes (newest first), `wordN` their count
since power-up, `segs` what governs them, `bnd` the sample of the next boundary. Power (R163): sum of squares and words of the
period in progress, that of the last period, periods in a row at or above the threshold and below it, words since the state or
group was entered. Tracking (R92, R93): rounds still kept out per ADC, and the rounds of the statistics (newest first). Dispersion
scan: its first sample, and of each trial done whether it is a fine one, its D in 1/8 ps/nm and its metric. Equaliser: position of
the next half-symbol instant in 2^-32 sample, the timing loop's correction, half-symbol samples (newest first), taps hxx, hxy, hyx,
hyy ([] while they are the unit centre), the scales of its two outputs in 2^-30, phase and step of the derotator, sums of the
estimates for the superframe and the laser period in units of 1,000 / 2^44 MHz, and the words at the start of that period. Symbols:
those after the derotator with the index of each one's centre sample and the derotator's phase (newest first), their count, and the
first one the hunt has not searched. Then the number of the present lock, the recent superframes (newest first), the local count of the last GAIT_RX swap under the present lock, the decoded
codewords, the deframer's dealing position, the runs it has ready, and whether the last superframe it passed was free of
uncorrectable blocks. -/
structure RxPath where
  words : List CapWord
  wordN : Nat
  segs  : List RxSeg
  bnd   : Nat
  psum  : Nat
  pcnt  : Nat
  power : Nat
  above : Nat
  below : Nat
  inSt  : Nat
  skip  : List Nat
  stat  : List (List (List Byte))
  scan0 : Nat
  scan  : List (Bool × Int × Nat)
  ph    : Nat
  tim   : Int
  half  : List Pol
  taps  : List Cx
  gain  : Nat × Nat
  nco   : Int
  step  : Int
  fsum  : Int
  fcnt  : Nat
  tsum  : Int
  tcnt  : Nat
  tune0 : Nat
  syms  : List (Pol × Nat × Int)
  symN  : Nat
  seen  : Nat
  lk    : Nat
  sfs   : List RxSf
  run   : Option (BitVec 24)
  cws   : List Decoded
  deal  : Deal
  runs  : List Deframed
  clean : Bool
  deriving DecidableEq, Repr
def RxPath.init : RxPath :=
  ⟨[], 0, [], 81920, 0, 0, 0, 0, 0, 0, [0, 0, 0, 0], [[], [], [], []], 0, [], 0, 0, [], [], (0, 0), 0, 0, 0, 0, 0, 0, 0, [], 0, 0, 0, [], none, [],
   ⟨0, 0⟩, [], false⟩

/-- When a pending swap is due (R27, R30, R72): the next boundary, a named boundary, or the catch-up boundary. -/
inductive Due where
  | next
  | named (s : BitVec 24)
  deriving DecidableEq, Repr

/-- One block's pending swap on one side (R27, R29). -/
structure PendSwap where
  blk : Nat
  rx  : Bool
  due : Due
  neg : Bool                -- named in a gait negotiation (R198)
  deriving DecidableEq, Repr

/-- The proposer of a gait negotiation beyond its registers (R66–R68): the state of the transaction (that of NEG_TX_STAT but for
a start refused with BUSY), reserved blocks, the S and P of the transaction, the first COMMIT multiframe, the entry's index and
check word, and an ABANDON still to be sent until its S. -/
structure Proposer where
  st      : Nat
  blocks  : List Nat
  s       : BitVec 24
  p       : BitVec 24
  idx     : BitVec 4
  check   : BitVec 16
  commitC : BitVec 24
  abandon : Option (BitVec 8 × BitVec 24)
  deriving DecidableEq, Repr
def Proposer.init : Proposer := ⟨0, [], 0, 0, 0, 0, 0, none⟩

/-- An answer the responder is sending (R69, R70): ACK or NAK, TID, reason, S. -/
structure Answer where
  ack    : Bool
  tid    : BitVec 8
  reason : BitVec 8
  s      : BitVec 24
  deriving DecidableEq, Repr

/-- The responder beyond its registers (R69–R72). -/
structure Responder where
  lt      : BitVec 24
  blocks  : List Nat
  answer  : Option Answer
  busy    : Option Answer
  rateOk  : Bool
  catchUp : Bool
  deriving DecidableEq, Repr
def Responder.init : Responder := ⟨0, [], none, none, true, false⟩

/-- The overhead receiver (R62, R63): MSN and local count of the last good frame of each phase of the hunt, consecutive CRC failures,
consecutive frames of another OFS, frames failing since lock, frames of another FORMAT, frames of too long OAM. -/
structure Overhead where
  good   : List (BitVec 24 × BitVec 24)
  fails  : Nat
  other  : Nat
  bad    : BitVec 32
  format : BitVec 32
  oamBad : BitVec 32
  oam    : List Byte
  gait   : BitVec 4
  qual   : List Byte
  deriving DecidableEq, Repr
def Overhead.init : Overhead := ⟨[], 0, 0, 0, 0, 0, [], 0, []⟩

/-- Acquisition beyond RX_STAT (R164–R169, R173): the candidate's position, output and count, consecutive misses, the stored
peak, the position from which on a stored peak is looked for, Pref (as a sum of squares over the superframe), how the hunt began, its
limit, the epoch last observed under the present lock (R73), the power and SNR latched at the last repeat, the SNR of the last 8
superframes (R63), whether CONVERGE was entered from LOCKED, and the datapath words that had come at entry to CONVERGE and to HUNT. -/
structure Acq where
  pos    : Nat
  out1   : Bool
  count  : Nat
  miss   : Nat
  peak   : Option (Nat × Bool × Nat)
  last   : Nat
  pref   : Option Nat
  repl   : Bool
  limit  : Nat
  epo    : Option Bool
  qpwr   : BitVec 16
  qsnr   : BitVec 16
  snrs   : List (Option (BitVec 16))
  rconv  : Bool
  conv0  : Nat
  hunt0  : Nat
  deriving DecidableEq, Repr
def Acq.init : Acq := ⟨0, false, 0, 0, none, 0, none, false, 0, none, 0, 0, [], false, 0, 0⟩

/-- Capture beyond its registers (R112–R116): samples written since ARM, run index of the trigger word, held trigger, whether the
time trigger of this ARM has fired, and the memory index of the last word of corrected samples, whose filter reaches into the next
datapath word. -/
structure Cap where
  written : Nat
  trigAt  : Nat
  held    : Option (BitVec 2 × Nat)
  timed   : Bool
  tail    : Option Nat
  deriving DecidableEq, Repr
def Cap.init : Cap := ⟨0, 0, none, false, none⟩

/-- One channel of the monitor's fine path (R331–R335): five integrators, five comb delays (76 bits), FIR and median histories
(newest first), clocks since the later of START and the last invalid input, last valid raw value. -/
structure MonCh where
  integ : List (BitVec 76)
  comb  : List (BitVec 76)
  fir   : List (BitVec 20)
  med   : List (BitVec 20)
  since : Nat
  raw   : BitVec 16
  deriving DecidableEq, Repr
def MonCh.init : MonCh := ⟨List.replicate 5 0, List.replicate 5 0, [], [], 0, 0⟩

/-- The monitor chain beyond its registers: clocks and CIC outputs since START, the channels, and the equaliser's centre taps at the last
64 clocks (newest first, R330). -/
structure Mon where
  clk : Nat
  cic : Nat
  ch  : Tab MonCh
  sop : List (List Cx)
  deriving DecidableEq, Repr
def Mon.init : Mon := ⟨0, 0, [], []⟩

/-- Line time transfer of one engine (R325, R326): arrival stamps by far multiframe and departure stamps by own multiframe
(newest first), far departures by far multiframe, and the running mean. -/
structure Ltt where
  arr : List (BitVec 24 × BitVec 48)
  dep : List (BitVec 24 × BitVec 48)
  far : List (BitVec 24 × BitVec 48)
  sum : Int
  cnt : Nat
  mf  : Nat
  deriving DecidableEq, Repr
def Ltt.init : Ltt := ⟨[], [], [], 0, 0, 0⟩

/-- One carrier engine beyond its registers and memories. -/
structure EngSt where
  tx     : TxPhase
  swaps  : List PendSwap
  prop   : Proposer
  resp   : Responder
  oh     : Overhead
  acq    : Acq
  cdRx   : Bool             -- copy 1 of the receive CD response is the shadow copy (R407)
  cdTx   : Bool
  goodRx : Bool             -- GOOD_SHADOW (R416)
  goodTx : Bool
  track  : Tab Track
  calRun : Nat              -- the calibration step that runs (R107), 0 none
  cal    : List (List SliceSum)
  tone   : List (List SliceSum)
  cap    : Cap
  mon    : Mon
  txClip : BitVec 4         -- a DAC saturated in the superframe at the pads (R137)
  hwRx   : List (Option Int) -- the neighbours' matches on receive as the last boundary left them (R187)
  txGen  : Nat              -- the transmitter's runs since power-up
  occTx  : Bool             -- an occupancy event is held (R198)
  occRx  : Bool
  fecErr : Nat              -- 64-bit counters of R237
  fecBit : Nat
  ber    : List (Nat × Nat) -- errors and bits of the last 8 superframes, newest first (R231)
  uncSf  : Nat              -- uncorrectable codewords since lock (R63)
  marLo  : Nat              -- consecutive multiframes below and not below THR (R232)
  marHi  : Nat
  runSn  : BitVec 24        -- first superframe of the present run on transmit (R214)
  fill   : Nat              -- fill bits taken from the generator of R128
  dealTx : Deal
  sfs    : List SfRec       -- superframes of the transmit chain, newest first
  frame  : List Byte        -- the overhead frame of the multiframe at the pads (R58)
  rxp    : RxPath
  ltt    : Ltt
  hold   : Bool             -- the transmit pipeline is cleared: codes 0 until a later boundary (R443)
  holdN  : Nat
  deriving DecidableEq, Repr
def EngSt.init : EngSt :=
  ⟨.off, [], .init, .init, .init, .init, false, false, false, false, [], 0, [], [], .init, .init, 0, [], 0, false, false, 0, 0,
   [], 0, 0, 0, 0, 0, ⟨0, 0⟩, [], [], .init, .init, false, 0⟩

/-- One drone beyond HIVE_DRN_STAT and HIVE_DRN_HOV (R379, R381, R382, R398–R402). -/
structure DrnSt where
  g      : Tab W
  acc    : Tab (BitVec 40 × BitVec 40)
  p      : Tab W
  pm     : Tab W
  pb     : Tab W
  pl     : Tab W
  amode  : Tab W
  pc     : BitVec 16
  keeper : Bool
  prev   : Bool
  tip    : Bool
  sat    : Bool
  nmi    : Bool
  tpc    : W
  tcode  : W
  taddr  : W
  tentry : W
  evpend : BitVec 16
  timer  : W
  cycle  : BitVec 64
  pwinB  : W
  pwinL  : W
  cwinB  : W
  cwinL  : W
  wait   : Option (GReg × BitVec 16)  -- a WFE that waits: destination and lines (R399)
  halted : Bool                       -- halted in WAIT: RESUME returns to it (R405)
  pause  : Option (BitVec 64)         -- cycle of the BANKSW of a handover in progress (R367)
  slow   : Bool                       -- HANDOVER_SLOW was raised for this pause
  buildI : W                          -- BUILD of the idle bank
  deriving DecidableEq, Repr
def DrnSt.init : DrnSt :=
  ⟨[], [], [], [], [], [], [], 0, true, false, false, false, false, 0, 0, 0, 0x10, 0, 0, 0, 0, 0, 0, 0, none, false, none, false, 0⟩

/-- A block in a context's queue or in a run that waits: `bad` tells that it is marked errored (R250), `gen` that the device wrote it in
place of a refused block, so that it is not counted in ACC or RD (R252), and `word` is the number of its word in the client buffer
(R260; 0 while it has none). -/
structure QBlk where
  blk : Blk
  bad : Bool
  gen : Bool
  word : Nat
  deriving DecidableEq, Repr

/-- A run of an elastic context waiting at the egress (R249): sequence number, its blocks, how many of the last ones may have been idle,
and the counter C at its arrival. -/
structure Run where
  seq   : BitVec 24
  bs    : List QBlk
  slack : Nat
  t     : Nat
  deriving DecidableEq, Repr

/-- A frame in the inline editor of R319: blocks held until it is known whether the frame is edited, the frame passes unedited,
and the stamp of its start block. -/
structure Frm where
  held : List QBlk
  pass : Bool
  t    : Nat
  deriving DecidableEq, Repr
def Frm.init : Frm := ⟨[], true, 0⟩

/-- One client context beyond its registers (R247–R252, R319). `slack` of the blocks that the merging passed last may have been idle; `inN`
and `outN` count the blocks written into the two halves of the client buffer (R260). -/
structure CtxSt where
  queue   : List QBlk
  rd      : BitVec 24
  seqTx   : BitVec 24
  seqRx   : BitVec 24
  slack   : Nat
  runs    : List Run
  inFrame : Bool            -- between a start block and the terminate block of a frame (R239)
  cutting : Bool            -- the rest of the present frame is refused (R252)
  fin     : Frm
  fout    : Frm
  inN     : Nat
  outN    : Nat
  deriving DecidableEq, Repr
def CtxSt.init : CtxSt := ⟨[], 0, 0, 0, 0, [], false, false, .init, .init, 0, 0⟩

/-- One host lane beyond its registers (R273, R277, R280, R281, R284): header history, newest first, valid headers in a row and slips in
HUNT, the logical index and block time of its last lane marker, PCS deskewed and FEC locked (held at a port's first lane), CDR in
lock, the equaliser's ramp (taps at its start as numerators over 16^e, e, the target word and the steps taken); transmitter started,
number in its group of 34 of the port's next block (held at a port's first lane), the transmit scrambler's last 58 bits, newest in
bit 0, the state of an Ethernet port's sending PCS and the stream blocks that wait to be dealt (both held at a port's first lane); the
state of an Ethernet lane's receiving PCS; received bits not yet in a block, a bit to be skipped, the descrambler's last 58 bits, number in its group of the next received
block, block time of the last block, its marker is still to come, and the stream blocks that wait for the port's other lanes. -/
structure LaneSt where
  hist   : List Bool
  good   : Nat
  slips  : Nat
  marker : Option (Nat × Nat)
  locked : Bool
  cdr    : Bool
  ramp   : Option (List Int × Nat × W × Nat)
  tx     : Bool
  txNum  : Nat
  txScr  : BitVec 58
  txPcs  : Nat
  txq    : List Blk
  rxPcs  : Nat
  rxBits : List Bool
  skip   : Bool
  rxScr  : BitVec 58
  num    : Nat
  now    : Nat
  wait   : Bool
  fifo   : List Blk
  deriving DecidableEq, Repr
def LaneSt.init : LaneSt := ⟨[], 0, 0, none, false, false, none, false, 0, 0, 0, [], 0, [], false, 0, 0, 0, false, []⟩

/-- A time scale (R304): epoch in s, offset in 2^-32 ns, rate in 2^-48, and the counter value at its last load. -/
structure Scale where
  e : BitVec 48
  o : Int
  r : Int
  a : Nat
  deriving DecidableEq, Repr
def Scale.init : Scale := ⟨0, 0, 0, 0⟩

/-- A transmit descriptor of a timing port (R329). -/
structure Desc where
  slot   : Nat
  addr   : W
  word1  : W
  launch : BitVec 48
  deriving DecidableEq, Repr

/-- The time unit beyond its registers (R303–R323). -/
structure TimeSt where
  c      : Nat
  stamp  : Scale
  line   : Scale
  integ  : Int              -- the integrator I, in 2^-48
  last   : Option (Nat × Nat)  -- C and SRC of the last accepted sample
  measLo : W
  adjLo  : W
  rateLo : W
  pend   : Int              -- TU_STEP_PEND, 2^-16 ns
  ppsIn  : Option Int       -- the counter C at the last accepted edge
  ppsOut : Bool
  held   : Tab (List Desc)  -- held launches per harness
  wait   : Tab (List (Desc × Bool))  -- frames that wait for the timing port of a harness, with whether they are late
  busy   : Tab Nat          -- the counter C from which that port is free
  acc    : Nat              -- the counter C at the last accepted sample
  rise   : Nat              -- the counter C when PPS_OUT rose
  trim   : Int              -- what the synthesisers of the line tiles are off nominal, in 2^-48 / 5^14 (R317)
  deriving DecidableEq, Repr
def TimeSt.init : TimeSt := ⟨0, .init, .init, 0, none, 0, 0, 0, 0, none, false, [], [], [], 0, 0, 0⟩

/-- A pending fault message (R434, R439). -/
structure Msg where
  src    : Nat
  kind   : Nat
  cls    : Nat
  inj    : Bool
  detail : BitVec 40
  isSet  : Bool
  merged : Nat
  note   : Bool
  deriving DecidableEq, Repr

/-- A condition that is set at its source, with the DETAIL of its set message (R438, R444, R539). -/
structure Cond where
  src    : Nat
  kind   : Nat
  cls    : Nat
  key    : Nat
  detail : BitVec 40
  deriving DecidableEq, Repr

/-- The fault collector and the sources' conditions, beyond the registers. -/
structure ColSt where
  intake : List Msg
  conds  : List Cond        -- conditions set at their sources
  errN   : Bool             -- ERR_N is driven low
  errMin : Bool             -- ERR_HOLD of the present assertion has not elapsed
  errT   : Nat              -- the counter C at its start
  deriving DecidableEq, Repr
def ColSt.init : ColSt := ⟨[], [], false, false, 0⟩

/-- The steward beyond its registers (R351–R373). -/
structure StwSt where
  op      : Option Nat      -- the command that runs
  addr    : Nat             -- ARG_ADDR and ARG_LEN of that command
  len     : Nat
  svn     : Nat             -- SVN of the running image
  unsig   : Bool            -- the running image is unsigned
  revoked : BitVec 4        -- slots revoked by REVOKE_KEY
  minSvn  : Option (BitVec 7)
  targets : List Nat
  waiting : Bool            -- its wake waits for a power command (R354)
  erase   : Tab Nat         -- erase count per vault sector
  deriving DecidableEq, Repr
def StwSt.init : StwSt := ⟨none, 0, 0, 0, false, 0, none, [], false, []⟩

/-- The power command that runs (R473–R476): an entry or a wake, its target, the domains still to move, those moved with the
state they held before, the domain whose turn runs, and the refusal that ends it. -/
structure PwrCmd where
  entry  : Bool
  target : Nat
  todo   : List Nat
  moved  : List (Nat × Nat)
  turn   : Option Nat
  abort  : Option (Nat × Nat)
  own    : Bool             -- started by the steward or the pool: ERR, REASON and REF_DOM unchanged
  all    : Bool             -- PWR_CMD.ALL with target Off: the hub follows (R481)
  deriving DecidableEq, Repr

/-- Power beyond its registers. -/
structure PwrSt where
  dead  : Bool              -- device Off, or no supply
  ready : Bool              -- the always-on domain is ready (R529)
  cmd   : Option PwrCmd
  steps : Tab (List Nat × Nat)  -- wake steps still to do and the wake's target, per domain being woken
  stepT : Tab Nat           -- the counter C at the start of the step in progress
  wake  : Bool              -- WAKE_N went low during an entry (R475)
  poolW : Option Nat        -- a group the decoder pool waits to wake (R227)
  chk   : Tab (List Nat)    -- the check words of a domain's banks (R477)
  deriving DecidableEq, Repr
def PwrSt.init : PwrSt := ⟨false, false, none, [], [], false, none, []⟩

/-- A feed as the supervisor samples it (R464, R466): samples in succession within the limits of GOOD, up to 10,000, and below 10.2 V,
up to 20; the counter C when it last became GOOD, and at the last switch-over away from it. -/
structure FeedSt where
  good  : Nat
  low   : Nat
  since : Option Nat
  away  : Nat
  deriving DecidableEq, Repr
def FeedSt.init : FeedSt := ⟨0, 0, none, 0⟩

/-- The supply supervisor beyond its registers: a switch-over in progress, its new feed and cause (R465–R468), and the feeds. -/
structure SupSt where
  going : Option (Bool × Nat)
  a     : FeedSt
  b     : FeedSt
  deriving DecidableEq, Repr
def SupSt.init : SupSt := ⟨none, .init, .init⟩

/-- A repair request, in the layout of FAR_CMD, with the row of FAR_ARG (R420). -/
structure FarReq where
  cmd : W
  arg : W
  deriving DecidableEq, Repr

/-- The stage of the repair in progress (R421, R422, R425–R427): `restore` waits to restore the shadow copy of one that has failed. -/
inductive FarStage where
  | copy | compare | switch | shadow | swap
  | restore (outcome : Nat)
  deriving DecidableEq, Repr

/-- The repair in progress. -/
structure FarJob where
  req   : FarReq
  stage : FarStage
  spare : Nat
  tries : Nat
  clash : Bool              -- its swap clashed and waits (R421)
  tried : List Nat
  deriving DecidableEq, Repr

/-- A pending injected error: its region, the key of its word, and the syndrome that its masks produce (R418, R419). -/
structure Inject where
  region : Nat
  word   : Nat
  synd   : BitVec 8
  deriving DecidableEq, Repr

/-- ECC, forager and farrier beyond their registers. -/
structure EccSt where
  inj   : List Inject       -- the injections that pend
  wb    : Tab (List Nat)    -- write-backs scheduled per region: word keys, first in first out
  age   : Tab Nat           -- order in which log entries were made, per entry key
  next  : Nat
  used  : List (Nat × Nat × Nat)  -- spare rows in use or BAD: region, macro, spare
  remap : List (Nat × Nat × Nat × Nat)  -- region, macro, row, spare
  queue : List FarReq
  job   : Option FarJob
  pass  : Tab Nat           -- C at the start of the forager's present pass, per region (R412)
  deriving DecidableEq, Repr
def EccSt.init : EccSt := ⟨[], [], [], 0, [], [], [], none, []⟩

/-- A self-test run (R453–R459). -/
structure StRun where
  kind   : Nat
  index  : Nat
  tests  : Nat
  retire : Bool
  cut    : Bool
  prior  : List Nat         -- POOL_UNIT states before the run (R457)
  deriving DecidableEq, Repr

/-- A self-test controller: its run and the retirements that wait (R458). -/
structure StSt where
  run  : Option StRun
  wait : List (Nat × Nat)
  deriving DecidableEq, Repr
def StSt.init : StSt := ⟨none, []⟩

/-- The counter block beyond its registers (R489–R498). -/
structure CntSt where
  val   : Tab Nat           -- 96-bit value of a pair
  carry : List Nat          -- counters whose carry or overflow is in flight
  bw    : Tab (Nat × Bool)  -- blocks of the present window; the window counts as valid
  deriving DecidableEq, Repr
def CntSt.init : CntSt := ⟨[], [], []⟩

/-- One direction of an edge link (R200): down, consecutive failures and consecutive good groups per stream, and the last groups
that failed: stream, and group counted from the sender's superframe 0. -/
structure EdgeSt where
  down : Bool
  bad  : List Nat
  good : List Nat
  fail : List (Nat × Nat)
  deriving DecidableEq, Repr
def EdgeSt.init : EdgeSt := ⟨false, [0, 0, 0, 0], [0, 0, 0, 0], []⟩

/-- The mirror of the decoder pool beyond its registers (R227): engine, target and spare of the last mirror accepted, whether
every compared codeword passed, whether the farrier is the replacing party, and the last superframe whose LLRs the target had when the
spare began to be fed. -/
structure MirSt where
  eng    : Nat
  target : Nat
  spare  : Nat
  same   : Bool
  farr   : Bool
  since  : Option (BitVec 24)
  deriving DecidableEq, Repr
def MirSt.init : MirSt := ⟨0, 0, 0, true, false, none⟩

/-- What a command gives back to the outside: the model's own field, holding the outputs of the last command. -/
inductive Output where
  | read (p : Party) (v : W)                       -- data of a read
  | poisoned (p : Party)                           -- a completion marked poisoned (R414)
  | unsupported                                    -- Unsupported Request (R299)
  | msix (v : Nat)                                 -- MSI-X vector
  | tune (bus : Nat) (nibbles : List (BitVec 4))   -- a tuning-bus message (R157)
  | trigOut (high : Bool)
  | ppsOut (high : Bool)
  | rein (c : Nat) (pay : BitVec 64)               -- a rein block (R253)
  | egress (c : Nat) (b : Blk)                     -- a block of a context's egress stream
  | lane (l : Nat) (levels : List (BitVec 2))      -- PAM4 levels that a lane sends (R273)
  | laneTx (l mode : Nat)                          -- a lane's transmitter: 0 sends, 1 electrical idle, 2 off (R287)
  | overhead (n : Nat) (bytes : List Byte)         -- an overhead frame sent on the line
  | frame (h : Nat) (bytes : List Byte) (late : Bool) -- a timing-port frame sent
  | released (n : Nat) (blocks : List Blk) -- blocks released into a superframe, in calendar order
  | tileLink (n sn : Nat) (dm : List (List Bool)) (signs : List Bool) (lanes : List (Nat × Nat)) -- encoder output (R219)
  | pads (n sn : Nat) (codes : List (List Int)) -- DAC codes XI, XQ, YI, YQ of a superframe (R136)
  | loopCodes (n : Nat) (codes : List Int)         -- what a LOOP self-test sends to each of the four DACs (R126, R453)
  | tdo (bits : List Bool)                         -- what a data-register scan shifts out (R537)
  | testPins (mode : Nat) (cells : List Bool)      -- pins: 0 as the device drives them, 1 by the cells, 2 high-Z, 3 pulse, 4 train
  | dark (n : Nat)                                 -- the DACs go to code 0 (R126)
  | swapResult (code : Nat)
  | toLine (l : Nat) (lockState : Nat)
  deriving DecidableEq, Repr

/-- The writable part of the management port's configuration space (R298, R301): command word, the two BARs, Max_Payload_Size and
Max_Read_Request_Size codes, L1 enabled, and the AER status words. The host's configuration cycles are no command of the table (log 15). -/
structure PcieSt where
  cmd     : BitVec 16
  bar0    : BitVec 64
  bar2    : BitVec 64
  payload : BitVec 3
  readReq : BitVec 3
  l1      : Bool
  aer     : W × W
  deriving DecidableEq, Repr
def PcieSt.init : PcieSt := ⟨0, 0, 0, 0, 2, false, (0, 0)⟩

/-- The JTAG port (R537, R538): the instruction register, in the numbering of Steward.lean (log 23), and the cells of the boundary
register as last updated; none stands for cells that are all 0. -/
structure TapSt where
  ir    : Nat
  cells : List Bool
  deriving DecidableEq, Repr

/-- The state of the device. -/
structure State where
  regs    : List (Nat × W)
  mem     : List Host.Cell
  poison  : List Nat
  eng     : Tab EngSt
  drn     : Tab DrnSt
  ctx     : Tab CtxSt
  lane    : Tab LaneSt
  time    : TimeSt
  col     : ColSt
  stw     : StwSt
  pwr     : PwrSt
  sup     : SupSt
  ecc     : EccSt
  st      : Tab StSt
  cnt     : CntSt
  edge    : Tab EdgeSt
  mir     : MirSt
  pcie    : PcieSt
  tap     : TapSt
  trigOut : Nat
  latch   : Tab W
  out     : List Output
  fresh   : Nat
  pending : List Instr
  deriving DecidableEq, Repr

/-- The keys of `mem`: the vault begins here (R369). -/
def vaultKey : Nat := 0x40000000

/-- What an unlisted byte of memory reads as: erased vault bytes 0xFF (R369), every other byte 0 (DESIGN CHOICE, log 2: the
contents of comb memory, of cells and of the client buffer after a power-up are unspecified). -/
def memRst (k : Nat) : Byte := if Nat.ble vaultKey k then 0xFF#8 else 0#8

/-- The canonical form of memory. -/
abbrev Memory.wf (m : List Host.Cell) : Prop := Tab.wf m memRst

/-- The canonical form of the register words, with every reserved bit 0 (R10). -/
abbrev Regs.wf (m : List (Nat × W)) : Prop := Tab.wf m rstOf ∧ ∀ e ∈ m, e.2 &&& ~~~(impOf e.1) = 0#32

/-- The invariant of the state: registers and memory in canonical form, reserved bits reading 0. -/
structure State.Wf (s : State) : Prop where
  regs : Regs.wf s.regs
  mem  : Memory.wf s.mem

/-- The device after a power-up (R541): every register at its reset value, every domain Off, the steward in WAIT_IMAGE, the
vault erased (DESIGN CHOICE, log 2) and no command waiting. -/
def State.reset : State :=
  { regs := [], mem := [], poison := [], eng := [], drn := [], ctx := [], lane := [], time := .init, col := .init,
    stw := .init, pwr := .init, sup := .init, ecc := .init, st := [], cnt := .init, edge := [], mir := .init,
    pcie := .init, tap := ⟨1, []⟩, trigOut := 0, latch := [], out := [], fresh := 0, pending := [] }

/-- A fault stops the machine. No command of this device stops it so: every error the spec names is a reaction of the device.
`absentAddress` is raised by no meaning (it is safe: nothing can be proved of a run past it). -/
inductive Fault where
  | absentAddress
  deriving DecidableEq, Repr

/-- A refusal says that a command has no meaning in the model. `notModelled` is raised by the arms of exec whose meaning is
not written (safe: nothing can be proved of a run past it). -/
inductive Refusal where
  | notModelled (mnemonic : String)
  deriving DecidableEq, Repr

end Sys2Proof.Machine
end

