-- ==== Sys2Proof/Machine/Ops.lean ====
section
/-! DEFINITION. The named operations over registers and memory, and how a meaning is put together from them: an `Op` changes
the state and carries the proof that it keeps registers and memory in canonical form. -/
namespace Sys2Proof.Machine

/-- The register word at an address, as it is held. -/
def State.reg (s : State) (a : Nat) : W := Tab.get s.regs rstOf a

/-- A field of a register. -/
def State.fld (s : State) (a : Nat) (f : Fld) : Nat := getFld (s.reg a) f

/-- A field of a register as one bit. -/
def State.bit (s : State) (a : Nat) (f : Fld) : Bool := s.fld a f == 1

/-- One byte of memory at a key. -/
def State.byte (s : State) (k : Nat) : Byte := Tab.get s.mem memRst k

/-- A 32-bit little-endian word of memory at a key (R7). -/
def State.word (s : State) (k : Nat) : W :=
  (s.byte (k + 3) ++ s.byte (k + 2)) ++ (s.byte (k + 1) ++ s.byte k)

/-- The `n` bytes of memory from a key. -/
def State.bytes (s : State) (k n : Nat) : List Byte := (List.range n).map (fun i => s.byte (k + i))

/-- The registers with one word written: reserved bits stay 0 (R10), an address without a register keeps nothing (R505). -/
def Regs.set (m : List (Nat × W)) (a : Nat) (v : W) : List (Nat × W) := Tab.set m rstOf a (v &&& impOf a)

theorem Regs.wf_set {m : List (Nat × W)} (h : Regs.wf m) (a : Nat) (v : W) : Regs.wf (Regs.set m a v) := by
  refine ⟨Tab.wf_set h.1 a _, ?_⟩
  intro e he
  unfold Regs.set Tab.set at he
  split at he
  · exact h.2 e (Tab.mem_del.1 he).1
  · rcases Tab.mem_ins.1 he with rfl | he
    · simp only; rw [BitVec.and_assoc]; simp
    · exact h.2 e (Tab.mem_del.1 he).1

/-- A change of the state that keeps the canonical form of registers and memory, and the queue of commands. -/
structure Op where
  run   : State → State
  keeps : ∀ s, s.Wf → (run s).Wf
  same  : ∀ s, (run s).pending = s.pending

/-- No change. -/
def Op.skip : Op := ⟨id, fun _ h => h, fun _ => rfl⟩

/-- One change after another. -/
def Op.thn (a b : Op) : Op := ⟨fun s => b.run (a.run s), fun s h => b.keeps _ (a.keeps s h), fun s => (b.same _).trans (a.same s)⟩

/-- Changes in order. -/
def Op.all : List Op → Op
  | [] => Op.skip
  | a :: r => Op.thn a (Op.all r)

/-- A change chosen by the state it meets. -/
def Op.dyn (f : State → Op) : Op := ⟨fun s => (f s).run s, fun s h => (f s).keeps s h, fun s => (f s).same s⟩

/-- A change made only when a condition holds. -/
def Op.when (c : Bool) (o : Op) : Op := if c then o else Op.skip

/-- The same change for each element of a list, in order. -/
def Op.each {α : Type} (l : List α) (f : α → Op) : Op := Op.all (l.map f)

/-- A change of anything but registers, memory and the queue. -/
def Op.mod (f : State → State)
    (h : ∀ s, (f s).regs = s.regs ∧ (f s).mem = s.mem ∧ (f s).pending = s.pending := by intro s; exact ⟨rfl, rfl, rfl⟩) : Op :=
  ⟨f, fun s w => ⟨by rw [(h s).1]; exact w.regs, by rw [(h s).2.1]; exact w.mem⟩, fun s => (h s).2.2⟩

/-- Hold a word in a register, as the device does. -/
def Op.wr (a : Nat) (v : W) : Op :=
  ⟨fun s => { s with regs := Regs.set s.regs a v }, fun _ w => ⟨Regs.wf_set w.regs a v, w.mem⟩, fun _ => rfl⟩

/-- Write one byte of memory. -/
def Op.byte (k : Nat) (b : Byte) : Op :=
  ⟨fun s => { s with mem := Tab.set s.mem memRst k b }, fun _ w => ⟨w.regs, Tab.wf_set w.mem k b⟩, fun _ => rfl⟩

/-- Put registers and memory back to reset, keeping the register words and bytes whose keys a test selects. -/
def Op.wipe (keepR keepM : Nat → Bool) : Op :=
  ⟨fun s => { s with regs := s.regs.filter (fun e => keepR e.1), mem := s.mem.filter (fun e => keepM e.1) },
   fun _ w => ⟨⟨⟨w.regs.1.1.filter _, fun e he => w.regs.1.2 e (List.mem_filter.1 he).1⟩,
      fun e he => w.regs.2 e (List.mem_filter.1 he).1⟩,
    ⟨w.mem.1.filter _, fun e he => w.mem.2 e (List.mem_filter.1 he).1⟩⟩, fun _ => rfl⟩

/-- Load one field of a register. -/
def Op.setF (a : Nat) (f : Fld) (v : Nat) : Op := Op.dyn fun s => Op.wr a (setFld (s.reg a) f v)

/-- Load one field of a register as a bit. -/
def Op.setB (a : Nat) (f : Fld) (v : Bool) : Op := Op.setF a f (if v then 1 else 0)

/-- Set a status bit. -/
def Op.flag (a : Nat) (f : Fld) : Op := Op.setF a f 1

/-- Add to a counter register that stops at 0xFFFF_FFFF. -/
def Op.count (a k : Nat) : Op := Op.dyn fun s =>
  Op.wr a (BitVec.ofNat 32 (Nat.min ((s.reg a).toNat + k) 0xFFFFFFFF))

/-- Add to a field of a register, wrapping at its width. -/
def Op.addF (a : Nat) (f : Fld) (k : Nat) : Op := Op.dyn fun s => Op.setF a f (s.fld a f + k)

/-- Add one to a field that saturates. -/
def Op.satF (a : Nat) (f : Fld) : Op := Op.dyn fun s => Op.setF a f (Nat.min (s.fld a f + 1) (2 ^ f.width - 1))

/-- Give one output. -/
def Op.emit (o : Output) : Op := Op.mod fun s => { s with out := s.out ++ [o] }

/-- Write consecutive bytes of memory. -/
def Op.bytes (k : Nat) : List Byte → Op
  | [] => Op.skip
  | b :: r => Op.thn (Op.byte k b) (Op.bytes (k + 1) r)

/-- The state without the outputs of the command before. -/
def State.quiet (s : State) : State := { s with out := [] }
/-- The outcome of a command whose effect is an operation: the outputs of the command before it are dropped. -/
def Op.next (o : Op) (s : State) : Host.Outcome State Fault Refusal := .next (o.run s.quiet)

theorem Op.next_wf {o : Op} {s t : State} (h : s.Wf) (e : o.next s = .next t) : t.Wf := by
  unfold Op.next at e
  injection e with e
  rw [← e]
  exact o.keeps _ ⟨h.regs, h.mem⟩

theorem Op.next_queue {o : Op} {s t : State} (e : o.next s = .next t) : t.pending = s.pending := by
  unfold Op.next at e
  injection e with e
  rw [← e, o.same]
  rfl

/-! Per-unit state. -/
def State.engS (s : State) (n : Nat) : EngSt := Tab.get s.eng (fun _ => EngSt.init) n
def State.drnS (s : State) (d : Nat) : DrnSt := Tab.get s.drn (fun _ => DrnSt.init) d
def State.ctxS (s : State) (c : Nat) : CtxSt := Tab.get s.ctx (fun _ => CtxSt.init) c
def State.laneS (s : State) (l : Nat) : LaneSt := Tab.get s.lane (fun _ => LaneSt.init) l
def State.stS (s : State) (c : Nat) : StSt := Tab.get s.st (fun _ => StSt.init) c
def State.edgeS (s : State) (e : Nat) : EdgeSt := Tab.get s.edge (fun _ => EdgeSt.init) e
def State.pairV (s : State) (k : Nat) : Nat := Tab.get s.cnt.val (fun _ => 0) k

/-- Change one engine's state beyond its registers. -/
def Op.eng (n : Nat) (f : EngSt → EngSt) : Op :=
  Op.mod fun s => { s with eng := Tab.set s.eng (fun _ => EngSt.init) n (f (s.engS n)) }
/-- Change one drone. -/
def Op.drn (d : Nat) (f : DrnSt → DrnSt) : Op :=
  Op.mod fun s => { s with drn := Tab.set s.drn (fun _ => DrnSt.init) d (f (s.drnS d)) }
/-- Change one context. -/
def Op.ctx (c : Nat) (f : CtxSt → CtxSt) : Op :=
  Op.mod fun s => { s with ctx := Tab.set s.ctx (fun _ => CtxSt.init) c (f (s.ctxS c)) }
/-- Change one lane. -/
def Op.lane (l : Nat) (f : LaneSt → LaneSt) : Op :=
  Op.mod fun s => { s with lane := Tab.set s.lane (fun _ => LaneSt.init) l (f (s.laneS l)) }
/-- Change one self-test controller. -/
def Op.st (c : Nat) (f : StSt → StSt) : Op :=
  Op.mod fun s => { s with st := Tab.set s.st (fun _ => StSt.init) c (f (s.stS c)) }
/-- Change the time unit. -/
def Op.time (f : TimeSt → TimeSt) : Op := Op.mod fun s => { s with time := f s.time }
/-- Change the collector. -/
def Op.col (f : ColSt → ColSt) : Op := Op.mod fun s => { s with col := f s.col }
/-- Change the steward. -/
def Op.stw (f : StwSt → StwSt) : Op := Op.mod fun s => { s with stw := f s.stw }
/-- Change power. -/
def Op.pwr (f : PwrSt → PwrSt) : Op := Op.mod fun s => { s with pwr := f s.pwr }
/-- Change ECC, forager and farrier. -/
def Op.ecc (f : EccSt → EccSt) : Op := Op.mod fun s => { s with ecc := f s.ecc }
/-- Change the counter block. -/
def Op.cnt (f : CntSt → CntSt) : Op := Op.mod fun s => { s with cnt := f s.cnt }

/-- A fresh value that the spec leaves open (log 3). -/
def Op.free (f : W → Op) : Op := Op.dyn fun s =>
  Op.thn (Op.mod fun s => { s with fresh := s.fresh + 1 }) (f (Config.freeWord s.fresh))

/-- `n` free words. -/
def Op.freeWords : Nat → (List W → Op) → Op
  | 0, k => k []
  | n + 1, k => Op.free fun w => Op.freeWords n fun r => k (w :: r)

/-- The code of a party in latches and in REG_DARK_INFO (R394, R507). -/
def partyCode : Party → Nat
  | .host => 63
  | .drone d => d.val
  | .farrier => 62
  | .forager => 61

/-- The latched word of a party for an address (R394). -/
def State.latched (s : State) (p : Party) (a : Nat) : W := Tab.get s.latch (fun _ => 0#32) ((partyCode p) * 0x100000000 + a)

/-- Latch a word for a party. -/
def Op.latch (p : Party) (a : Nat) (v : W) : Op :=
  Op.mod fun s => { s with latch := Tab.set s.latch (fun _ => 0#32) ((partyCode p) * 0x100000000 + a) v }

/-- Return data of a read. -/
def Op.data (p : Party) (v : W) : Op := Op.emit (.read p v)

/-! Power: which domains are in Run, and which are served (R470, R506). -/

/-- The state of a domain (R487). -/
def State.domState (s : State) (d : Nat) : Nat := s.fld (PWR_DOM d) PWR_DOM_STATE
def State.inRun (s : State) (d : Nat) : Bool := s.domState d == 0
def State.served (s : State) (d : Nat) : Bool := Nat.blt (s.domState d) 3
/-- The domain codes of R470. -/
def domEng (n : Nat) : Nat := n
def domHrn (h : Nat) : Nat := 48 + h
def domGrp (g : Nat) : Nat := 52 + g
def domClu (k : Nat) : Nat := 64 + k

/-- Record a dark access (R506, R507). -/
def Op.dark (p : Party) (sp : Space) (a : Nat) (wr : Bool) (dom : Nat) : Op :=
  Op.all [Op.flag REG_STAT (if wr then REG_STAT_DARK_WRITE else REG_STAT_DARK_READ),
    Op.wr REG_DARK_ADDR (BitVec.ofNat 32 a),
    Op.wr REG_DARK_INFO (BitVec.ofNat 32 ((partyCode p) * 0x400 + (if wr then 0x200 else 0) +
      (match sp with | .bar0 => 0 | .bar2 => 0x100) + dom)),
    Op.when (!wr) (Op.data p 0#32)]

/-- Make an access to a register of engine n's or harness h's domain `dom`: dark while the domain is not served, nothing while
the device is off (R506). -/
def Op.gate (p : Party) (a : Nat) (wr : Bool) (dom : Nat) (o : Op) : Op := Op.dyn fun s =>
  if s.pwr.dead then Op.skip
  else if s.served dom then o
  else Op.dark p .bar0 a wr dom

/-- Make an access to a block of the hub or the always-on domain: served unless the device is off (R506). -/
def Op.hub (o : Op) : Op := Op.dyn fun s => if s.pwr.dead then Op.skip else o

end Sys2Proof.Machine
end

