-- ==== Sys2Proof/Machine/Base.lean ====
section
/-! DEFINITION. What every chapter uses: stamp time (R304–R307), MSI-X (R300), event lines (R398), raising and clearing of
faults at their sources (R438, R439, R539), and the counting of events (R490–R493, R498). -/
namespace Sys2Proof.Machine

/-- The numerator of T_c of R304 over 5 · 2^16, in units of 2^-32 ns. -/
def scaleNum (c : Nat) (k : Scale) : Int :=
  5 * 65536 * ((k.e.toNat : Int) * 1000000000 * 4294967296 + k.o) + 4 * 281474976710656 * (c : Int)
    + 4 * k.r * ((c : Int) - k.a)

/-- T_c rounded towards minus infinity to units of 2^-16 ns (R304). -/
def scaleT (c : Nat) (k : Scale) : Int := scaleNum c k / (5 * 4294967296)

/-- The 48-bit timestamp of R307. -/
def scaleTs (c : Nat) (k : Scale) : Nat := uns 48 (scaleT c k)

/-- Stamp time now, as a timestamp (R307). -/
def State.stamp (s : State) : Nat := scaleTs s.time.c s.time.stamp
/-- Line time now, as a timestamp. -/
def State.lineTs (s : State) : Nat := scaleTs s.time.c s.time.line

/-- Raise an MSI-X vector (R300): a masked vector sets its pending bit. -/
def Op.msix (v : Nat) : Op := Op.dyn fun s =>
  if (s.reg (MSIX_TABLE (4 * v + 3))).getLsbD 0 then
    Op.wr (MSIX_PBA (v / 32)) (s.reg (MSIX_PBA (v / 32)) ||| (1#32 <<< (v % 32)))
  else Op.emit (.msix v)

/-- Set an event line of a drone (R398). -/
def Op.event (d line : Nat) : Op := Op.drn d fun x => { x with evpend := x.evpend ||| (1#16 <<< line) }

/-- The key bits of DETAIL of a condition kind (R539). -/
def condKey (kind : Nat) (detail : BitVec 40) : Nat :=
  let d := detail.toNat
  if kind == 0x02 then d % 64 else if kind == 0x04 then d else if kind == 0x10 then d % 2
  else if kind == 0x41 then d % 2 else if kind == 0x44 || kind == 0x45 then d % 64
  else if kind == 0x48 then d % 256 else 0

/-- Is the kind a condition (R437, R482, R535)? -/
def isCond (kind : Nat) : Bool :=
  [0x01, 0x02, 0x03, 0x04, 0x10, 0x15, 0x18, 0x1C, 0x1D, 0x41, 0x42, 0x44, 0x45, 0x48, 0x78, 0x79, 0x7A].contains kind

/-- Merge a set message into a pending one of its source, class and INJ value, or put it at the end (R439). -/
def mergeMsg (m : Msg) : List Msg → List Msg
  | [] => [m]
  | x :: r =>
    if m.isSet && x.isSet && x.src == m.src && x.cls == m.cls && x.inj == m.inj then
      { x with merged := Nat.min (x.merged + 1) 16383 } :: r
    else x :: mergeMsg m r

/-- Would merging the message saturate a MERGED count? -/
def mergeSat (m : Msg) (l : List Msg) : Bool :=
  l.any fun x => m.isSet && x.isSet && x.src == m.src && x.cls == m.cls && x.inj == m.inj && x.merged == 16383

/-- Hand a message to the collector's intake (R439). -/
def Op.intake (m : Msg) : Op := Op.dyn fun s =>
  Op.all [Op.when (mergeSat m s.col.intake) (Op.flag FC_STAT FC_STAT_MERGE_SAT),
    Op.col fun c => { c with intake := mergeMsg m c.intake }]

/-- Does controller `c` test a target (R453)? -/
def State.testOn (s : State) (c kind index : Nat) : Bool :=
  match (s.stS c).run with | some r => r.kind == kind && (kind == 0 || r.index == index) | none => false

/-- Does self-test isolate the source: is its engine, group, cluster or harness under test, or the strip or unit that the message names
(R456)? A slice under test has no tracking, so it has no message of its own. -/
def State.isolated (s : State) (src kind detail : Nat) : Bool :=
  let hub := (s.stS 48).run
  if Nat.ble 0x100 src && Nat.blt src 0x400 then
    (match (s.stS ((src - 0x100) / 16)).run with
      | some r => r.kind == 0 || (kind == 0x27 && r.kind == 3 && r.index == detail % 32)
      | none => false)
  else if Nat.ble 0x500 src && Nat.blt src 0x560 then
    (match (s.stS ((src - 0x500) % 48)).run with | some r => r.kind == 0 | none => false)
  else match hub with
    | none => false
    | some r =>
      if Nat.ble 0x20 src && Nat.blt src 0x2B then
        (r.kind == 9 && r.index == src - 0x20) || (kind == 0x16 && r.kind == 8 && r.index == detail % 128)
      else if Nat.ble 0x400 src && Nat.blt src 0x500 then r.kind == 11 && r.index == (src - 0x400) / 64
      else if Nat.ble 0x562 src && Nat.blt src 0x59A then r.kind == 10 && r.index == (src - 0x562) / 8
      else if Nat.ble 0x600 src && Nat.blt src 0x638 then r.kind == 10 && r.index == (src - 0x600) / 8
      else false

/-- Are the memories of a region those of a target under test (R456)? -/
def State.memTest (s : State) (r : Nat) : Bool :=
  if Nat.blt r 0x60 then (match (s.stS (r % 0x30)).run with | some x => x.kind == 0 | none => false)
  else if Nat.ble 0x62 r then (match (s.stS 48).run with | some x => x.kind == 10 && x.index == (r - 0x62) / 8 | none => false)
  else false

/-- Raise an event at a source (R438). -/
def Op.raise (src kind cls : Nat) (detail : Nat) : Op := Op.dyn fun s =>
  if s.isolated src kind detail then Op.skip
  else Op.intake ⟨src, kind, cls, false, BitVec.ofNat 40 detail, true, 0, false⟩

/-- Raise an event that is sent in spite of isolation (R456, R460). -/
def Op.raiseAlways (src kind cls detail : Nat) : Op :=
  Op.intake ⟨src, kind, cls, false, BitVec.ofNat 40 detail, true, 0, false⟩

/-- Raise an event reported by memory region `r`, with its injection marks (R419, R448). -/
def Op.raiseEcc (r kind cls detail : Nat) (inj note : Bool) : Op := Op.dyn fun s =>
  if s.isolated (0x500 + r) kind detail then Op.skip
  else Op.intake ⟨0x500 + r, kind, cls, inj, BitVec.ofNat 40 detail, true, 0, note⟩

/-- Is it the condition of a source, kind and class with the key of `detail` (R539)? -/
def Cond.is (k : Cond) (src kind cls detail : Nat) : Bool :=
  k.src == src && k.kind == kind && k.cls == cls && k.key == condKey kind (BitVec.ofNat 40 detail)

/-- Does a source hold a condition of a kind with the key of `detail`? -/
def State.holds (s : State) (src kind cls detail : Nat) : Bool := s.col.conds.any fun k => k.is src kind cls detail

/-- Set a condition at a source: no second message while it holds (R438, R539). -/
def Op.condSet (src kind cls detail : Nat) : Op := Op.dyn fun s =>
  if s.isolated src kind detail || s.holds src kind cls detail then Op.skip
  else Op.thn (Op.col fun c => { c with
      conds := c.conds ++ [⟨src, kind, cls, condKey kind (BitVec.ofNat 40 detail), BitVec.ofNat 40 detail⟩] })
    (Op.intake ⟨src, kind, cls, false, BitVec.ofNat 40 detail, true, 0, false⟩)

/-- End a condition at a source: the clear message is sent when it was set (R438). -/
def Op.condClear (src kind cls detail : Nat) : Op := Op.dyn fun s =>
  if s.holds src kind cls detail then
    Op.thn (Op.col fun c => { c with conds := c.conds.filter fun k => !k.is src kind cls detail })
      (Op.intake ⟨src, kind, cls, false, BitVec.ofNat 40 detail, false, 0, false⟩)
  else Op.skip

/-- The source number of unit `u` of engine `n` (R436). -/
def srcEng (n u : Nat) : Nat := 0x100 + 16 * n + u

/-! Counting (R490–R492, R498). -/

/-- The 48-bit value of counter `i` inside its pair. -/
def cntHalf (v i : Nat) : Nat := if i % 2 == 0 then v % 2 ^ 48 else v / 2 ^ 48 % 2 ^ 48
/-- A pair's value with one counter replaced. -/
def pairPut (v i x : Nat) : Nat :=
  if i % 2 == 0 then v / 2 ^ 48 * 2 ^ 48 + x % 2 ^ 48 else v % 2 ^ 48 + (x % 2 ^ 48) * 2 ^ 48

/-- The address of the configuration word of counter `i` (R500). -/
def cntCfgAddr (i : Nat) : Nat := if i % 2 == 0 then CNT_CFG_LO (i / 2) else CNT_CFG_HI (i / 2)

/-- Set one counter. -/
def Op.cntPut (i x : Nat) : Op := Op.mod fun s =>
  { s with cnt := { s.cnt with val := Tab.set s.cnt.val (fun _ => 0) (i / 2) (pairPut (s.pairV (i / 2)) i x) } }

/-- Add to counter `i`: passing 2^48 - 1 keeps the sum modulo 2^48 and puts a carry in flight (R490, R491). -/
def Op.cntAdd (i k : Nat) : Op := Op.dyn fun s =>
  let x := cntHalf (s.pairV (i / 2)) i + k
  Op.thn (Op.cntPut i x)
    (Op.when (Nat.ble (2 ^ 48) x) (Op.cnt fun c => { c with carry := c.carry ++ [i] }))

/-- Does counter `i` count event (class, index, event) now (R490, R492, R496)? -/
def State.counts (s : State) (i cls idx ev : Nat) : Bool :=
  let w := s.reg (cntCfgAddr i)
  w.getLsbD 31 && getFld w CNT_CFG_LO_CLASS == cls && getFld w CNT_CFG_LO_INDEX == idx && getFld w CNT_CFG_LO_EVENT == ev
    && !(i % 2 == 1 && s.bit (PAIR_CTL (i / 2)) PAIR_CTL_CHAIN) && !s.bit (CNT_BANK_CTL (i / 2048)) CNT_BANK_CTL_FREEZE

/-- The counters whose configuration words differ from reset. -/
def State.cntListed (s : State) : List Nat :=
  s.regs.filterMap fun e =>
    if Nat.ble 0x300000 e.1 && Nat.blt e.1 0x320000 then
      (if e.1 % 0x20 == 0x10 then some ((e.1 - 0x300000) / 0x20 * 2)
       else if e.1 % 0x20 == 0x14 then some ((e.1 - 0x300000) / 0x20 * 2 + 1) else none)
    else none

/-- The bandwidth monitors that count a class and event, as KIND and DIR (R498). -/
def bwKind (cls ev : Nat) : Option (Nat × Nat) :=
  if cls == 3 && ev == 0 then some (0, 0) else if cls == 3 && ev == 4 then some (0, 1)
  else if cls == 2 && ev == 0 then some (1, 0) else if cls == 2 && ev == 1 then some (1, 1) else none

/-- The bandwidth monitors that are enabled for an index. -/
def State.bwListed (s : State) (kind dir idx : Nat) : List Nat :=
  s.regs.filterMap fun e =>
    if Nat.ble 0x321000 e.1 && Nat.blt e.1 0x322000 && e.1 % 0x10 == 0 && e.2.getLsbD 31
        && getFld e.2 BW_CFG_KIND == kind && getFld e.2 BW_CFG_DIR == dir && getFld e.2 BW_CFG_INDEX == idx
    then some ((e.1 - 0x321000) / 0x10) else none

/-- Count `k` occurrences of an event (R492, R498). -/
def Op.countEv (cls idx ev k : Nat) : Op := Op.dyn fun s =>
  Op.all [Op.each (s.cntListed.filter fun i => s.counts i cls idx ev) fun i => Op.cntAdd i k,
    match bwKind cls ev with
    | none => Op.skip
    | some (kd, dr) => Op.each (s.bwListed kd dr idx) fun m => Op.cnt fun c =>
        let b := Tab.get c.bw (fun _ => (0, false)) m
        { c with bw := Tab.set c.bw (fun _ => (0, false)) m (b.1 + k, b.2) }]

end Sys2Proof.Machine
end

