-- ==== Sys2Proof/Machine/Line.lean ====
section
/-! DEFINITION. The line signal to the bit (Oszal line signal): positions, sync and pilot generators, mapping, the distribution
matcher, gait entries and their checks, and the overhead frame. -/
namespace Sys2Proof.Machine

/-- The position of non-pilot symbol `u` of a superframe (R37). -/
def symPos (u : Nat) : Nat := 257 + u + u / 31
/-- The position of overhead symbol `o` and of payload symbol `q` (R37). -/
def ohPos (o : Nat) : Nat := symPos o
def payPos (q : Nat) : Nat := symPos (512 + q)
/-- The position of pilot `j` (R36). -/
def pilotPos (j : Nat) : Nat := 256 + 32 * j

/-- The bits of a linear recurrence: `n` further bits after the list `l` (newest first), each the xor of those `a` and `b` back. -/
def lfsrBits (a b : Nat) : Nat → List Bool → List Bool
  | 0, l => l
  | n + 1, l => lfsrBits a b n ((l.getD (a - 1) false != l.getD (b - 1) false) :: l)

/-- The seed of the sync word, b(0) first (R42). -/
def syncSeed : List Bool := [true, false, true, true, false, false, true, true, true, false, true]
/-- The seed of the pilots, c(0) first (R44). -/
def pilotSeed : List Bool :=
  [true, false, false, true, false, true, false, false, true, true, true, false, true, true, false]
/-- Sync bit b(n) (R42). -/
def syncBit (n : Nat) : Bool := (lfsrBits 9 11 (n - 10) syncSeed.reverse).getD (if Nat.blt n 11 then 10 - n else 0) false
/-- Pilot bit c(n) (R44). -/
def pilotBit (n : Nat) : Bool := (lfsrBits 1 15 (n - 14) pilotSeed.reverse).getD (if Nat.blt n 15 then 14 - n else 0) false

/-- The QPSK symbol of two bits (R43). -/
def qpsk (e f : Bool) : Int × Int := (if e then -1 else 1, if f then -1 else 1)
/-- Sync symbol `k` of X, and of Y under an epoch (R43). -/
def syncX (k : Nat) : Int × Int := qpsk (syncBit (2 * k)) (syncBit (2 * k + 1))
def syncY (epoch : Bool) (k : Nat) : Int × Int :=
  qpsk (syncBit (512 + 2 * k) != epoch) (syncBit (513 + 2 * k) != epoch)
/-- Pilot `j` of X and of Y (R44). -/
def pilotX (j : Nat) : Int × Int := qpsk (pilotBit (2 * j)) (pilotBit (2 * j + 1))
def pilotY (j : Nat) : Int × Int := qpsk (pilotBit (4080 + 2 * j)) (pilotBit (4081 + 2 * j))
/-- Overhead raw bit `r` of slice bits `d` (R59). -/
def ohRaw (d : List Bool) (r : Nat) : Bool := d.getD (r % 256) false != pilotBit (8160 + r)

/-- The Gray label of an amplitude index, and the level of an index and a sign (R46, R47). -/
def gray (i : Nat) : Nat := i ^^^ (i / 2)
def level (s : Bool) (i : Nat) : Int := (if s then -1 else 1) * (2 * (i : Int) + 1)
/-- The amplitude index of a Gray label of at most 2 bits. -/
def ungray (l : Nat) : Nat := if l == 3 then 2 else if l == 2 then 3 else l
/-- The point of a label c0 to c(m-1) (R47); 6, 4 or 2 bits. -/
def labelPoint (c : List Bool) : Int × Int :=
  let b := fun i => if c.getD i false then 1 else 0
  if c.length == 6 then
    (level (c.getD 0 false) (ungray (2 * b 2 + b 3)), level (c.getD 1 false) (ungray (2 * b 4 + b 5)))
  else if c.length == 4 then (level (c.getD 0 false) (b 2), level (c.getD 1 false) (b 3))
  else (level (c.getD 0 false) 0, level (c.getD 1 false) 0)

/-- Factorial, by structural recursion. -/
def fact : Nat → Nat
  | 0 => 1
  | n + 1 => (n + 1) * fact n
/-- The multinomial coefficient of R50. -/
def multinomial (n : Nat) (counts : List Nat) : Nat := fact n / (counts.map fact).foldl (· * ·) 1

/-- One output of dm_encode: the amplitude chosen, the remaining rank and the remaining counts (R50). -/
def dmPick (left : Nat) : Nat → Nat → List Nat → List Nat → Nat × Nat × List Nat
  | _, v, pre, [] => (0, v, pre)
  | a, v, pre, 0 :: r => dmPick left (a + 1) v (pre ++ [0]) r
  | a, v, pre, (k + 1) :: r =>
    let c := multinomial left (pre ++ k :: r)
    if Nat.blt v c then (a, v, pre ++ k :: r) else dmPick left (a + 1) (v - c) (pre ++ [k + 1]) r
/-- dm_encode of R50 for a block of `n` amplitudes. -/
def dmEncode : Nat → Nat → List Nat → List Nat
  | 0, _, _ => []
  | n + 1, v, counts => let t := dmPick n 0 v [] counts; t.1 :: dmEncode n t.2.1 t.2.2
/-- The number of sequences below the ones that start with amplitude `a`. -/
def dmBelow (left a : Nat) (counts : List Nat) : Nat :=
  (List.range a).foldl (fun s x =>
    let k := counts.getD x 0
    s + (if k == 0 then 0 else multinomial left (counts.set x (k - 1)))) 0
/-- The rank of a decided sequence (R50, R161): none when its composition is wrong. -/
def dmRank : List Nat → List Nat → Option Nat
  | [], counts => if counts.all (· == 0) then some 0 else none
  | a :: r, counts =>
    let k := counts.getD a 0
    if k == 0 then none
    else (dmRank r (counts.set a (k - 1))).map (· + dmBelow r.length a counts)

/-! Gait entries (R52–R57). -/

/-- Bits per symbol of CONST: 2, 4 or 6 (R46). -/
def constBits (c : Nat) : Nat := 2 * (c + 1)
/-- Overhead OH in percent (R17, R52). -/
def ohPct (o : Nat) : Nat := if o == 0 then 15 else if o == 1 then 20 else if o == 2 then 25 else 27

/-- A gait entry's fields (R52). -/
structure Gait where
  valid : Bool
  cnst  : Nat
  oh    : Nat
  ent   : Nat
  rate  : Nat
  slots : Nat
  n1    : Nat
  n3    : Nat
  n5    : Nat
  deriving DecidableEq, Repr
/-- The fields of three words. -/
def gaitOf (w0 w1 w2 : W) : Gait :=
  ⟨w0.getLsbD 31, getFld w0 GAIT_W0_CONST, getFld w0 GAIT_W0_OH, getFld w0 GAIT_W0_ENTROPY, getFld w0 GAIT_W0_SYMRATE,
   getFld w1 GAIT_W1_SLOTS, getFld w2 GAIT_W2_N1, getFld w2 GAIT_W2_N3, getFld w2 GAIT_W2_N5⟩
/-- The entry `i` of engine `n`. -/
def State.gait (s : State) (n i : Nat) : Gait := gaitOf (s.reg (GAIT_W0 n i)) (s.reg (GAIT_W1 n i)) (s.reg (GAIT_W2 n i))
/-- SR in GBd over 4,096 (R52). -/
def Gait.sr (g : Gait) : Nat := 64 * 4096 + g.rate * 176
/-- DM input bits per block (R52). -/
def Gait.k (g : Gait) : Nat := g.ent - 32
/-- 128 E2 / 2: N1 + 9 N3 + 25 N5 + 49 N7 (R51). -/
def Gait.energy (g : Gait) : Nat := g.n1 + 9 * g.n3 + 25 * g.n5 + 49 * (128 - g.n1 - g.n3 - g.n5)
/-- The payload scale S of R130: 4,096 √(2 / E2), rounded to nearest with halves to even. -/
def Gait.scale (g : Gait) : Nat := rneSqrt (4096 * 4096 * 128) g.energy
/-- SLOTS x 5 Gb/s is at most C of R53, in integers: C = SR (2 / 65,536) (980 k + 62,728 (2 - m OH / (1 + OH))). -/
def Gait.slotsFit (g : Gait) : Bool :=
  let m := constBits g.cnst
  let o := ohPct g.oh
  Nat.ble (g.slots * 5 * 4096 * 65536 * (100 + o)) (g.sr * 2 * (980 * g.k * (100 + o) + 62728 * (2 * (100 + o) - m * o)))
/-- The first failing check of R54, or 0. -/
def Gait.bad (g : Gait) : Nat :=
  if g.cnst == 3 then 1
  else if Nat.blt 4096 g.rate then 2
  else if !((g.cnst == 0 && g.ent == 32) || (g.cnst == 1 && Nat.ble 33 g.ent && Nat.ble g.ent 160)
      || (g.cnst == 2 && Nat.ble 33 g.ent && Nat.ble g.ent 272)) then 3
  else if Nat.blt 128 (g.n1 + g.n3 + g.n5) || (g.cnst == 0 && g.n1 != 128)
      || (g.cnst == 1 && (g.n5 != 0 || g.n1 + g.n3 + g.n5 != 128)) then 4
  else if Nat.blt (multinomial 128 [g.n1, g.n3, g.n5, 128 - g.n1 - g.n3 - g.n5]) (2 ^ g.k) then 5
  else if !(Nat.ble 1 g.slots && Nat.ble g.slots 320 && g.slotsFit) then 6
  else 0
/-- Decoder units of R19: ceil(SLOTS x 5 (1 + OH) / 800). -/
def Gait.units (g : Gait) : Nat := (g.slots * 5 * (100 + ohPct g.oh) + 79999) / 80000
/-- Does a size reach W(n) / 1,000 of R223? -/
def Gait.sized (g : Gait) (size : Nat) : Bool :=
  Nat.ble (g.sr * constBits g.cnst * 2 * 62728) (size * 1000 * 65536 * 4096)
/-- The guard Gd of R246. -/
def Gait.guard (g : Gait) : Nat := (41472 * g.sr + 327680 * 4096 - 1) / (327680 * 4096)
/-- The check word of R64: CRC over words 0 to 3, little-endian. -/
def State.gaitCheck (s : State) (n i : Nat) : Nat :=
  crc16 (leBytes 4 (s.reg (GAIT_W0 n i)).toNat ++ leBytes 4 (s.reg (GAIT_W1 n i)).toNat
    ++ leBytes 4 (s.reg (GAIT_W2 n i)).toNat ++ leBytes 4 0)

/-- The active and shadow gait indices (R56, R515). -/
def State.txAct (s : State) (n : Nat) : Nat := s.fld (GAIT_SEL n + 0x4000) GAIT_SEL_TX_IDX
def State.rxAct (s : State) (n : Nat) : Nat := s.fld (GAIT_SEL n + 0x4000) GAIT_SEL_RX_IDX
def State.txShadow (s : State) (n : Nat) : Nat := s.fld (GAIT_SEL n) GAIT_SEL_TX_IDX
def State.rxShadow (s : State) (n : Nat) : Nat := s.fld (GAIT_SEL n) GAIT_SEL_RX_IDX
/-- The symbol rate of the engine over 4,096 GBd: that of the active transmit entry (R141). -/
def State.engSr (s : State) (n : Nat) : Nat := (s.gait n (s.txAct n)).sr

/-! Superframe counts and the receiver's state. -/
def State.sfTx (s : State) (n : Nat) : BitVec 24 := BitVec.ofNat 24 (s.fld (ENG_SF_TX n) ENG_SF_TX_SN)
def State.sfRx (s : State) (n : Nat) : BitVec 24 := BitVec.ofNat 24 (s.fld (ENG_SF_RX n) ENG_SF_RX_COUNT)
def State.ofs (s : State) (n : Nat) : BitVec 24 := BitVec.ofNat 24 (s.fld (ENG_SF_OFS n) ENG_SF_OFS_OFS)
def State.ofsValid (s : State) (n : Nat) : Bool := s.bit (ENG_SF_OFS n) ENG_SF_OFS_VALID
def State.rxState (s : State) (n : Nat) : Nat := s.fld (RX_STAT n) RX_STAT_STATE
def State.rxLocked (s : State) (n : Nat) : Bool := s.rxState n == 7
def State.rxAcq (s : State) (n : Nat) : Bool := Nat.ble 2 (s.rxState n) && Nat.ble (s.rxState n) 6
/-- The transmitter is on from the write of EN = 1 until ON returns to 0 (R126). -/
def State.txIsOn (s : State) (n : Nat) : Bool := (s.engS n).tx != .off

/-! Lists of carriers per superframe and codeword geometry (R206, R213–R217). -/

/-- Rows, punctured bits of an overhead (R206). -/
def ohRows (o : Nat) : Nat := if o == 0 then 12 else if o == 1 then 16 else if o == 2 then 20 else 21
def ohPunct (o : Nat) : Nat := if o == 0 then 153 else if o == 1 then 189 else if o == 2 then 225 else 9
/-- N_t, P_t and L (R206). -/
def cwBits (o : Nat) : Nat := 300 * (100 + ohPct o)
def cwSlots (o : Nat) : Nat := cwBits o - 30000
def Gait.cwLen (g : Gait) : Nat := cwBits g.oh / constBits g.cnst
/-- Parity slots of codeword symbol `j` (R215). -/
def paritySlots (pt l j : Nat) : Nat := (j + 1) * pt / l - j * pt / l
/-- The interleaver of R216. -/
def interleave (i : Nat) : Nat := 7919 * i % 30000
/-- The stream position Z of R213. -/
def streamPos (sn z : Nat) : Nat := 125456 * sn + z

/-- Is there an information entry at block row `b`, column `c` of the base mask (R208)? -/
def ldpcInfo (b c : Nat) : Bool :=
  if Nat.blt b 12 then c % 12 == b % 12 || c % 12 == (b + 3) % 12 || c % 12 == (b + 7) % 12
  else c % 9 == b - 12
/-- The shift of an information entry (R209). -/
def ldpcShift (b c : Nat) : Nat := (53 * (b + 1) * (c + 1) + 11 * c * c + 7 * b) % 384
/-- Check sum of block row `b`, index `i` over the information bits (R211). -/
def ldpcSum (u : Nat → Bool) (b i : Nat) : Bool :=
  (List.range 79).foldl (fun a c => if ldpcInfo b c then
    (let k := 384 * c + (i + ldpcShift b c) % 384; a != (if Nat.blt k 30045 then u k else false)) else a) false
/-- Parity bit `i` of parity block `b` (R211): the staircase sums every block row up to `b`. -/
def ldpcParity (u : Nat → Bool) (b i : Nat) : Bool :=
  (List.range (b + 1)).foldl (fun a r => a != ldpcSum u r i) false
/-- The variable that transmitted parity bit `t` of an overhead comes from (R210). -/
def parityVar (o t : Nat) : Nat := 30336 + ohPunct o + t

/-- Product in GF(2^15) with x^15 + x + 1 (R212). -/
def gfMul (a b : Nat) : Nat :=
  (List.range 15).foldl (fun s i =>
    let s2 := s * 2
    let s3 := if Nat.ble 32768 s2 then (s2 - 32768) ^^^ 3 else s2
    if b.testBit (14 - i) then s3 ^^^ a else s3) 0
/-- α^n in GF(2^15). -/
def gfPow : Nat → Nat
  | 0 => 1
  | n + 1 => gfMul (gfPow n) 2
/-- Product of polynomials over GF(2^15), lowest coefficient first. -/
def gfPolyMul1 (p : List Nat) (r : Nat) : List Nat :=
  List.zipWith (· ^^^ ·) (0 :: p) (p.map (gfMul r) ++ [0])
/-- The minimal polynomial of α^i over GF(2): the product over its 15 conjugates (R212). -/
def minPoly (i : Nat) : List Nat :=
  ((List.range 15).foldl (fun st _ => (gfPolyMul1 st.1 st.2, gfMul st.2 st.2)) ([1], gfPow i)).1
/-- A GF(2) polynomial as a number. -/
def polyNat (p : List Nat) : Nat := p.foldr (fun b a => b % 2 + 2 * a) 0
/-- Carry-less product. -/
def clMul (a b : Nat) : Nat := (List.range 64).foldl (fun s i => if b.testBit i then s ^^^ (a * 2 ^ i) else s) 0
/-- The generator g(x) of degree 45 (R212). -/
def bchGen : Nat := clMul (clMul (polyNat (minPoly 1)) (polyNat (minPoly 3))) (polyNat (minPoly 5))
/-- The remainder of R212, by one data bit at a time. -/
def bchStep (g r : Nat) (d : Bool) : Nat :=
  let m := r.testBit 44 != d
  let r2 := r * 2 % 2 ^ 45
  if m then r2 ^^^ (g % 2 ^ 45) else r2
/-- The 45 BCH parity bits of the data bits, u[30,000] first (R212). -/
def bchParity (d : List Bool) : List Bool :=
  let r := d.foldl (bchStep bchGen) 0
  (List.range 45).map fun e => r.testBit (44 - e)

end Sys2Proof.Machine
end

