-- ==== Sys2Proof/Machine/Swap.lean ====
section
/-! DEFINITION. The shadow and active copies: what each swap block holds (R25, R513), how a request is judged (R27–R29, R542
and the content checks R97, R139, R141, R181, R195, R225, R244, R417, R456), and how a swap exchanges the copies (R21–R24). -/
namespace Sys2Proof.Machine

/-- Does block `b` have a part on the receive side (`rx`) or the transmit side (R25)? -/
def blkOn (rx : Bool) (b : Nat) : Bool :=
  if rx then [1, 3, 5, 7, 9, 10, 12, 14].contains b else [0, 2, 4, 6, 8, 10, 11, 13].contains b

/-- The blocks named by a BLOCKS field. -/
def blksOf (w : Nat) : List Nat := (List.range 15).filter (fun i => w.testBit i)

/-- Offset of an address in engine `n`'s block, if it lies there. -/
def engOff (n a : Nat) : Option Nat :=
  if Nat.ble (0x1000000 + 0x80000 * n) a && Nat.blt a (0x1000000 + 0x80000 * (n + 1)) then
    some (a - (0x1000000 + 0x80000 * n)) else none

/-- The bits of shadow word `a`, as far as they are assigned, that belong to block `b` of engine `n` on a side (R513, R514); CD responses are in memory. -/
def blkMask (n b : Nat) (rx : Bool) (a : Nat) : W :=
  let all := impOf a
  if b == 11 then (if a == POOL_ENC n then all else 0)
  else if b == 12 then (if a == POOL_DEC n then all else 0)
  else if b == 13 then (if Nat.ble (CAL_IN n 0) a && Nat.blt a (CAL_IN n 320) then all else 0)
  else if b == 14 then (if Nat.ble (CAL_OUT n 0) a && Nat.blt a (CAL_OUT n 320) then all else 0)
  else match engOff n a with
  | none => 0
  | some o =>
    if b == 0 then (if o == 0x50 then 0xF else 0)
    else if b == 1 then (if o == 0x50 then 0xF0 else 0)
    else if b == 2 then
      (if (Nat.ble 0x10008 o && Nat.blt o 0x10030) || (Nat.ble 0x10100 o && Nat.blt o 0x10800) then all else 0)
    else if b == 3 then (if Nat.ble 0x20008 o && Nat.blt o 0x2002C then all else 0)
    else if b == 6 then
      (if o == 0x30000 then 0x7F0F else if Nat.ble 0x30010 o && Nat.blt o 0x30020 then all else 0)
    else if b == 7 then
      (if o == 0x30000 then 0x7F0F0000 else if Nat.ble 0x30020 o && Nat.blt o 0x30030 then all else 0)
    else if b == 8 then (if o == 0x60000 then 0x800F else 0)
    else if b == 9 then (if o == 0x60000 then 0x800F0000 else 0)
    else if b == 10 then
      (if rx then (if (Nat.ble 0x8020 o && Nat.blt o 0x8030) || (Nat.ble 0x8060 o && Nat.blt o 0x8070)
            || (Nat.ble 0x8400 o && Nat.blt o 0x8800) then all else 0)
       else (if Nat.ble 0x8030 o && Nat.blt o 0x8040 then all else 0))
    else 0

/-- The distance from a shadow word to its active copy (R515). -/
def viewDist (b : Nat) : Nat := if b == 13 || b == 14 then 0x30000 else 0x4000

/-- The shadow words of a block whose shadow or active copy differs from reset. -/
def State.blkWords (s : State) (n b : Nat) (rx : Bool) : List Nat :=
  let d := viewDist b
  s.regs.filterMap fun e =>
    if blkMask n b rx e.1 != 0 then some e.1
    else if Nat.ble d e.1 && blkMask n b rx (e.1 - d) != 0 && !(s.regs.any fun x => x.1 == e.1 - d) then some (e.1 - d)
    else none

/-- Exchange the copies of one word under a mask (R21). -/
def Op.exch (a d : Nat) (m : W) : Op := Op.dyn fun s =>
  let sh := s.reg a
  let ac := s.reg (a + d)
  Op.thn (Op.wr a ((sh &&& ~~~m) ||| (ac &&& m))) (Op.wr (a + d) ((ac &&& ~~~m) ||| (sh &&& m)))

/-- Is block `b` pending, or reserved by an open negotiation (R29)? -/
def State.pendBlk (s : State) (n b : Nat) : Bool :=
  let e := s.engS n
  e.swaps.any (fun x => x.blk == b) || e.prop.blocks.contains b || e.resp.blocks.contains b

/-- ENG_SWAP_PEND from the pending swaps (R31) and, since R66 and R70 reserve blocks "as pending", from the reservations of an open
negotiation (DEDUCED, log 26). -/
def Op.pendReg (n : Nat) : Op := Op.dyn fun s =>
  Op.setF (ENG_SWAP_PEND n) ENG_SWAP_PEND_PEND
    ((List.range 15).foldl (fun a b => if s.pendBlk n b then a + 2 ^ b else a) 0)

/-! TOTAL of the chains (R122, R123, R174, R175). -/
def txTotal (mode : W) : Nat :=
  741 + (if getFld mode TX_MODE_GLO == 0 then 4 else 384) + (if getFld mode TX_MODE_CDPRE == 0 then 0 else 448)
def rxTotal (mode : W) : Nat := 4808 + (if getFld mode RX_MODE_GLO == 0 then 4 else 448)
/-- Load TX_LAT and RX_LAT from the active copies. -/
def Op.latRegs (n : Nat) : Op := Op.dyn fun s =>
  Op.all [Op.setF (TX_LAT n) TX_LAT_TOTAL (txTotal (s.reg (TX_MODE n + 0x4000))),
    Op.setF (RX_LAT n) RX_LAT_TOTAL (rxTotal (s.reg (RX_MODE n + 0x4000)))]

/-- The page number of a side in a GLO_SEL word (R193, R201). -/
def gloPage (w : W) (rx : Bool) : Nat :=
  if rx then getFld w GLO_SEL_RX_PATH * 256 + getFld w GLO_SEL_RX_POWER * 16 + getFld w GLO_SEL_RX_OCC
  else getFld w GLO_SEL_TX_PATH * 256 + getFld w GLO_SEL_TX_POWER * 16 + getFld w GLO_SEL_TX_OCC
/-- VALID of a page (R194). -/
def State.pageValid (s : State) (n p : Nat) : Bool := (s.reg (GLO_PAGE_VALID n (p / 32))).getLsbD (p % 32)
/-- Is page `p` open? -/
def State.pageOpen (s : State) (n p : Nat) : Bool :=
  s.bit (GLO_PAGE_STAT n) GLO_PAGE_STAT_IS_OPEN && s.fld (GLO_PAGE_STAT n) GLO_PAGE_STAT_PAGE == p

/-- The units of a POOL_DEC word (R233). -/
def decUnits (w : W) : List Nat :=
  [getFld w POOL_DEC_UNIT0, getFld w POOL_DEC_UNIT1, getFld w POOL_DEC_UNIT2].take (getFld w POOL_DEC_COUNT)
/-- Are there no repeats? -/
def distinct : List Nat → Bool
  | [] => true
  | x :: r => !r.contains x && distinct r
/-- Unique elements. -/
def uniq (l : List Nat) : List Nat := l.foldr (fun x a => if a.contains x then a else x :: a) []
/-- The units of other engines' active and pending assignments. -/
def State.otherUnits (s : State) (n : Nat) : List Nat :=
  uniq ((List.range 48).foldr (fun e a => if e == n then a else
    decUnits (s.reg (POOL_DEC e + 0x4000)) ++ (if s.pendBlk e 12 then decUnits (s.reg (POOL_DEC e)) else []) ++ a) [])
/-- Units of every active or pending assignment (R234 ASSIGNED). -/
def State.assigned (s : State) : List Nat := uniq (s.otherUnits 48)
/-- Is the unit named by another engine's pending swap or reservation? -/
def State.unitPend (s : State) (n u : Nat) : Bool :=
  (List.range 48).any fun e => e != n && s.pendBlk e 12 && (decUnits (s.reg (POOL_DEC e))).contains u

/-- UNIT_BUSY of R225, with R456 (TEST) and R480 (a group not in Run). -/
def State.unitBusy (s : State) (n u : Nat) : Bool :=
  let w := s.reg (POOL_UNIT u)
  let st := getFld w POOL_UNIT_STATE
  st == 3 || st == 4 || (st == 1 && getFld w POOL_UNIT_OWNER != n) || s.unitPend n u
    || (st == 2 && !(decUnits (s.reg (POOL_DEC n + 0x4000))).contains s.mir.target)
    || !s.inRun (domGrp (u / 8))

/-- The cases of R225 that hold for DEC and ENC of engine `n` judged with gaits `gr` and `gt`: POOL_STAT fields. POOL_FULL counts
the units as they will stand after the boundary, so not the engine's own outgoing ones (DEDUCED, log 26). -/
def State.poolBad (s : State) (n : Nat) (dec enc : Bool) (gr gt : Gait) : List Fld :=
  let w := s.reg (POOL_DEC n)
  let us := decUnits w
  let c := getFld w POOL_DEC_COUNT
  let l := s.fld (POOL_ENC n) POOL_ENC_LANES
  (if dec && !(distinct us && us.all (fun u => Nat.blt u 88)) then [POOL_STAT_BAD_LIST] else [])
  ++ (if dec && us.any (fun u => Nat.blt u 88 && s.unitBusy n u) then [POOL_STAT_UNIT_BUSY] else [])
  ++ (if (dec && c != 0 && c != gr.units) || (enc && l != 0 && l != gt.units) then [POOL_STAT_COUNT_MISMATCH] else [])
  ++ (if (dec && c != 0 && !gr.sized c) || (enc && l != 0 && !gt.sized l) then [POOL_STAT_UNDERSIZED] else [])
  ++ (if dec && Nat.blt 84 (uniq (us ++ s.otherUnits n)).length then [POOL_STAT_POOL_FULL] else [])

/-! Calendar shares (R242–R246). -/

/-- An enabled calendar entry. -/
structure CalEnt where
  eng : Nat
  idx : Nat
  com : Bool
  ctx : Nat
  deriving DecidableEq, Repr

/-- The enabled entries of one direction whose words lie in the shadow (`sh`) or the active copies. -/
def State.calAll (s : State) (out sh : Bool) : List CalEnt :=
  let base := (if out then 0x748000 else 0x730000) + (if sh then 0 else 0x30000)
  s.regs.filterMap fun e =>
    if Nat.ble base e.1 && Nat.blt e.1 (base + 0x18000) && e.2.getLsbD 31 then
      some ⟨(e.1 - base) / 0x800, (e.1 - base) % 0x800 / 4, e.2.getLsbD 30, getFld e.2 CAL_IN_CTX⟩
    else none
/-- The entries of a direction as they will stand: the shadow share of engine `n`, the shadow of a pending share, else the
active share (R244). -/
def State.calAfter (s : State) (out : Bool) (n : Nat) : List CalEnt :=
  let b := if out then 14 else 13
  (s.calAll out true).filter (fun e => e.eng == n || s.pendBlk e.eng b)
    ++ (s.calAll out false).filter (fun e => e.eng != n && !s.pendBlk e.eng b)

/-- State, class and limits of a context (R240, R270). -/
def State.ctxState (s : State) (c : Nat) : Nat := s.fld (CTX_STAT c) CTX_STAT_STATE
def State.ctxCom (s : State) (c : Nat) : Bool := s.bit (CTX_CFG c) CTX_CFG_COMMITTED

/-- Tq of R256 for a set of engines, over their lowest SR, that of engine `n` being `own`: (numerator, denominator) in ns. -/
def State.tq (s : State) (n own : Nat) (es : List Nat) : Nat × Nat :=
  let sr := es.foldl (fun m e => Nat.min m (if e == n then own else s.engSr e)) (240 * 4096)
  (200 * sr + 2 * 65536 * 4096, sr)

/-- The cases of R244 that hold for one direction of engine `n`, with gait `g` and the engine's symbol rate `sr` (over 4,096) as
they will stand: CLI_STAT fields. -/
def State.calBad (s : State) (n : Nat) (out : Bool) (g : Gait) (sr : Nat) (lead : Bool) : List Fld :=
  let mine := (s.calAll out true).filter (fun e => e.eng == n)
  let aft := s.calAfter out n
  let cs := uniq (mine.map (·.ctx))
  let cnt := fun c => (aft.filter (fun e => e.ctx == c)).length
  let engs := fun c => uniq ((aft.filter (fun e => e.ctx == c)).map (·.eng))
  let was := uniq (((s.calAll out false).filter (fun e => e.eng == n)).map (·.ctx))
  let touched := uniq (cs ++ was)
  let live := fun c => s.ctxState c != 0
  let slots := fun c => s.fld (CTX_SLOTS c) CTX_SLOTS_MAX
  (if mine.any (fun e => Nat.ble g.slots e.idx) then [CLI_STAT_ENTRY_RANGE] else [])
  ++ (if Nat.blt g.slots ((mine.filter (·.com)).length + g.guard) then [CLI_STAT_GUARD] else [])
  ++ (if cs.any (fun c => !live c) then [CLI_STAT_CTX_STATE] else [])
  ++ (if mine.any (fun e => e.com != s.ctxCom e.ctx) then [CLI_STAT_CLASS] else [])
  ++ (if touched.any (fun c => s.ctxCom c && (Nat.blt 1 (engs c).length || (cnt c != 0 && cnt c != slots c)))
      then [CLI_STAT_COMMITTED_SPREAD] else [])
  ++ (if touched.any (fun c => !s.ctxCom c && (Nat.blt (slots c) (cnt c)
        || (cnt c != 0 && Nat.blt (cnt c) (s.fld (CTX_SLOTS c) CTX_SLOTS_MIN)))) then [CLI_STAT_ELASTIC_RANGE] else [])
  ++ (if cs.any (fun c => !s.ctxCom c && Nat.blt 4 (engs c).length) then [CLI_STAT_SPREAD] else [])
  ++ (if Nat.blt 10240 aft.length then [CLI_STAT_TOTAL] else [])
  ++ (if cs.any (fun c => !s.ctxCom c && (let t := s.tq n sr (engs c)
        Nat.blt (s.fld (CTX_BOUND c) CTX_BOUND_BOUND * t.2) (t.1 + 200 * t.2))) then [CLI_STAT_BOUND_LOW] else [])
  ++ (if !out && !lead && touched.any (fun c => !s.ctxCom c &&
        Nat.blt (mine.filter (fun e => e.ctx == c)).length
          ((s.calAll out false).filter (fun e => e.eng == n && e.ctx == c)).length) then [CLI_STAT_SHRINK_LEAD] else [])

/-! Content checks of the engine's own blocks. -/

/-- R139: the TXC copy at distance `d` (0 shadow, 0x4000 active) is invalid. -/
def State.txcBad (s : State) (n d : Nat) : Bool :=
  let m := s.reg (TX_MODE n + d)
  getFld m TX_MODE_GLO == 3 || getFld m TX_MODE_CDPRE == 3 || Nat.blt (getFld m TX_MODE_ROLLOFF) 5
    || Nat.blt 200 (getFld m TX_MODE_ROLLOFF) || Nat.blt 32 (s.fld (TX_CD_OVL n + d) TX_CD_OVL_OVL)
    || (List.range 4).any fun c =>
        let i := sgn 8 (s.fld (TX_DELAY n c + d) TX_DELAY_INT); i < -64 ∨ 63 < i
/-- R181: the shadow RXC copy is invalid. -/
def State.rxcBad (s : State) (n : Nat) : Bool :=
  let m := s.reg (RX_MODE n)
  let nt := s.fld (RX_EQ_CFG n) RX_EQ_CFG_NTAPS
  let pa := s.fld (RX_PR_CFG n) RX_PR_CFG_PAVG
  let bw := s.fld (RX_PR_CFG n) RX_PR_CFG_BWIN
  getFld m RX_MODE_CDSRC == 3 || getFld m RX_MODE_GLO == 3 || Nat.blt (getFld m RX_MODE_ROLLOFF) 5
    || Nat.blt 200 (getFld m RX_MODE_ROLLOFF) || Nat.blt 64 (s.fld (RX_CD_OVL n) RX_CD_OVL_OVL)
    || nt % 2 == 0 || Nat.blt nt 7 || Nat.blt 63 nt || pa == 0 || Nat.blt 8 pa
    || s.fld (RX_PR_CFG n) RX_PR_CFG_BLIND == 3 || Nat.blt bw 4 || Nat.blt 64 bw
/-- R97: two enabled spares of a converter name one slice in the shadow maps. -/
def State.mapBad (s : State) (n : Nat) : Bool :=
  let ens := fun (w : W) (l : List (Fld × Fld)) => (l.filter (fun p => bitFld w p.1)).map (fun p => getFld w p.2)
  (List.range 4).any (fun a => !distinct (ens (s.reg (CONV_ADC_MAP n a))
      [(CONV_ADC_MAP_EN0, CONV_ADC_MAP_SLICE0), (CONV_ADC_MAP_EN1, CONV_ADC_MAP_SLICE1),
       (CONV_ADC_MAP_EN2, CONV_ADC_MAP_SLICE2), (CONV_ADC_MAP_EN3, CONV_ADC_MAP_SLICE3)]))
  || (List.range 4).any (fun a => !distinct (ens (s.reg (CONV_DAC_MAP n a))
      [(CONV_DAC_MAP_EN0, CONV_DAC_MAP_SLICE0), (CONV_DAC_MAP_EN1, CONV_DAC_MAP_SLICE1)]))

/-- The physical keys of a CD response word in `mem`: engine, copy 0 or 1, receive or transmit (R407). -/
def coefKey (n off : Nat) : Nat := 0x10000000 + n * 0x400000 + off
/-- Physical offset of window offset `o` of a coefficient store: the CD windows follow their copies, the library is fixed
(R407, R512). None where the window is reserved. -/
def State.coefOff (s : State) (n o : Nat) : Option Nat :=
  let e := s.engS n
  if Nat.blt o 0x80000 then some (o + (if e.cdRx then 0x80000 else 0))
  else if Nat.blt o 0x100000 then some (o - 0x80000 + (if e.cdRx then 0 else 0x80000))
  else if Nat.blt o 0x140000 then some (o + (if e.cdTx then 0x40000 else 0))
  else if Nat.blt o 0x180000 then some (o - 0x40000 + (if e.cdTx then 0 else 0x40000))
  else if Nat.blt o 0x200000 then none
  else if Nat.blt o 0x300000 then some (o - 0x80000)
  else none
/-- The word at a window offset of the coefficient store, as a datapath stage uses it: a poisoned coefficient is 0 + 0i (R416). -/
def State.coefWord (s : State) (n o : Nat) : W :=
  let k := coefKey n ((s.coefOff n o).getD 0)
  if s.poison.contains k then 0 else s.word k
/-- Does a poisoned word lie in the shadow copy of a CD response (R417)? -/
def State.cdPoison (s : State) (n : Nat) (rx : Bool) : Bool :=
  let e := s.engS n
  let lo := coefKey n (if rx then (if e.cdRx then 0x80000 else 0) else 0x100000 + (if e.cdTx then 0x40000 else 0))
  s.poison.any fun k => Nat.ble lo k && Nat.blt k (lo + (if rx then 0x80000 else 0x40000))

/-- Would the swap return a slice, a strip or the engine under self-test to service (R456)? The physical spare slice `s` of a
converter is slice 64 + s (ADC) or 32 + s (DAC); spare strip is strip 16. -/
def State.testBlocks (s : State) (n : Nat) (blks : List Nat) : Bool :=
  match (s.engS n, (s.stS n).run) with
  | (_, none) => false
  | (_, some r) =>
    if r.kind == 1 then blks.contains 10 &&
      !((List.range 4).any fun i => s.bit (CONV_ADC_MAP n (r.index / 128)) ⟨8 * i + 7, 8 * i + 7⟩
        && s.fld (CONV_ADC_MAP n (r.index / 128)) ⟨8 * i + 5, 8 * i⟩ == r.index % 128)
    else if r.kind == 2 then blks.contains 10 &&
      !((List.range 2).any fun i => s.bit (CONV_DAC_MAP n (r.index / 128)) ⟨8 * i + 7, 8 * i + 7⟩
        && s.fld (CONV_DAC_MAP n (r.index / 128)) ⟨8 * i + 4, 8 * i⟩ == r.index % 128)
    else if r.kind == 3 then
      (if r.index / 16 % 2 == 1 then blks.contains 9 &&
          !(s.bit (STRIP_MAP n) STRIP_MAP_RX_EN && s.fld (STRIP_MAP n) STRIP_MAP_RX_STRIP == r.index % 16)
       else blks.contains 8 &&
          !(s.bit (STRIP_MAP n) STRIP_MAP_TX_EN && s.fld (STRIP_MAP n) STRIP_MAP_TX_STRIP == r.index % 16))
    else false

/-! Judging a request (R542). -/

/-- The distance of R27 on a side. -/
def State.lead (s : State) (n : Nat) (rx : Bool) (at_ : BitVec 24) : Nat :=
  sub24 at_ (if rx then s.sfRx n else s.sfTx n)

/-- Is a due instant at or before another, on one side (R225)? -/
def State.dueLe (s : State) (n : Nat) (rx : Bool) (a b : Due) : Bool :=
  match a, b with
  | .next, _ => true
  | .named x, .next => s.lead n rx x == 1
  | .named x, .named y => Nat.ble (s.lead n rx x) (s.lead n rx y)

/-- The gait index in force on a side after the request's boundary (R225): no pending swap is in force at an immediate instant. -/
def State.gaitAfter (s : State) (n : Nat) (rx : Bool) (blks : List Nat) (due : Due) (imm : Bool) : Nat :=
  let b := if rx then 1 else 0
  if blks.contains b || !imm && (s.engS n).swaps.any (fun x => x.blk == b && s.dueLe n rx x.due due) then
    (if rx then s.rxShadow n else s.txShadow n)
  else (if rx then s.rxAct n else s.txAct n)

/-- R141: the two ways a request that names a gait block fails. -/
def State.rateBad (s : State) (n : Nat) (blks : List Nat) (imm : Bool) : Bool × Bool :=
  if blks.contains 0 || blks.contains 1 then
    let will := fun b => blks.contains b || (s.engS n).swaps.any (fun x => x.blk == b)
    let t := s.gait n (if will 0 then s.txShadow n else s.txAct n)
    let r := s.gait n (if will 1 then s.rxShadow n else s.rxAct n)
    let a := s.gait n (s.txAct n)
    (r.valid && r.rate != t.rate, a.valid && t.rate != a.rate && !imm)
  else (false, false)

/-- The fields set by a request that fails step 4 of R542: none when every content check passes. -/
def State.contentBad (s : State) (n : Nat) (blks : List Nat) (due : Due) (imm lead : Bool) : List (Nat × Fld) :=
  let rb := s.rateBad n blks imm
  let sel := s.reg (GLO_SEL n)
  let page := fun rx =>
    let p := gloPage sel rx
    if s.pageOpen n p then [(GLO_STAT n, GLO_STAT_PAGE_LOADING)]
    else if !s.pageValid n p then [(GLO_STAT n, GLO_STAT_PAGE_INVALID)] else []
  let gr := s.gait n (s.gaitAfter n true blks due imm)
  let gt := s.gait n (s.gaitAfter n false blks due imm)
  (if (blks.contains 0 && !(s.gait n (s.txShadow n)).valid) || (blks.contains 1 && !(s.gait n (s.rxShadow n)).valid) then
    [(GAIT_STAT n, GAIT_STAT_SEL_INVALID)] else [])
  ++ (if blks.contains 10 && s.mapBad n then [(CONV_STAT n, CONV_STAT_MAP_INVALID)] else [])
  ++ (if blks.contains 2 && s.txcBad n 0 then [(TX_STAT n, TX_STAT_MODE_INVALID)] else [])
  ++ (if blks.contains 3 && s.rxcBad n then [(RX_STAT n, RX_STAT_MODE_INVALID)] else [])
  ++ (if rb.1 then [(RX_STAT n, RX_STAT_RATE_MISMATCH)] else [])
  ++ (if rb.2 then [(TX_STAT n, TX_STAT_RATE_REFUSED)] else [])
  ++ (if blks.contains 6 then page false else []) ++ (if blks.contains 7 then page true else [])
  ++ (if blks.contains 5 && s.cdPoison n true then [(FG_STAT n, FG_STAT_CD_RX_POISON)] else [])
  ++ (if blks.contains 4 && s.cdPoison n false then [(FG_STAT n, FG_STAT_CD_TX_POISON)] else [])
  ++ (s.poolBad n (blks.contains 12) (blks.contains 11) gr gt).map (fun f => (POOL_STAT, f))
  ++ (if blks.contains 13 then (s.calBad n false gt gt.sr lead).map (fun f => (CLI_STAT, f)) else [])
  ++ (if blks.contains 14 then (s.calBad n true gr gt.sr lead).map (fun f => (CLI_STAT, f)) else [])

/-- Set the status bits of failed content checks, and record the engine for the pool and the client mapper. -/
def Op.contentFlags (n : Nat) (l : List (Nat × Fld)) : Op :=
  Op.all [Op.each l fun p => Op.flag p.1 p.2,
    Op.when (l.any fun p => p.1 == POOL_STAT) (Op.setF POOL_STAT POOL_STAT_REFUSED_ENG n),
    Op.when (l.any fun p => p.1 == CLI_STAT) (Op.setF CLI_STAT CLI_STAT_REFUSED_ENG n)]

/-- The timing of a request fails (R27, R28, R30): 0 none, 2 REJECT_LATE, 3 REJECT_IMMED. Between EN = 1 and the first sample a
named transmit-side request is judged against the number ENG_SF_TX still holds (DESIGN CHOICE, log 26). -/
def State.timingBad (s : State) (n when_ : Nat) (blks : List Nat) (at_ : BitVec 24) : Nat :=
  let tx := blks.any (blkOn false)
  let rx := blks.any (blkOn true)
  if when_ == 1 then
    let bad := fun d => Nat.blt d 2 || Nat.ble (2 ^ 23) d
    if (tx && (!s.txIsOn n || bad (s.lead n false at_))) || (rx && bad (s.lead n true at_)) then 2 else 0
  else if when_ == 2 then
    (if (tx && s.txIsOn n) || (rx && (s.rxLocked n || s.rxAcq n)) then 3 else 0)
  else 0

/-- The result code of a request, as SWAP returns it (R397, R542): 0 accepted, 1 CLASH, 2 LATE, 3 IMMED, 4 WHEN. -/
def State.swapJudge (s : State) (n when_ : Nat) (blks : List Nat) (at_ : BitVec 24) : Nat :=
  if when_ == 3 then 4
  else if blks.any (s.pendBlk n) then 1
  else if s.timingBad n when_ blks at_ != 0 then s.timingBad n when_ blks at_
  else if !(s.contentBad n blks (if when_ == 1 then .named at_ else .next) (when_ == 2)
      (when_ == 1 && Nat.ble 16 (s.lead n false at_))).isEmpty || s.testBlocks n blks then 1
  else 0

/-! Effects of a swap. -/

/-- The occupancy part of the active page of a side. -/
def State.actOcc (s : State) (n : Nat) (rx : Bool) : Nat :=
  s.fld (GLO_SEL n + 0x4000) (if rx then GLO_SEL_RX_OCC else GLO_SEL_TX_OCC)
def State.seen (s : State) (n : Nat) (rx : Bool) : Nat :=
  s.fld (GLO_OCC n) (if rx then GLO_OCC_RX_SEEN else GLO_OCC_TX_SEEN)

/-- Deliver a held occupancy event when the seen pattern differs from the OCC of the active page (R198). -/
def Op.occHeld (n : Nat) (rx : Bool) : Op := Op.dyn fun s =>
  let e := s.engS n
  if (if rx then e.occRx else e.occTx) then
    Op.thn (Op.eng n fun e => if rx then { e with occRx := false } else { e with occTx := false })
      (Op.when (s.seen n rx != s.actOcc n rx) (Op.event n (if rx then 4 else 3)))
  else Op.skip

/-- Units in FREE (R234 SPARES). -/
def State.poolSpares (s : State) : Nat :=
  ((List.range 88).filter fun u => s.fld (POOL_UNIT u) POOL_UNIT_STATE == 0).length
/-- NO_SPARE of the pool is a condition that holds while no unit is FREE (R229, R437). -/
def Op.poolWatch : Op := Op.dyn fun s => if s.poolSpares == 0 then Op.condSet 4 0x04 2 4 else Op.condClear 4 0x04 2 4

/-- Put retirements of parts (kind, index) before a test controller when ST_CFG.AT_RETIRE names their kind (R458). -/
def Op.retire (ctl : Nat) (l : List (Nat × Nat)) : Op := Op.dyn fun s =>
  Op.st ctl fun c => { c with wait := c.wait ++ l.filter fun p => (s.reg ST_CFG).getLsbD p.1 }

/-- Units removed and added by a DEC swap (R226, R228): a mirror whose target leaves by another swap than that of its own
replacement is ABORTED, and its spare returns to FREE. -/
def Op.decSwapped (n : Nat) (old new : List Nat) : Op := Op.dyn fun s =>
  let tgt := s.mir.target
  let spare := s.mir.spare
  let gone := old.filter fun u => !new.contains u
  let live := s.fld (POOL_UNIT spare) POOL_UNIT_STATE == 2 && gone.contains tgt
  let own := live && new.contains spare && s.bit POOL_MIRROR_STAT POOL_MIRROR_STAT_PASS
  Op.all [
    Op.each gone fun u => Op.setF (POOL_UNIT u) POOL_UNIT_STATE (if own && s.mir.farr && u == tgt then 3 else 5),
    Op.when (own && s.mir.farr) (Op.retire 48 [(8, tgt)]),
    Op.when (live && !own) (Op.all [Op.setF POOL_MIRROR_STAT POOL_MIRROR_STAT_STATE 3,
      Op.setF POOL_MIRROR_STAT POOL_MIRROR_STAT_PASS 0, Op.flag POOL_MIRROR_STAT POOL_MIRROR_STAT_ABORTED,
      Op.setF (POOL_UNIT spare) POOL_UNIT_STATE 0, Op.event 52 12]),
    Op.each (new.filter fun u => !old.contains u) fun u =>
      Op.thn (Op.setF (POOL_UNIT u) POOL_UNIT_STATE 1) (Op.setF (POOL_UNIT u) POOL_UNIT_OWNER n),
    Op.poolWatch]

/-- Keep latency-bearing fields of the replaced TXC copy (R124). -/
def Op.txHeld (n : Nat) (oldMode : W) (oldDelay : List W) : Op := Op.dyn fun s =>
  let m := s.reg (TX_MODE n + 0x4000)
  let g := (getFld m TX_MODE_GLO == 0) != (getFld oldMode TX_MODE_GLO == 0)
  let c := (getFld m TX_MODE_CDPRE == 0) != (getFld oldMode TX_MODE_CDPRE == 0)
  let ds := (List.range 4).filter fun i =>
    s.fld (TX_DELAY n i + 0x4000) TX_DELAY_INT != getFld (oldDelay.getD i 0) TX_DELAY_INT
  Op.all [Op.when g (Op.setF (TX_MODE n + 0x4000) TX_MODE_GLO (getFld oldMode TX_MODE_GLO)),
    Op.when c (Op.setF (TX_MODE n + 0x4000) TX_MODE_CDPRE (getFld oldMode TX_MODE_CDPRE)),
    Op.each ds fun i => Op.setF (TX_DELAY n i + 0x4000) TX_DELAY_INT (getFld (oldDelay.getD i 0) TX_DELAY_INT),
    Op.when (g || c || !ds.isEmpty) (Op.flag (TX_STAT n) TX_STAT_HELD)]

/-- The logical slice that spare `i` mod 4 of ADC `i` div 4 is to replace while it is in shadow run (R98): enabled in the shadow map
and not in the active one. -/
def State.adcRun (s : State) (n i : Nat) : Option Nat :=
  let a := CONV_ADC_MAP n (i / 4)
  let en : Fld := ⟨8 * (i % 4) + 7, 8 * (i % 4) + 7⟩
  if s.bit a en && !s.bit (a + 0x4000) en then some (s.fld a ⟨8 * (i % 4) + 5, 8 * (i % 4)⟩) else none
def State.adcRuns (s : State) (n : Nat) : List (Option Nat) := (List.range 16).map (s.adcRun n)
/-- The maps of an engine have changed (R98): the results of a spare that is disabled in the shadow map clear, and the loop of a spare
that enters shadow run starts from its slice's calibration values; `was` are the shadow runs before. -/
def Op.spareMoved (n : Nat) (was : List (Option Nat)) : Op := Op.dyn fun s =>
  Op.all [Op.each (List.range 16) fun i => Op.when ((s.adcRun n i).isSome && was.getD i none != s.adcRun n i)
      (Op.eng n fun e => { e with track := Tab.set e.track (fun _ => Track.init) (i / 4 * 68 + 64 + i % 4) Track.init }),
    Op.each (List.range 16) fun i => Op.when (!s.bit (CONV_ADC_MAP n (i / 4)) ⟨8 * (i % 4) + 7, 8 * (i % 4) + 7⟩)
      (Op.thn (Op.setF (CONV_SPARE_STAT n 0) ⟨i, i⟩ 0) (Op.setF (CONV_SPARE_STAT n 0) ⟨i + 16, i + 16⟩ 0)),
    Op.each (List.range 8) fun i => Op.when (!s.bit (CONV_DAC_MAP n (i / 2)) ⟨8 * (i % 2) + 7, 8 * (i % 2) + 7⟩)
      (Op.thn (Op.setF (CONV_SPARE_STAT n 1) ⟨i, i⟩ 0) (Op.setF (CONV_SPARE_STAT n 1) ⟨i + 16, i + 16⟩ 0)),
    Op.when (!s.bit (STRIP_MAP n) STRIP_MAP_RX_EN)
      (Op.thn (Op.setF (STRIP_SPARE_STAT n) STRIP_SPARE_STAT_RX_DONE 0) (Op.setF (STRIP_SPARE_STAT n) STRIP_SPARE_STAT_RX_PASS 0)),
    Op.when (!s.bit (STRIP_MAP n) STRIP_MAP_TX_EN)
      (Op.thn (Op.setF (STRIP_SPARE_STAT n) STRIP_SPARE_STAT_TX_DONE 0) (Op.setF (STRIP_SPARE_STAT n) STRIP_SPARE_STAT_TX_PASS 0))]

/-- The slices and strips that an active map replaces: kind, index as self-test names them. -/
def State.replaced (s : State) (n b : Nat) (rx : Bool) : List (Nat × Nat) :=
  if b == 10 && rx then (List.range 16).filterMap fun i =>
    let w := s.reg (CONV_ADC_MAP n (i / 4) + 0x4000)
    if bitFld w ⟨8 * (i % 4) + 7, 8 * (i % 4) + 7⟩ then some (1, i / 4 * 128 + getFld w ⟨8 * (i % 4) + 5, 8 * (i % 4)⟩) else none
  else if b == 10 then (List.range 8).filterMap fun i =>
    let w := s.reg (CONV_DAC_MAP n (i / 2) + 0x4000)
    if bitFld w ⟨8 * (i % 2) + 7, 8 * (i % 2) + 7⟩ then some (2, i / 2 * 128 + getFld w ⟨8 * (i % 2) + 4, 8 * (i % 2)⟩) else none
  else if b == 8 then
    (let w := s.reg (STRIP_MAP n + 0x4000); if bitFld w STRIP_MAP_TX_EN then [(3, getFld w STRIP_MAP_TX_STRIP)] else [])
  else if b == 9 then
    (let w := s.reg (STRIP_MAP n + 0x4000); if bitFld w STRIP_MAP_RX_EN then [(3, 16 + getFld w STRIP_MAP_RX_STRIP)] else [])
  else []

/-- One block's swap on one side takes effect (R21): `imm` tells an immediate swap, which holds no field. -/
def Op.swapBlk (n b : Nat) (rx imm : Bool) : Op := Op.dyn fun s =>
  let oldMode := s.reg (TX_MODE n + 0x4000)
  let oldDelay := (List.range 4).map fun i => s.reg (TX_DELAY n i + 0x4000)
  let oldRx := s.reg (RX_MODE n + 0x4000)
  let oldDec := decUnits (s.reg (POOL_DEC n + 0x4000))
  let oldRep := s.replaced n b rx
  Op.all [
    Op.each (s.blkWords n b rx) fun a => Op.exch a (viewDist b) (blkMask n b rx a),
    Op.when (b == 2 && !imm) (Op.txHeld n oldMode oldDelay),
    Op.when (b == 3 && !imm) (Op.dyn fun t =>
      let m := t.reg (RX_MODE n + 0x4000)
      Op.when ((getFld m RX_MODE_GLO == 0) != (getFld oldRx RX_MODE_GLO == 0))
        (Op.thn (Op.setF (RX_MODE n + 0x4000) RX_MODE_GLO (getFld oldRx RX_MODE_GLO)) (Op.flag (RX_STAT n) RX_STAT_HELD))),
    Op.when (b == 2 || b == 3) (Op.latRegs n),
    Op.when (b == 4) (Op.thn (Op.eng n fun e => { e with cdTx := !e.cdTx, goodTx := true })
      (Op.dyn fun t => Op.when (t.cdPoison n false) (Op.eng n fun e => { e with goodTx := false }))),
    Op.when (b == 5) (Op.thn (Op.eng n fun e => { e with cdRx := !e.cdRx, goodRx := true })
      (Op.dyn fun t => Op.when (t.cdPoison n true) (Op.eng n fun e => { e with goodRx := false }))),
    Op.when (b == 12) (Op.dyn fun t => Op.decSwapped n oldDec (decUnits (t.reg (POOL_DEC n + 0x4000)))),
    Op.when (b == 8 || b == 9 || b == 10) (Op.thn (Op.spareMoved n (s.adcRuns n))
      (Op.dyn fun t => Op.retire n ((t.replaced n b rx).filter fun p => !oldRep.contains p))),
    Op.when (b == 6) (Op.occHeld n false), Op.when (b == 7) (Op.occHeld n true),
    -- blocks left in a committed context whose share is swapped out are abandoned (R262): its queue is emptied, and RD stays behind
    -- ACC by them, so that it is DRAINED no more (DESIGN CHOICE, log 69)
    Op.when (b == 13) (Op.dyn fun t =>
      let now := (t.calAll false false).map (·.ctx)
      Op.each (uniq (((s.calAll false false).filter fun e => e.eng == n && e.com).map (·.ctx)) |>.filter fun c => !now.contains c)
        fun c => Op.ctx c fun x => { x with queue := [] })]

/-- An accepted swap of its converter's map or chain cuts short the run on a slice or a strip (R459). -/
def Op.swapCut (n : Nat) (blks : List Nat) : Op := Op.st n fun c => { c with run := match c.run with
  | some r => some { r with cut := r.cut || ((r.kind == 1 || r.kind == 2) && blks.contains 10)
      || (r.kind == 3 && blks.contains (if r.index / 16 % 2 == 1 then 9 else 8)) }
  | none => none }

/-- START (R337, R340): histories cleared and the count of outputs restarted; the last valid raw values stand. -/
def Op.monRestart (n : Nat) : Op :=
  Op.thn (Op.eng n fun e => { e with mon := ⟨0, 0, e.mon.ch.map fun c => (c.1, { MonCh.init with raw := c.2.raw }), e.mon.sop⟩ })
    (Op.wr (MON_FINE_CNT n) 0)

/-- Accept a request (R29): the blocks become pending, or swap at once when it is immediate (R28). -/
def Op.swapAccept (n when_ : Nat) (blks : List Nat) (at_ : BitVec 24) : Op := Op.thn (Op.swapCut n blks) (
  if when_ == 2 then
    Op.dyn fun s =>
      let old := s.engSr n
      Op.all [Op.each blks fun b => Op.thn (Op.when (blkOn false b) (Op.swapBlk n b false true))
                (Op.when (blkOn true b) (Op.swapBlk n b true true)),
        Op.when (!blks.isEmpty) (Op.addF (ENG_SWAP_STAT n) ENG_SWAP_STAT_DONE_CNT 1),
        Op.when (!blks.isEmpty) (Op.event n 9),
        -- a change of symbol rate restarts a running monitor (R340)
        Op.dyn fun t => Op.when (t.engSr n != old && t.bit (MON_STAT n) MON_STAT_RUN)
          (Op.monRestart n)]
  else
    Op.thn (Op.eng n fun e => { e with swaps := e.swaps ++ blks.foldr (fun b a =>
        (if blkOn false b then [PendSwap.mk b false (if when_ == 1 then .named at_ else .next) false] else [])
        ++ (if blkOn true b then [PendSwap.mk b true (if when_ == 1 then .named at_ else .next) false] else []) ++ a) [] })
      (Op.pendReg n))

/-- A swap request through the engine's request path (R25–R29, R542); `k` is told the result code. -/
def Op.swapReq (n when_ : Nat) (blks : List Nat) (at_ : BitVec 24) (k : Nat → Op) : Op := Op.dyn fun s =>
  let r := s.swapJudge n when_ blks at_
  Op.all [
    if r == 4 then Op.flag (ENG_SWAP_STAT n) ENG_SWAP_STAT_REJECT_WHEN
    else if r == 3 then Op.flag (ENG_SWAP_STAT n) ENG_SWAP_STAT_REJECT_IMMED
    else if r == 2 then Op.flag (ENG_SWAP_STAT n) ENG_SWAP_STAT_REJECT_LATE
    else if r == 1 then
      Op.thn (Op.flag (ENG_SWAP_STAT n) ENG_SWAP_STAT_REJECT_CLASH)
        (Op.when (!blks.any (s.pendBlk n)) (Op.contentFlags n
          (s.contentBad n blks (if when_ == 1 then .named at_ else .next) (when_ == 2)
            (when_ == 1 && Nat.ble 16 (s.lead n false at_)))))
    else Op.swapAccept n when_ blks at_,
    k r]

/-- Which of an engine's pending swaps of a side are due at its boundary `cnt` (R20, R27). -/
def dueNow (rx : Bool) (cnt : BitVec 24) (p : PendSwap) : Bool :=
  p.rx == rx && (match p.due with | .next => true | .named x => x == cnt)

/-- Every swap of a side that is due takes effect together (R23). -/
def Op.swapsDue (n : Nat) (rx : Bool) (cnt : BitVec 24) : Op := Op.dyn fun s =>
  let due := (s.engS n).swaps.filter (dueNow rx cnt)
  Op.when (!due.isEmpty) (Op.all [
    Op.eng n fun e => { e with swaps := e.swaps.filter fun p => !dueNow rx cnt p },
    Op.each due fun p => Op.swapBlk n p.blk rx false,
    Op.pendReg n,
    Op.addF (ENG_SWAP_STAT n) ENG_SWAP_STAT_DONE_CNT 1,
    Op.event n 9])

/-- Cancel the pending transmit-side swaps (R30). -/
def Op.cancelTx (n : Nat) : Op := Op.dyn fun s =>
  Op.when ((s.engS n).swaps.any fun p => !p.rx) (Op.all [
    Op.eng n fun e => { e with swaps := e.swaps.filter fun p => p.rx },
    Op.pendReg n, Op.flag (ENG_SWAP_STAT n) ENG_SWAP_STAT_CANCELLED, Op.event n 9])

end Sys2Proof.Machine
end

