-- ==== Sys2Proof/Machine/Shadow.lean ====
section
/-! DEFINITION. Writes of shadow words, gait entries and gait selectors, and the swap requests of ENG_SWAP_REQ
(R25–R31, R54–R56, R513, R514, R542). -/
namespace Sys2Proof.Machine

/-- The bits of shadow word `a` of engine `n` that belong to block `b` on either side. -/
def blkBits (n b a : Nat) : W := blkMask n b false a ||| blkMask n b true a

/-- The bits of shadow word `a` whose blocks have a swap pending or reserved (R29). -/
def State.blockedBits (s : State) (n a : Nat) : W :=
  (List.range 15).foldl (fun m b => if s.pendBlk n b then m ||| blkBits n b a else m) 0

/-- Write a shadow word (R11, R29, R514): the bits of pending blocks are kept, and WRITE_BLOCKED tells it. -/
def Op.shadowWr (n a : Nat) (v : W) : Op := Op.dyn fun s =>
  let m := s.blockedBits n a
  Op.thn (Op.wr a ((s.reg a &&& m) ||| (v &&& ~~~m)))
    (Op.when (m != 0) (Op.flag (ENG_SWAP_STAT n) ENG_SWAP_STAT_WRITE_BLOCKED))

/-- Is gait entry `i` protected from a write of word `w` with value `v` (R55)? -/
def State.gaitHeld (s : State) (n i w : Nat) (v : W) : Bool :=
  let e := s.engS n
  let st := s.fld (NEG_RX_STAT n) NEG_RX_STAT_STATE
  ((e.prop.st == 1 || e.prop.st == 2) && e.prop.idx.toNat == i)
  || ((st == 2 || st == 3) && s.fld (NEG_RX_PROP n) NEG_RX_PROP_INDEX == i)
  || ((s.gait n i).valid && [s.txShadow n, s.rxShadow n, s.txAct n, s.rxAct n].contains i)
  || (w == 0 && v.getLsbD 31 &&
      ((s.txAct n == i && s.txIsOn n) || (s.rxAct n == i && (s.rxLocked n || s.rxAcq n))))

/-- A write of word `w` of gait entry `i` (R54, R55). -/
def Op.gaitWord (n i w : Nat) (v : W) : Op := Op.dyn fun s =>
  if s.gaitHeld n i w v then Op.flag (GAIT_STAT n) GAIT_STAT_WRITE_ACTIVE
  else if w == 0 then
    (let r := (gaitOf v (s.reg (GAIT_W1 n i)) (s.reg (GAIT_W2 n i))).bad
     if v.getLsbD 31 && r != 0 then
       Op.all [Op.wr (GAIT_W0 n i) (setFld v GAIT_W0_VALID 0), Op.flag (GAIT_STAT n) GAIT_STAT_BAD_ENTRY,
         Op.setF (GAIT_STAT n) GAIT_STAT_BAD_REASON r]
     else Op.wr (GAIT_W0 n i) v)
  else Op.all [
    Op.when (w == 1) (Op.wr (GAIT_W1 n i) v), Op.when (w == 2) (Op.wr (GAIT_W2 n i) v),
    Op.setF (GAIT_W0 n i) GAIT_W0_VALID 0]

/-- A write of GAIT_SEL (R56, R514). -/
def Op.gaitSel (n : Nat) (v : W) : Op := Op.dyn fun s =>
  let tx := !s.pendBlk n 0
  let rx := !s.pendBlk n 1
  if (tx && !(s.gait n (getFld v GAIT_SEL_TX_IDX)).valid) || (rx && !(s.gait n (getFld v GAIT_SEL_RX_IDX)).valid) then
    Op.flag (GAIT_STAT n) GAIT_STAT_SEL_INVALID
  else Op.shadowWr n (GAIT_SEL n) v

/-- A write of ENG_SWAP_REQ (R25). -/
def Op.swapWr (n : Nat) (v : W) : Op := Op.dyn fun s =>
  Op.swapReq n (getFld v ENG_SWAP_REQ_WHEN) (blksOf (getFld v ENG_SWAP_REQ_BLOCKS))
    (BitVec.ofNat 24 (s.fld (ENG_SWAP_AT n) ENG_SWAP_AT_SF)) (fun _ => Op.skip)

/-- The word of ENG_SWAP_REQ for a WHEN code and blocks. -/
def swapWord (when_ : Nat) (blocks : BitVec 15) : W := BitVec.ofNat 32 (when_ * 0x40000000 + blocks.toNat)

/-- A swap request at the next boundary of each side (R27). -/
def execSwapNextBoundary (p : Party) (n : Eng) (blocks : BitVec 15) (s : State) :=
  (Op.gate p (ENG_SWAP_REQ n) true (domEng n) (Op.swapWr n (swapWord 0 blocks))).next s
/-- A swap request at the boundary numbered in ENG_SWAP_AT (R26, R27). -/
def execSwapNamedBoundary (p : Party) (n : Eng) (blocks : BitVec 15) (s : State) :=
  (Op.gate p (ENG_SWAP_REQ n) true (domEng n) (Op.swapWr n (swapWord 1 blocks))).next s
/-- An immediate swap request (R28). -/
def execSwapImmediate (p : Party) (n : Eng) (blocks : BitVec 15) (s : State) :=
  (Op.gate p (ENG_SWAP_REQ n) true (domEng n) (Op.swapWr n (swapWord 2 blocks))).next s
/-- A request with the reserved WHEN code (R25, R542). -/
def execSwapWhenReserved (p : Party) (n : Eng) (blocks : BitVec 15) (s : State) :=
  (Op.gate p (ENG_SWAP_REQ n) true (domEng n) (Op.swapWr n (swapWord 3 blocks))).next s
/-- A write of a gait-table word (R54, R55). -/
def execGaitEntryWrite (p : Party) (n : Eng) (i : Fin 16) (w : Fin 4) (v : W) (s : State) :=
  (Op.gate p (GAIT_W0 n i + 4 * w) true (domEng n) (Op.gaitWord n i w v)).next s
/-- A write of GAIT_SEL (R56). -/
def execGaitSelWrite (p : Party) (n : Eng) (v : W) (s : State) :=
  (Op.gate p (GAIT_SEL n) true (domEng n) (Op.gaitSel n v)).next s

end Sys2Proof.Machine
end

