-- ==== Sys2Proof/Machine/Negotiate.lean ====
section
/-! DEFINITION. Gait negotiation: the proposer (R66–R68) and the responder (R69–R72) of an engine, apart from the frames that
carry them. -/
namespace Sys2Proof.Machine

/-- The first superframe of the next multiframe on transmit (R58, R66). -/
def State.nextMf (s : State) (n : Nat) : BitVec 24 := (s.sfTx n &&& 0xFFFFF8#24) + 8#24

/-- The negotiation identifier of the proposer's present transaction. -/
def State.negTid (s : State) (n : Nat) : Nat := s.fld (NEG_TX_STAT n) NEG_TX_STAT_TID

/-- The proposer enters a state with a reason; reaching DONE, NAKED or ABANDONED signals line 7 (R75, R398). -/
def Op.negTxState (n st reason : Nat) : Op :=
  Op.all [Op.eng n fun e => { e with prop := { e.prop with st := st } },
    Op.setF (NEG_TX_STAT n) NEG_TX_STAT_STATE st, Op.setF (NEG_TX_STAT n) NEG_TX_STAT_REASON reason,
    Op.when (Nat.ble 3 st) (Op.event n 7)]

/-- Release the proposer's reservation (R68), delivering a held occupancy event (R198). -/
def Op.negTxFree (n : Nat) : Op := Op.dyn fun s =>
  let glo := (s.engS n).prop.blocks.contains 6 || (s.engS n).prop.st == 2
  Op.all [Op.eng n fun e => { e with prop := { e.prop with blocks := [] } }, Op.pendReg n,
    Op.when glo (Op.occHeld n false)]

/-- Abandon the open transaction (R67, R68): ABANDON is sent until S. -/
def Op.negAbandon (n reason : Nat) : Op := Op.dyn fun s =>
  Op.all [
    Op.eng n fun e => { e with prop := { e.prop with abandon := some (BitVec.ofNat 8 (s.negTid n), e.prop.s) } },
    Op.negTxFree n, Op.negTxState n 5 reason]

/-- The first refusal of a start that holds: BUSY, TX_OFF, LATE (R66), before the content of the request is judged. -/
def State.negEarly (s : State) (n : Nat) : Nat :=
  let st := (s.engS n).prop.st
  let d := sub24 (BitVec.ofNat 24 (s.fld (NEG_TX_S n) NEG_TX_S_S)) (s.nextMf n)
  if st == 1 || st == 2 then 0x05
  else if !s.txIsOn n then 0x12
  else if Nat.blt d 16 || Nat.ble (2 ^ 23) d then 0x06
  else 0

/-- The cases of BAD_REQUEST that do not come from R225 and R244 (R66). -/
def State.negMalformed (s : State) (n idx : Nat) (blks : List Nat) : Bool :=
  let g := s.gait n idx
  !g.valid || idx == s.txAct n || g.rate != (s.gait n (s.txAct n)).rate
    || !blks.all (fun b => [2, 4, 6, 8, 11, 13].contains b) || s.pendBlk n 0 || blks.any (s.pendBlk n)

/-- The cases of R225 and R244 that refuse the named ENC and CAL_IN blocks under the proposed entry (R66). -/
def State.negTxContent (s : State) (n idx : Nat) (blks : List Nat) : List (Nat × Fld) :=
  let g := s.gait n idx
  (s.poolBad n false (blks.contains 11) (s.gait n (s.rxAct n)) g).map (fun f => (POOL_STAT, f))
  ++ (if blks.contains 13 then (s.calBad n false g g.sr true).map (fun f => (CLI_STAT, f)) else [])

/-- GO of NEG_TX_CTL (R66). -/
def Op.negGo (n : Nat) : Op := Op.dyn fun s =>
  let idx := s.fld (NEG_TX_CTL n) NEG_TX_CTL_INDEX
  let blks := blksOf (s.fld (NEG_TX_CTL n) NEG_TX_CTL_BLOCKS)
  let r := s.negEarly n
  let refuse := fun (c : Nat) => Op.all [Op.setF (NEG_TX_STAT n) NEG_TX_STAT_STATE 5,
    Op.setF (NEG_TX_STAT n) NEG_TX_STAT_REASON c, Op.event n 7,
    Op.when (c != 0x05) (Op.eng n fun e => { e with prop := { e.prop with st := 5 } })]
  if r != 0 then refuse r
  else if s.negMalformed n idx blks then refuse 0x13
  else if !(s.negTxContent n idx blks).isEmpty then
    Op.thn (Op.contentFlags n (s.negTxContent n idx blks)) (refuse 0x13)
  else Op.all [
    Op.setF (GAIT_SEL n) GAIT_SEL_TX_IDX idx,
    Op.eng n fun e => { e with prop :=
      ⟨1, 0 :: blks, BitVec.ofNat 24 (s.fld (NEG_TX_S n) NEG_TX_S_S), s.nextMf n, BitVec.ofNat 4 idx,
       BitVec.ofNat 16 (s.gaitCheck n idx), 0, none⟩ },
    Op.pendReg n, Op.addF (NEG_TX_STAT n) NEG_TX_STAT_TID 1, Op.negTxState n 1 0]

/-- A write of NEG_TX_CTL (R74): ABANDON first, then GO. -/
def Op.negTxCtl (n : Nat) (v : W) : Op :=
  Op.all [Op.wr (NEG_TX_CTL n) (v &&& 0x000F7FFF#32),
    Op.when (v.getLsbD 30) (Op.dyn fun s => Op.when ((s.engS n).prop.st == 1) (Op.negAbandon n 0x11)),
    Op.when (v.getLsbD 31) (Op.negGo n)]

/-- Turn a reservation into named swaps at a target (R67, R71). -/
def armed (rx : Bool) (blks : List Nat) (at_ : BitVec 24) : List PendSwap :=
  blks.map fun b => ⟨b, rx, .named at_, true⟩

/-- A matching ACK decoded while PROPOSING (R67). -/
def Op.negAcked (n : Nat) : Op := Op.dyn fun s =>
  let c := s.nextMf n
  let d := sub24 (s.engS n).prop.s c
  if Nat.ble 32 d && Nat.blt d (2 ^ 23) then
    Op.all [Op.eng n (fun e => { e with
        swaps := e.swaps ++ armed false e.prop.blocks e.prop.s
        prop := { e.prop with blocks := [], commitC := c } }),
      Op.pendReg n, Op.negTxState n 2 0]
  else Op.negAbandon n 0x10

/-- The reason that a NAK gives: any code outside 0x01 to 0x07 is POLICY (R65, R77). -/
def nakReason (r : Nat) : Nat := if Nat.ble 1 r && Nat.ble r 7 then r else 7

/-- A matching NAK decoded while PROPOSING (R68). -/
def Op.negNaked (n reason : Nat) : Op := Op.thn (Op.negTxFree n) (Op.negTxState n 4 (nakReason reason))

/-- Is the reply limit of R67 passed? -/
def State.replyOver (s : State) (n : Nat) : Bool :=
  let d := sub24 (s.engS n).prop.s (s.nextMf n)
  (s.engS n).prop.st == 1 && (Nat.blt d 32 || Nat.ble (2 ^ 23) d)

/-! The responder. -/

def State.negRxState (s : State) (n : Nat) : Nat := s.fld (NEG_RX_STAT n) NEG_RX_STAT_STATE
def Op.negRxSt (n st : Nat) : Op := Op.setF (NEG_RX_STAT n) NEG_RX_STAT_STATE st

/-- Release the responder's reservation, delivering a held occupancy event (R198). -/
def Op.negRxFree (n : Nat) : Op := Op.dyn fun s =>
  let glo := (s.engS n).resp.blocks.contains 7
  Op.all [Op.eng n fun e => { e with resp := { e.resp with blocks := [] } }, Op.pendReg n,
    Op.when glo (Op.occHeld n true)]

/-- Latch a proposal (R69). LT keeps the bits of the earlier transaction until an ACK computes the new Lt (DESIGN CHOICE, log 26). -/
def Op.negLatch (n tid idx : Nat) (sw : BitVec 24) (check : Nat) : Op := Op.dyn fun s =>
  let g := s.gait n idx
  let ok := g.valid && s.gaitCheck n idx == check
  Op.all [Op.negRxFree n,
    Op.wr (NEG_RX_PROP n) (BitVec.ofNat 32
      (0x80000000 + (if ok then 0x40000000 else 0) + idx * 0x1000000 + tid * 0x10000 + check)),
    Op.setF (NEG_RX_S n) NEG_RX_S_S sw.toNat,
    Op.eng n (fun e => { e with resp := { e.resp with
      answer := none, busy := none, rateOk := g.rate == (s.gait n (s.rxAct n)).rate } }),
    Op.setF (NEG_RX_STAT n) NEG_RX_STAT_TID tid, Op.negRxSt n 1, Op.event n 6]

/-- A PROPOSE arrives (R69). -/
def Op.negPropose (n tid idx : Nat) (sw : BitVec 24) (check : Nat) : Op := Op.dyn fun s =>
  if s.fld (NEG_RX_STAT n) NEG_RX_STAT_TID == tid then Op.skip
  else if s.negRxState n == 3 then
    Op.eng n fun e => { e with resp := { e.resp with busy := some ⟨false, BitVec.ofNat 8 tid, 5#8, sw⟩ } }
  else Op.negLatch n tid idx sw check

/-- Answer NAK with a reason (R70, R77). -/
def Op.negSendNak (n reason : Nat) : Op := Op.dyn fun s =>
  Op.all [Op.setF (NEG_RX_PROP n) NEG_RX_PROP_NEW 0,
    Op.eng n (fun e => { e with resp := { e.resp with
      answer := some ⟨false, BitVec.ofNat 8 (s.fld (NEG_RX_STAT n) NEG_RX_STAT_TID), BitVec.ofNat 8 reason,
        BitVec.ofNat 24 (s.fld (NEG_RX_S n) NEG_RX_S_S)⟩ } }),
    Op.negRxSt n 5]

/-- The receive-side blocks of an answer (R70, R77). -/
def negRxBlocks (v : W) : List Nat := (blksOf (getFld v NEG_RX_CTL_BLOCKS)).filter fun b => [3, 5, 7, 9, 12, 14].contains b

/-- The local target Lt (R70). -/
def State.negLt (s : State) (n : Nat) : BitVec 24 := BitVec.ofNat 24 (s.fld (NEG_RX_S n) NEG_RX_S_S) - s.ofs n

/-- The cases of R225 and R244 for the named DEC and CAL_OUT blocks under the proposed entry (R70). -/
def State.negRxPool (s : State) (n : Nat) (blks : List Nat) : List Fld :=
  s.poolBad n (blks.contains 12) false (s.gait n (s.fld (NEG_RX_PROP n) NEG_RX_PROP_INDEX)) (s.gait n (s.txAct n))
def State.negRxCal (s : State) (n : Nat) (blks : List Nat) : List Fld :=
  if blks.contains 14 then s.calBad n true (s.gait n (s.fld (NEG_RX_PROP n) NEG_RX_PROP_INDEX)) (s.engSr n) true else []

/-- The NAK that the device substitutes for an ACK, in the order of R70; 0 when none holds. -/
def State.negRxNak (s : State) (n : Nat) (blks : List Nat) : Nat :=
  let d := sub24 (s.negLt n) (s.sfRx n)
  if !s.bit (NEG_RX_PROP n) NEG_RX_PROP_CHECK_OK then 1
  else if !(s.engS n).resp.rateOk then 2
  else if !s.ofsValid n || Nat.blt d 32 || Nat.ble (2 ^ 23) d then 6
  else if s.pendBlk n 1 || blks.any (s.pendBlk n) then 5
  else if !(s.negRxPool n blks).isEmpty then 3
  else if !(s.negRxCal n blks).isEmpty then 4
  else 0

/-- A write of NEG_RX_CTL (R70, R77). -/
def Op.negRxCtl (n : Nat) (v : W) : Op := Op.dyn fun s =>
  let blks := negRxBlocks v
  if s.negRxState n != 1 || !(v.getLsbD 31 || v.getLsbD 30) then Op.skip
  else if v.getLsbD 30 then Op.negSendNak n (nakReason (getFld v NEG_RX_CTL_REASON))
  else
    let r := s.negRxNak n blks
    -- Lt is computed on every ACK, before a NAK takes its place (R70, R78)
    Op.thn (Op.setF (NEG_RX_STAT n) NEG_RX_STAT_LT (s.negLt n).toNat) (
    if r != 0 then
      Op.all [Op.when (r == 3) (Op.contentFlags n ((s.negRxPool n blks).map (fun f => (POOL_STAT, f)))),
        Op.when (r == 4) (Op.contentFlags n ((s.negRxCal n blks).map (fun f => (CLI_STAT, f)))),
        Op.negSendNak n r]
    else Op.all [
      Op.setF (GAIT_SEL n) GAIT_SEL_RX_IDX (s.fld (NEG_RX_PROP n) NEG_RX_PROP_INDEX),
      Op.setF (NEG_RX_PROP n) NEG_RX_PROP_NEW 0,
      Op.eng n (fun e => { e with resp := { e.resp with
        lt := s.negLt n, blocks := 1 :: blks
        answer := some ⟨true, BitVec.ofNat 8 (s.fld (NEG_RX_STAT n) NEG_RX_STAT_TID), 0#8,
          BitVec.ofNat 24 (s.fld (NEG_RX_S n) NEG_RX_S_S)⟩ } }),
      Op.pendReg n, Op.negRxSt n 2])

/-- A COMMIT decoded for a TID and S (R71). -/
def Op.negCommit (n tid : Nat) (sw : BitVec 24) : Op := Op.dyn fun s =>
  let lt := (s.engS n).resp.lt
  let d := sub24 lt (s.sfRx n)
  if s.negRxState n == 2 && !(s.engS n).resp.catchUp && s.fld (NEG_RX_STAT n) NEG_RX_STAT_TID == tid then
    Op.all [
      -- the ACK ends at a COMMIT decoded for its TID (R70)
      Op.eng n fun e => { e with resp := { e.resp with answer := none } },
      Op.when (sw.toNat == s.fld (NEG_RX_S n) NEG_RX_S_S && Nat.ble 2 d && Nat.blt d (2 ^ 23)) (Op.all [
        Op.eng n (fun e => { e with
          swaps := e.swaps ++ armed true e.resp.blocks lt
          resp := { e.resp with blocks := [] } }),
        Op.pendReg n, Op.negRxSt n 3])]
  else Op.skip

/-- An ABANDON decoded for a TID (R69–R71). -/
def Op.negAbandoned (n tid : Nat) : Op := Op.dyn fun s =>
  let st := s.negRxState n
  let mine := s.fld (NEG_RX_STAT n) NEG_RX_STAT_TID == tid
  Op.all [
    Op.when (match (s.engS n).resp.busy with | some b => b.tid.toNat == tid | none => false)
      (Op.eng n fun e => { e with resp := { e.resp with busy := none } }),
    Op.when (mine && st == 2 && !(s.engS n).resp.catchUp) (Op.all [Op.negRxFree n,
      Op.eng n fun e => { e with resp := { e.resp with answer := none } }, Op.negRxSt n 7]),
    Op.when (mine && st == 1) (Op.thn (Op.setF (NEG_RX_PROP n) NEG_RX_PROP_NEW 0) (Op.negRxSt n 7))]

/-- A NAK ends at the first frame acted on that no longer carries PROPOSE with its TID (R70). -/
def Op.negNakEnd (n : Nat) (propose : Bool) (tid : Nat) : Op := Op.dyn fun s =>
  match (s.engS n).resp.answer with
  | some a => Op.when (!a.ack && !(propose && a.tid.toNat == tid))
      (Op.eng n fun e => { e with resp := { e.resp with answer := none } })
  | none => Op.skip

/-- The local target arrives at receive boundary `cnt` (R71, R72): `obs` is the epoch observed there, none on a flywheel
boundary. -/
def Op.negAtLt (n : Nat) (cnt : BitVec 24) (obs : Option Bool) : Op := Op.dyn fun s =>
  let st := s.negRxState n
  if (s.engS n).resp.lt == cnt && st == 3 then
    Op.all [Op.negRxSt n 4, Op.eng n fun e => { e with resp := { e.resp with busy := none } }]
  else if (s.engS n).resp.lt == cnt && st == 2 && !(s.engS n).resp.catchUp then
    Op.thn (Op.eng n fun e => { e with resp := { e.resp with answer := none } })
      (match obs with
       | some o =>
         if o != s.bit (GAIT_STAT n) GAIT_STAT_EPOCH_RX then
           Op.thn (Op.eng n fun e => { e with
             swaps := e.swaps ++ e.resp.blocks.map (fun b => PendSwap.mk b true .next true)
             resp := { e.resp with blocks := [], catchUp := true } }) (Op.pendReg n)
         else Op.thn (Op.negRxFree n) (Op.negRxSt n 6)
       | none => Op.thn (Op.negRxFree n) (Op.negRxSt n 6))
  else Op.skip

/-- The catch-up boundary (R72). -/
def Op.negCatchUp (n : Nat) (cnt : BitVec 24) : Op := Op.dyn fun s =>
  Op.when (s.engS n).resp.catchUp (Op.all [
    Op.eng n fun e => { e with resp := { e.resp with catchUp := false } },
    Op.flag (GAIT_STAT n) GAIT_STAT_CATCH_UP, Op.raise (srcEng n 13) 0x0B 3 cnt.toNat, Op.negRxSt n 4])

/-! The rows of the negotiation registers. -/

/-- NEG_TX_CTL with GO (R66, R74). -/
def execNegTxGo (p : Party) (n : Eng) (v : W) (s : State) :=
  (Op.gate p (NEG_TX_CTL n) true (domEng n) (Op.negTxCtl n (v ||| 0x80000000#32))).next s
/-- NEG_TX_CTL with ABANDON (R67, R74). -/
def execNegTxAbandon (p : Party) (n : Eng) (v : W) (s : State) :=
  (Op.gate p (NEG_TX_CTL n) true (domEng n) (Op.negTxCtl n (v ||| 0x40000000#32))).next s
/-- The reply limit of the proposer passes (R67). -/
def execNoReply (n : Eng) (s : State) :=
  (Op.dyn fun s => Op.when (s.replyOver n) (Op.negAbandon n 0x10)).next s
/-- NEG_RX_CTL with ACK (R70, R77). -/
def execNegRxAck (p : Party) (n : Eng) (v : W) (s : State) :=
  (Op.gate p (NEG_RX_CTL n) true (domEng n) (Op.negRxCtl n (v ||| 0x80000000#32))).next s
/-- NEG_RX_CTL with NAK (R77). -/
def execNegRxNak (p : Party) (n : Eng) (v : W) (s : State) :=
  (Op.gate p (NEG_RX_CTL n) true (domEng n) (Op.negRxCtl n (v ||| 0x40000000#32))).next s

end Sys2Proof.Machine
end

