-- ==== Sys2Proof/Machine/Trig.lean ====
section
/-! DEFINITION. Real functions in fixed point: sine, cosine, the phase of a value and the natural logarithm with errors far below any
rounding (R144, R148, R155, R158, R160), the discrete Fourier transform (R132, R133, R145), decibels (R173, R330), and the
root-raised-cosine response (R132, R145). -/
namespace Sys2Proof.Machine

/-- π in units of 2^-128. -/
def piQ : Int := 1069028584064966747859680373161870783301
/-- Terms of a power series in units of 2^-128: each next term is the last times -x² over (k + 1)(k + 2). -/
def series (x : Int) : Nat → Nat → Int → Int → Int
  | 0, _, _, acc => acc
  | f + 1, k, t, acc => series x f (k + 2) (-(t * x / 2 ^ 128 * x / 2 ^ 128) / ((k + 1) * (k + 2) : Nat)) (acc + t)
/-- Sine and cosine of an angle of at most a turn, in units of 2^-128. -/
def sinQ (x : Int) : Int := series x 48 1 x 0
def cosQ (x : Int) : Int := series x 48 0 (2 ^ 128) 0
/-- The angle `num / den` turns, taken into a turn, in units of 2^-128 rad. -/
def turns (num den : Int) : Int := 2 * piQ * (num % den) / den
/-- exp(-2πj num / den) in units of 2^-s. -/
def unitQ (s : Nat) (num den : Int) : Int × Int := (rne (cosQ (turns num den)) (128 - s), -rne (sinQ (turns num den)) (128 - s))
/-- exp(-2πj num / den) in units of 2^-30. -/
def unitCx (num den : Int) : Int × Int := unitQ 30 num den

/-- A value rounded where the spec names no rounding: to one of its two neighbours, which one left free (log 25). The fixed-point
arithmetic errs by far less than 1/256, so a value that close to an integer counts as that integer. -/
def openRound (k : Nat) (num den : Int) : Int :=
  let q := num / den
  let r := num % den
  if 256 * r ≤ den then q else if 255 * den ≤ 256 * r then q + 1 else if Config.roundUp k num den then q + 1 else q
def openRoundCx (k : Nat) (v : Int × Int) (den : Int) : Int × Int := (openRound k v.1 den, openRound k v.2 den)

/-- ln(k / (k - 1)) in units of 2^-64, for k of at least 2. -/
def lnStep (k : Nat) : Int :=
  ((List.range 64).foldl (fun (a : Int × Nat) i => (a.1 + (2 ^ 65 / ((2 * i + 1) * a.2) : Nat), a.2 * (2 * k - 1) ^ 2))
    ((0 : Int), 2 * k - 1)).1
/-- ln n in units of 2^-64. -/
def lnQ (n : Nat) : Int := (List.range (n - 1)).foldl (fun a i => a + lnStep (i + 2)) 0

/-- The root-raised-cosine response at frequency `num / den` of the symbol rate for roll-off `b` / 1,000, in units of 2^-30
(R132). -/
def rrc (b : Nat) (num den : Nat) : Int :=
  -- |f| / SR against (1 - β) / 2 and (1 + β) / 2
  if Nat.ble (2000 * num) ((1000 - b) * den) then 2 ^ 30
  else if Nat.ble ((1000 + b) * den) (2000 * num) then 0
  else rne (cosQ (turns (2000 * num - (1000 - b) * den : Nat) (8 * b * den : Nat))) 98

/-! Complex integers. -/
def cMul (a b : Int × Int) : Int × Int := (a.1 * b.1 - a.2 * b.2, a.1 * b.2 + a.2 * b.1)
def cConj (a : Int × Int) : Int × Int := (a.1, -a.2)
def cAdd (a b : Int × Int) : Int × Int := (a.1 + b.1, a.2 + b.2)
/-- A product over 2^s, rounded. -/
def cScale (s : Nat) (a b : Int × Int) : Int × Int := let p := cMul a b; (rne p.1 s, rne p.2 s)
/-- Bin `j` of the transform of `N` values, times 2^60; `inv` for the opposite turn, without the factor 1 / N. -/
def dft (inv : Bool) (N : Nat) (x : Nat → Int × Int) (j : Int) : Int × Int :=
  (List.range N).foldl (fun a (i : Nat) => cAdd a (cMul (x i) (unitQ 60 (if inv then -(i * j) else i * j) N))) (0, 0)
/-- A value turned by a phase in 2^-32 turn (R155, R158). -/
def rotate (th : Int) (v : Int × Int) : Int × Int := openRoundCx 1 (cMul v (unitQ 60 (-th) 4294967296)) (2 ^ 60)
/-- The angle of a value of the first quadrant in 2^-32 turn, by binary digits below 2^k. -/
def angleBits (v : Int × Int) : Nat → Nat → Nat
  | 0, a => a
  | k + 1, a =>
    let c := turns (a + 2 ^ k : Nat) 4294967296
    angleBits v k (if v.1 * sinQ c ≤ v.2 * cosQ c then a + 2 ^ k else a)
/-- The phase of a value in 2^-32 turn (R158); that of 0, which the spec does not state, is left free (log 25). -/
def phase (v : Int × Int) : Int :=
  if v.1 = 0 ∧ v.2 = 0 then Config.phase0
  else if 0 < v.1 ∧ 0 ≤ v.2 then angleBits v 30 0
  else if v.1 ≤ 0 ∧ 0 < v.2 then 1073741824 + angleBits (v.2, -v.1) 30 0
  else if v.1 < 0 then 2147483648 + angleBits (-v.1, -v.2) 30 0
  else 3221225472 + angleBits (-v.2, v.1) 30 0

/-- The digits of the largest `d` with 10 log10(num / den) / n ≥ (d - 32,768) / u, from digit 2^(k-1) down. -/
def dbDigits (u n num den : Nat) : Nat → Nat → Nat
  | 0, d => d
  | k + 1, d =>
    let c := d + 2 ^ k
    dbDigits u n num den k (if (if Nat.ble 32768 c then Nat.ble (den ^ (10 * u) * 10 ^ (n * (c - 32768))) (num ^ (10 * u))
      else Nat.ble (den ^ (10 * u)) (num ^ (10 * u) * 10 ^ (n * (32768 - c)))) then c else d)
/-- 10 log10(num / den) / n in units of 1/u dB as a signed 16-bit value, held at the ends of that range (R173, R330): which neighbour a
value between two units takes is left free (log 25). -/
def decibelMean (u n num den : Nat) : Int :=
  let d := (dbDigits u n num den 16 0 : Int) - 32768
  let exact := if 0 ≤ d then den ^ (10 * u) * 10 ^ (n * d.toNat) == num ^ (10 * u)
    else den ^ (10 * u) == num ^ (10 * u) * 10 ^ (n * (-d).toNat)
  if d == 32767 || num == 0 || exact then d else if Config.roundUp u num den then d + 1 else d
/-- 10 log10(num / den) in units of 1/u dB. -/
def decibel (u num den : Nat) : Int := decibelMean u 1 num den

/-- |a|². -/
def cNorm (a : Int × Int) : Nat := (a.1 * a.1 + a.2 * a.2).toNat
/-- The part of a pair of polarisations. -/
def polOf {α : Type} (y : Bool) (a : α × α) : α := if y then a.2 else a.1
/-- A coefficient word: real part in [15:0], imaginary part in [31:16] (R133, R193). -/
def coefCx (w : BitVec 32) : Int × Int := (sgn 16 (w.toNat % 65536), sgn 16 (w.toNat / 65536))

end Sys2Proof.Machine
end

