-- ==== Sys2Proof/Machine/Encode.lean ====
section
/-! DEFINITION. The transmit data path to the bit: fill bits (R128), data and sign bits of a superframe (R213–R218), the deep-code
encoder (R210–R212, R215, R216, R219), the distribution matcher (R49, R50), and the symbols of a superframe (R36–R47, R51, R58,
R59, R130). -/
namespace Sys2Proof.Machine

/-- Bits of the fill generator x^31 + x^28 + 1 of an engine, from bit `a` since power-up on (R128). -/
def fillBits (n a len : Nat) : List Bool :=
  let seed := (List.range 31).map fun i => (Config.fillSeed n).getLsbD i
  (((lfsrBits 3 31 (a + len) seed).take len).reverse)

/-- Bits `a` to `a + len - 1` of the generator x^31 + x^28 + 1 that a LOOP test drives the DACs with (R453). -/
def loopBits (a len : Nat) : List Bool :=
  ((lfsrBits 3 31 (a + len) ((List.range 31).map fun i => Config.loopSeed.getLsbD i)).take len).reverse

/-! Codeword geometry (R213–R217). -/

/-- Do the symbols of codeword `w` of length `l` lie in one run, of superframes `a` to `b` (R214)? -/
def cwSent (a b l w : Nat) : Bool := Nat.ble (125456 * a) (w * l) && Nat.ble ((w + 1) * l) (125456 * (b + 1))
/-- Parity slots of the stream positions below Z, of codewords sent without a break (R215). -/
def parityBelow (pt l z : Nat) : Nat := z / l * pt + z % l * pt / l
/-- The stream positions of superframe `sn` that belong to sent codewords, of a run that begins with `r0` and ends with `sn` when
`last` (R214): they are one interval, here counted from the superframe's first position. -/
def sentFrom (l r0 sn : Nat) : Nat := Nat.max (125456 * sn) ((125456 * r0 + l - 1) / l * l) - 125456 * sn
def sentTo (l r0 sn : Nat) (last : Bool) : Nat :=
  if last then Nat.max (sentFrom l r0 sn) (Nat.min 125456 ((125456 * (sn + 1)) / l * l - 125456 * sn)) else 125456
/-- Does DM block `i` (R218: block i div 2 of polarisation i mod 2) hold only symbols of [a, b)? -/
def dmFull (a b i : Nat) : Bool := Nat.ble a (128 * (i / 2) + i % 2) && Nat.blt (128 * (i / 2) + 126 + i % 2) b
/-- The DM blocks, of both polarisations, that hold no idle symbol. -/
def dmWhole (a b : Nat) : Nat := ((List.range 1960).filter (dmFull a b)).length
/-- Data bits of superframe `sn` of a run that begins at `r0` and ends with it when `last` (R214, R218), and the fill bits of its
idle symbols and of the DM blocks that hold one (R217). -/
def dataBits (g : Gait) (r0 sn : Nat) (last : Bool) : Nat × Nat :=
  let l := g.cwLen
  let pt := cwSlots g.oh
  let lo := 125456 * sn
  let a := sentFrom l r0 sn
  let b := sentTo l r0 sn last
  let par := parityBelow pt l (lo + b) - parityBelow pt l (lo + a)
  let dm := dmWhole a b
  (g.k * dm + 2 * (b - a) - par, g.k * (1960 - dm) + 2 * (125456 - (b - a)))

/-! One superframe. -/

def SfRec.g (r : SfRec) : Gait := gaitOf r.w0 r.w1 r.w2
def SfRec.l (r : SfRec) : Nat := r.g.cwLen
/-- The interval of sent positions. -/
def SfRec.a (r : SfRec) : Nat := sentFrom r.l r.r0 r.sn
def SfRec.b (r : SfRec) : Nat := sentTo r.l r.r0 r.sn r.last
def SfRec.sent (r : SfRec) (z : Nat) : Bool := Nat.ble r.a z && Nat.blt z r.b
/-- The k input bits of DM block `i` (R217, R218): data bits, or fill bits where the block holds an idle symbol. -/
def SfRec.dmIn (r : SfRec) (i : Nat) : List Bool :=
  let k := r.g.k
  let before := ((List.range i).filter (dmFull r.a r.b)).length
  if dmFull r.a r.b i then (r.data.drop (k * before)).take k else (r.fill.drop (k * (i - before))).take k
/-- The integer of input bits, first bit most significant (R50). -/
def bitsVal (l : List Bool) : Nat := l.foldl (fun a b => 2 * a + (if b then 1 else 0)) 0
/-- The amplitude indices of DM block `i` (R50); QPSK carries index 0 throughout (R49). -/
def SfRec.dmAmps (r : SfRec) (i : Nat) : List Nat :=
  let g := r.g
  if g.cnst == 0 then List.replicate 128 0 else dmEncode 128 (bitsVal (r.dmIn i)) [g.n1, g.n3, g.n5, 128 - g.n1 - g.n3 - g.n5]
/-- The amplitude index of stream symbol `z` in I or Q (R49): amplitude 2(q mod 64), or one more for Q, of its block; the tail
has index 0. -/
def SfRec.amp (r : SfRec) (z : Nat) (im : Bool) : Nat :=
  let q := z / 2
  if Nat.ble 62720 q then 0 else (r.dmAmps (2 * (q / 64) + z % 2)).getD (2 * (q % 64) + (if im then 1 else 0)) 0
/-- The amplitude bits c2 to c(m-1) of a stream symbol (R47). -/
def ampBits (m : Nat) (i q : Nat) : List Bool :=
  let g := fun x => let y := gray x; if m == 6 then [y.testBit 1, y.testBit 0] else if m == 4 then [y.testBit 0] else []
  g i ++ g q
/-- A sign bit of an own stream symbol that is no parity slot: `c` 0 or 1 with `k` parity slots before it (R217, R218). -/
def SfRec.signData (r : SfRec) (z c k : Nat) : Bool :=
  let pt := cwSlots r.g.oh
  let z0 := 125456 * r.sn
  if r.sent z then
    r.data.getD (r.g.k * dmWhole r.a r.b + 2 * (z - r.a) - (parityBelow pt r.l (z0 + z) - parityBelow pt r.l (z0 + r.a)) + (c - k)) false
  else r.fill.getD (r.g.k * (1960 - dmWhole r.a r.b) + 2 * (if Nat.blt z r.a then z else z - (r.b - r.a)) + c) false

/-! Codewords (R210–R212, R215, R216). -/

/-- The information bits of a codeword symbol in the order of R216: the sign bits that are no parity slots, then the amplitude
bits. -/
def SfRec.info (r : SfRec) (z k : Nat) : List Bool :=
  (if k == 0 then [r.signData z 0 0, r.signData z 1 0] else if k == 1 then [r.signData z 1 1] else [])
    ++ ampBits (constBits r.g.cnst) (r.amp z false) (r.amp z true)
/-- Superframe `sn` of the recent ones, once its bits are known. -/
def findSf (rs : List SfRec) (sn : Nat) : Option SfRec := rs.find? fun r => r.sn == sn && r.done
/-- The information positions Q of codeword `w` (R216). -/
def cwInfo (rs : List SfRec) (g : Gait) (w : Nat) : List Bool :=
  (List.range g.cwLen).flatMap fun j =>
    let z := w * g.cwLen + j
    match findSf rs (z / 125456) with
    | some r => r.info (z % 125456) (paritySlots (cwSlots g.oh) g.cwLen j)
    | none => []
/-- u[i] of R216 from the information positions. -/
def uBits (q : List Bool) : List Bool := (List.range 30000).map fun i => q.getD (interleave i) false
/-- The LDPC information of a codeword: u with its BCH parity (R206, R212). -/
def bchWord (q : List Bool) : List Bool := let u := uBits q; u ++ bchParity u
/-- What parity slot `t` of a codeword carries (R210, R215). -/
def slotBit (o : Nat) (word : List Bool) (t : Nat) : Bool :=
  if Nat.ble (t + 46) (cwSlots o) then
    let v := parityVar o t - 30336
    ldpcParity (fun k => word.getD k false) (v / 384) (v % 384)
  else word.getD (30000 + t - (cwSlots o - 45)) false
/-- The two sign bits of a stream symbol of a superframe (R48, R215, R217). -/
def SfRec.signs (r : SfRec) (rs : List SfRec) (z : Nat) : Bool × Bool :=
  let g := r.g
  let zz := 125456 * r.sn + z
  let j := zz % r.l
  let pt := cwSlots g.oh
  let k := if r.sent z then paritySlots pt r.l j else 0
  let t := j * pt / r.l
  let par := fun x => slotBit g.oh (bchWord (cwInfo rs g (zz / r.l))) (t + x)
  (if Nat.ble 1 k then par 0 else r.signData z 0 k, if k == 2 then par 1 else r.signData z 1 k)

/-! Symbols (R36–R47, R51, R58, R59, R130). -/

/-- The kind of symbol at a position, with its number (R36, R37). -/
inductive SymKind where
  | sync (k : Nat)
  | pilot (j : Nat)
  | overhead (o : Nat)
  | payload (q : Nat)
/-- The symbol at position `p`. -/
def symKind (p : Nat) : SymKind :=
  if Nat.blt p 256 then .sync p
  else if p % 32 == 0 then .pilot ((p - 256) / 32)
  else let u := (p - 257) / 32 * 31 + (p - 257) % 32
    if Nat.blt u 512 then .overhead u else .payload (u - 512)
/-- Slice bit `j` of the 32 bytes of a slice: each byte most significant bit first (R58). -/
def sliceBits (bs : List Byte) : List Bool := bs.flatMap byteBits
/-- Overhead symbol `o` of a polarisation (R59). -/
def ohSym (d : List Bool) (y : Bool) (o : Nat) : Int × Int :=
  let r := (if y then 1024 else 0) + 2 * o
  qpsk (ohRaw d r) (ohRaw d (r + 1))
/-- A known symbol on the reference scale: sync under an epoch, or pilot (R43, R44). -/
def syncSym (epoch y : Bool) (k : Nat) : Int × Int := if y then syncY epoch k else syncX k
def pilotSym (y : Bool) (j : Nat) : Int × Int := if y then pilotY j else pilotX j
def cTimes (s : Int) (a : Int × Int) : Int × Int := (s * a.1, s * a.2)
/-- The symbol of a superframe at position `p`, in datapath units (R130). -/
def SfRec.sym (r : SfRec) (rs : List SfRec) (y : Bool) (p : Nat) : Int × Int :=
  match symKind p with
  | .sync k => cTimes 4096 (syncSym r.epoch y k)
  | .pilot j => cTimes 4096 (pilotSym y j)
  | .overhead o => cTimes 4096 (ohSym (sliceBits r.slice) y o)
  | .payload q =>
    let z := 2 * q + (if y then 1 else 0)
    let c := r.signs rs z
    cTimes r.g.scale (labelPoint (c.1 :: c.2 :: ampBits (constBits r.g.cnst) (r.amp z false) (r.amp z true)))
/-- What the encoder sends over the tile link for a superframe (R219): the DM input bits and the sign bits, and the lane of each
codeword that begins in it (R224). -/
def SfRec.dmBits (r : SfRec) : List (List Bool) := (List.range 1960).map r.dmIn
def SfRec.signBits (r : SfRec) (rs : List SfRec) : List Bool :=
  (List.range 125456).flatMap fun z => let c := r.signs rs z; [c.1, c.2]
def SfRec.laneOf (r : SfRec) : List (Nat × Nat) :=
  ((List.range (125456 / r.l + 2)).map fun i => (125456 * r.sn + r.l - 1) / r.l + i).filterMap fun w =>
    if Nat.blt (w * r.l) (125456 * (r.sn + 1)) && r.sent (w * r.l - 125456 * r.sn) then some (w, w % Nat.max 1 r.lanes) else none

/-- The symbols and samples of one engine are counted from its superframe 0; the number of a superframe wraps at 2^24 (R38). -/
def sfOf (i : Int) (len : Nat) : Nat := (i / (len : Int) % (2 ^ 24 : Nat)).toNat
def posOf (i : Int) (len : Nat) : Nat := (i % (len : Int)).toNat

end Sys2Proof.Machine
end

