-- ==== Sys2Proof/Machine/Samples.lean ====
section
/-! DEFINITION. The receive stages before the equaliser, as functions of the ADC codes and of what governs them: ADC and slice
correction (R81, R82, R91), IQ correction (R144), and CD compensation (R145–R149). -/
namespace Sys2Proof.Machine

/-! What governs the samples. -/

/-- What governs the samples of engine `n` from sample `a` on: the active copies, the tracked values and, for a generated response,
D of its source (R145). -/
def State.segNow (s : State) (n a : Nat) : RxSeg :=
  let m := s.reg (RX_MODE n + 0x4000)
  let src := getFld m RX_MODE_CDSRC
  { start := a
    corr := (List.range 4).map fun c => s.reg (CONV_ADC_CORR n c + 0x4000)
    slice := (List.range 4).map fun c => (List.range 64).map fun k => s.reg (CONV_SLICE_CORR n c k + 0x4000)
    map := (List.range 4).map fun c => s.reg (CONV_ADC_MAP n c + 0x4000)
    track := (s.engS n).track
    iq := (List.range 2).map fun p => s.reg (RX_IQ n p + 0x4000)
    mode := m
    eq := s.reg (RX_EQ_CFG n + 0x4000)
    ovl := s.fld (RX_CD_OVL n + 0x4000) RX_CD_OVL_OVL
    disp := 8 * (if src == 0 then sgn 24 (s.fld (RX_CD_EST n) RX_CD_EST_EST) else sgn 24 (s.fld (RX_CD_D n + 0x4000) RX_CD_D_D))
    lam := s.fld (RX_CD_LAMBDA n + 0x4000) RX_CD_LAMBDA_LAMBDA
    sr := s.engSr n
    cd := if src == 2 then (List.range 131072).map fun j => s.coefWord n (0x80000 + 4 * j) else [] }
/-- What governs sample `i`. -/
def RxPath.seg (r : RxPath) (d : RxSeg) (i : Nat) : RxSeg := (r.segs.find? fun g => Nat.ble g.start i).getD d
/-- What the datapath words from now on are governed by, when it differs from before. -/
def Op.segOpen (n a : Nat) : Op := Op.dyn fun s =>
  let g := s.segNow n a
  Op.when (match (s.engS n).rxp.segs with | h :: _ => { h with start := a } != g | [] => true)
    (Op.eng n fun e => { e with rxp := { e.rxp with segs := (g :: e.rxp.segs).take 64 } })

/-! ADC and slice correction. -/

/-- ADC code `i` of ADC `a` since power-up (R81, R82); 0 where it is no longer held. -/
def RxPath.code (r : RxPath) (a : Nat) (i : Int) : Int :=
  let w := (i / 256).toNat
  if i < 0 || Nat.ble r.wordN w then 0
  else sgn 8 (((r.words.getD (r.wordN - 1 - w) []).getD a []).getD (i % 256).toNat 0#8).toNat
/-- The physical slice of logical slice `k` of ADC `a` (R95): 64 to 67 are the spares. -/
def RxSeg.phys (g : RxSeg) (a k : Nat) : Nat :=
  let w := g.map.getD a 0
  match (List.range 4).find? fun x => bitFld w ⟨8 * x + 7, 8 * x + 7⟩ && getFld w ⟨8 * x + 5, 8 * x⟩ == k with
  | some x => 64 + x
  | none => k
/-- y[i] of R91 of physical slice `p`, from a stream of codes, in units of 2^-56 code. -/
def RxSeg.correctedOf (g : RxSeg) (code : Int → Int) (a p : Nat) (i : Nat) : Int :=
  let k := i % 64
  let t := Tab.get g.track (fun _ => Track.init) (a * 68 + p)
  let cw := g.corr.getD a 0
  let sw := (g.slice.getD a []).getD k 0
  let taps := Config.corrTaps g.sr t.skew t.bw
  let x := (List.range 11).foldl
    (fun v j => v + taps.getD j 0 * (if j == 5 then 16384 + t.gain else 16384) * code ((i : Int) + j - 5)) 0
  let o := sgn 16 (getFld cw CONV_ADC_CORR_O) + sgn 16 (getFld sw CONV_SLICE_CORR_O)
  (getFld cw CONV_ADC_CORR_G : Nat) * (getFld sw CONV_SLICE_CORR_G : Nat) * (x - o * 2 ^ 20 - t.off * 2 ^ 22)
/-- y[i] of R91, in units of 2^-56 code. -/
def RxSeg.corrected (g : RxSeg) (r : RxPath) (a : Nat) (i : Nat) : Int := g.correctedOf (r.code a) a (g.phys a (i % 64)) i
/-- The corrected sample as the chain carries it, in 2^-16 code (DESIGN CHOICE, log 28). -/
def RxSeg.sample (g : RxSeg) (r : RxPath) (a i : Nat) : Int := rne (g.corrected r a i) 40

/-! IQ correction. -/

/-- I and Q of polarisation `y` after the stage (R144). -/
def RxSeg.iqOut (g : RxSeg) (r : RxPath) (y : Bool) (i : Nat) : Cx :=
  let p := if y then 1 else 0
  let w := g.iq.getD p 0
  let sk := sgn 8 (getFld w RX_IQ_SKEW)
  let ph := sgn 8 (getFld w RX_IQ_PHASE) * 2 ^ 118
  let re := g.sample r (2 * p) i
  let im := if sk == 0 then g.sample r (2 * p + 1) i
    else Config.iqDelay (5 * sk * g.sr) ((List.range 33).map fun x => g.sample r (2 * p + 1) (i + x - 16))
  (re, rneDiv ((getFld w RX_IQ_GAIN : Nat) * im * 2 ^ 118 - re * sinQ ph) (cosQ ph))

/-! CD compensation. -/

/-- A block and its exponent, shifted so that the largest magnitude lies in [2^14, 2^15) (R146). -/
def bfpNorm (b : List Cx) (e : Int) : List Cx × Int :=
  let m := b.foldl (fun a x => Nat.max a (Nat.max x.1.natAbs x.2.natAbs)) 0
  if m == 0 then (b, e)
  else
    let k := m.log2
    if Nat.ble k 14 then (b.map (cTimes ((2 ^ (14 - k) : Nat) : Int)), e - (14 - k : Nat))
    else
      let c := fun v => clampI (-32768) 32767 (rne v (k - 14))
      (b.map fun x => (c x.1, c x.2), e + (k - 14 : Nat))
/-- One pass of radix `r` of a transform of 131,072 points, of which `n` points remain in each of `s` interleaved parts, in order of
frequency at the end: its results are in 2^-60 (R146, log 28). -/
def bfpPass (inv : Bool) (r n s : Nat) (x : List Cx) : List Cx :=
  let m := n / r
  let w := fun (a b : Nat) => unitQ 30 (if inv then -(a : Int) else (a : Int)) b
  (List.range (n * s)).map fun i =>
    let q := i % s
    let c := i / s % r
    let p := i / (s * r)
    cMul ((List.range r).foldl (fun a d => cAdd a (cMul (x.getD (q + s * (p + d * m)) (0, 0)) (w (c * d) r))) (0, 0)) (w (p * c) n)
/-- The radix of a pass: eight are 4 and one is 2, at a place left free (R146). -/
def bfpRadix (p : Nat) : Nat := if p == Config.radix2At.val then 2 else 4
/-- The transform of a block with its exponent, or its inverse without the factor 1 / 131,072: nine passes, each on a normalised
block (R145, R146). -/
def bfpFft (inv : Bool) (b : List Cx × Int) : List Cx × Int :=
  ((List.range 9).foldl (fun (a : (List Cx × Int) × Nat × Nat) p =>
    let r := bfpRadix p
    let x := bfpNorm a.1.1 a.1.2
    ((bfpPass inv r a.2.1 a.2.2 x.1, x.2 - 60), a.2.1 / r, a.2.2 * r)) (b, 131072, 1)).1
/-- The signed number of bin `j` of 131,072 (R145). -/
def binNo (j : Nat) : Int := if Nat.blt j 65536 then j else (j : Int) - 131072
/-- Hcd of a generated response at bin `j`, in 2^-30 (R148): λ² D f² / (2c) turns, with λ in 0.01 nm, D in 1/8 ps/nm and f a multiple
of fs / 131,072. -/
def hcdGen (lam : Nat) (d : Int) (sr j : Nat) : Cx :=
  unitCx ((lam : Int) * lam * d * binNo j * binNo j * 25 * sr * sr) (8 * 10 ^ 7 * 16384 ^ 2 * 131072 ^ 2 * 2 * 299792458)
/-- The response of the stage at bin `j`, in 2^-30 (R145, R147): the stored coefficient or the generated one, times the matched
filter. -/
def RxSeg.resp (g : RxSeg) (j : Nat) : Cx :=
  let h := if getFld g.mode RX_MODE_CDSRC == 2 then cTimes 65536 (coefCx (g.cd.getD j 0)) else hcdGen g.lam g.disp g.sr j
  cScale 30 h (rrc (getFld g.mode RX_MODE_ROLLOFF) (5 * (binNo j).natAbs) 524288, 0)
/-- Output sample `i` of a block that overlaps by `v` under response `h`, from an input stream (R145, R146). -/
def cdBlock (v : Nat) (h : Nat → Cx) (x : Int → Cx) (i : Nat) : Cx :=
  let hop := 131072 - v
  let a : Int := (i / hop * hop : Nat) - (v : Int)
  let f := bfpFft false ((List.range 131072).map fun (k : Nat) => x (a + k), 0)
  let f := bfpNorm f.1 f.2
  let p := bfpFft true ((List.range 131072).map fun k => cMul (f.1.getD k (0, 0)) (h k), f.2 - 30)
  let y := p.1.getD (v + i % hop) (0, 0)
  let e := p.2 - 17
  let put := fun (u : Int) => if 0 ≤ e then u * ((2 ^ e.toNat : Nat) : Int) else rne u (-e).toNat
  (put y.1, put y.2)
/-- The input of the CD stage. -/
def State.iqAt (s : State) (n : Nat) (y : Bool) (i : Int) : Cx :=
  let r := (s.engS n).rxp
  if i < 0 then (0, 0) else (r.seg (s.segNow n 0) i.toNat).iqOut r y i.toNat
/-- The overlap in force at a sample, in samples. -/
def RxSeg.v (g : RxSeg) : Nat := 1024 * Nat.min 64 g.ovl
/-- Output sample `i` of the CD stage (R143, R145): the block that holds a marker is computed for either side of it. -/
def State.cdAt (s : State) (n : Nat) (y : Bool) (i : Nat) : Cx :=
  let g := (s.engS n).rxp.seg (s.segNow n 0) i
  cdBlock g.v g.resp (s.iqAt n y) i
/-- Samples that must have come before output sample `i` is known: its block and the reach of the filters before it. -/
def RxSeg.need (g : RxSeg) (i : Nat) : Nat := (i / (131072 - g.v) + 1) * (131072 - g.v) + 32
/-- The metric of a trial of the dispersion scan at D over 524,288 samples from sample `a` on, with V = 65,536 (R150). -/
def State.scanMetric (s : State) (n a : Nat) (d : Int) : Nat :=
  let g := { (s.segNow n 0) with disp := d, mode := setFld (s.reg (RX_MODE n + 0x4000)) RX_MODE_CDSRC 0 }
  Config.bandEdge ((List.range 524288).map fun i =>
    (cdBlock 65536 g.resp (fun k => s.iqAt n false (k + a)) i, cdBlock 65536 g.resp (fun k => s.iqAt n true (k + a)) i))

end Sys2Proof.Machine
end

