-- ==== Sys2Proof/Machine/Symbols.lean ====
section
/-! DEFINITION. The equaliser with its timing loop and the derotator (R151–R155), symbol by symbol, and the search for sync words
(R164, R165, R173). -/
namespace Sys2Proof.Machine

/-! Known symbols and decisions. -/

/-- The symbol of a polarisation at a position that the receiver knows, in datapath units (R43, R44): sync and pilot. -/
def knownSym (epoch y : Bool) (p : Nat) : Option Cx :=
  match symKind p with
  | .sync k => some (cTimes 4096 (syncSym epoch y k))
  | .pilot j => some (cTimes 4096 (pilotSym y j))
  | _ => none
/-- The amplitude index nearest to a part at scale `s`, of `m` levels of either sign; the outer one half-way (log 28). -/
def nearIdx (s m : Nat) (v : Int) : Nat := Nat.min (m - 1) (v.natAbs / (2 * s))
/-- Levels of either sign of a constellation (R46). -/
def ampLevels (c : Nat) : Nat := if c == 0 then 1 else if c == 1 then 2 else 4
/-- The nearest point of a constellation at its scale. -/
def nearest (g : Gait) (v : Cx) : Cx :=
  let part := fun (x : Int) => level (decide (x < 0)) (nearIdx g.scale (ampLevels g.cnst) x) * g.scale
  (part v.1, part v.2)
/-- The QPSK decision of an overhead symbol. -/
def hardQpsk (v : Cx) : Cx := (if v.1 < 0 then -4096 else 4096, if v.2 < 0 then -4096 else 4096)
/-- The tentative decision at a position (R186). -/
def decide1 (g : Gait) (epoch y : Bool) (p : Nat) (v : Cx) : Cx :=
  match knownSym epoch y p with
  | some k => k
  | none => match symKind p with
    | .overhead _ => hardQpsk v
    | _ => nearest g v

/-! Phase recovery (R158). The known symbols that lie at multiples of 32 carry the estimates: pilots j = 0 to 2,039, and as
"further known symbols" the sync symbols of the same spacing, j = -8 to -1 (DEDUCED, log 28). The symbols of one polarisation are a
function of the position in the superframe; a window may reach into the superframes about it. -/

/-- The position of known symbol `i`, counted from j = -8. -/
def knownPos (i : Nat) : Nat := 32 * i
/-- The phase estimate at known symbol `i` of a polarisation's symbols. -/
def phaseEst (avg : Nat) (epoch y : Bool) (v : Int → Cx) (i : Nat) : Int :=
  phase ((List.range (2 * avg + 1)).foldl (fun a k =>
    if Nat.ble avg (i + k) && Nat.blt (i + k - avg) 2048 then
      match knownSym epoch y (knownPos (i + k - avg)) with
      | some x => cAdd a (cMul (v (knownPos (i + k - avg))) (cConj x))
      | none => a
    else a) (0, 0))
/-- The difference of two phases along the shorter arc. -/
def shortArc (a b : Int) : Int := sgn 32 (uns 32 (b - a))
/-- The phase at position `p`: interpolated between the known symbols about it; after the last pilot its estimate holds (log 28). -/
def phaseAt (est : Nat → Int) (p : Nat) : Int :=
  let a := est (p / 32)
  if Nat.ble 2047 (p / 32) then a else a + openRound 8 (shortArc a (est (p / 32 + 1)) * (p % 32 : Nat)) 32
/-- Refinement phase `m` of `k`, spread evenly over ±π/16 with both ends, in 2^-32 turn (log 28). -/
def blindPhase (k m : Nat) : Int := openRound 8 ((2 * (m : Int) - (k : Int) + 1) * 134217728) ((k : Int) - 1)
/-- The sum of squared distances to the constellation over the 2 w + 1 symbols about position `p`. -/
def blindCost (g : Gait) (w p : Nat) (v : Int → Cx) (th : Int) : Nat :=
  (List.range (2 * w + 1)).foldl (fun a (k : Nat) =>
    let z := rotate (-th) (v ((p : Int) + k - w))
    let d := nearest g z
    a + cNorm (z.1 - d.1, z.2 - d.2)) 0
/-- The phase removed at a position: the pilot-derived one, refined when BLIND is not off; the first of equal costs. -/
def phaseUsed (g : Gait) (pr : W) (est : Nat → Int) (v : Int → Cx) (p : Nat) : Int :=
  let th := phaseAt est p
  let k := if getFld pr RX_PR_CFG_BLIND == 1 then 16 else 32
  if getFld pr RX_PR_CFG_BLIND == 0 then th
  else
    let cost := fun m => blindCost g (getFld pr RX_PR_CFG_BWIN) p v (th + blindPhase k m)
    let best := (List.range k).foldl (fun b m => if Nat.blt (cost m) (cost b) then m else b) 0
    th + blindPhase k best
/-- The phase removed at position `p` of a superframe of entry `g` under the words RX_PR_CFG `pr`. -/
def recoverAt (g : Gait) (pr : W) (epoch y : Bool) (v : Int → Cx) (p : Nat) : Int :=
  phaseUsed g pr (phaseEst (getFld pr RX_PR_CFG_PAVG) epoch y v) v p
/-- Symbols after a symbol that its phase estimate may need (R158). -/
def recoverReach (pr : W) : Nat := 32 * (getFld pr RX_PR_CFG_PAVG + 1) + getFld pr RX_PR_CFG_BWIN

/-! The equaliser. -/

/-- A half-symbol step in 2^-32 sample: 5/8 sample (R151). -/
def halfStep : Nat := 2684354560
/-- The word of tap `t` of filter `f` in the unit centre condition with `nt` taps (R153). -/
def unitTap (nt f t : Nat) : W := if (f == 0 || f == 3) && t == (nt - 1) / 2 then 0x4000#32 else 0#32
/-- NTAPS of an engine. -/
def State.nTaps (s : State) (n : Nat) : Nat := s.fld (RX_EQ_CFG n + 0x4000) RX_EQ_CFG_NTAPS
/-- Tap `t` of filter `f`, signed 2.14; a tap beyond NTAPS is 0 (R151). -/
def RxPath.tap (r : RxPath) (nt f t : Nat) : Cx :=
  if Nat.ble nt t then (0, 0) else if r.taps.isEmpty then coefCx (unitTap nt f t) else r.taps.getD (63 * f + t) (0, 0)
/-- The two filter sums over the half-symbol samples, newest first, times 2^14 (R151). -/
def RxPath.fir (r : RxPath) (nt : Nat) (half : List Pol) : Pol :=
  let out := fun (f : Nat) => (List.range nt).foldl (fun a t =>
      let x := half.getD t ((0, 0), (0, 0))
      cAdd a (cAdd (cMul (r.tap nt f t) x.1) (cMul (r.tap nt (f + 1) t) x.2))) (0, 0)
  (out 0, out 2)
/-- A half-symbol sample at an instant (R151). -/
def State.halfAt (s : State) (n t : Nat) : Pol :=
  let f := fun y => Config.interp (t % 2 ^ 32) ((List.range 32).map fun k => s.cdAt n y (t / 2 ^ 32 + k - 16))
  (f false, f true)

/-- Output `o` of symbol `i` after the derotator, counted from the first; 0 where it is not held. -/
def RxPath.outAt (r : RxPath) (o : Bool) (i : Int) : Cx :=
  if i < 0 ∨ (r.symN : Int) ≤ i then (0, 0) else polOf o (r.syms.getD (r.symN - 1 - i.toNat) (((0, 0), (0, 0)), 0, 0)).1
/-- The derotator's phase at a symbol. -/
def RxPath.ncoAt (r : RxPath) (i : Nat) : Int := (r.syms.getD (r.symN - 1 - i) (((0, 0), (0, 0)), 0, 0)).2.2
/-- The first symbol of the superframe, in the spacing of the candidate's sync words, that holds symbol `i`. -/
def State.sfStart (s : State) (n i : Nat) : Int := let p : Int := (s.engS n).acq.pos; p + ((i : Int) - p) / 65536 * 65536
/-- What governs phase recovery and decisions at symbol `i`: the gait entry's words, RX_PR_CFG and the epoch of its superframe, or those
in force where it has no record. -/
def State.symGov (s : State) (n i : Nat) : Gait × W × Bool :=
  let u := s.sfStart n i
  match (s.engS n).rxp.sfs.find? fun q => q.t0.map (fun t => (t : Int)) == some u with
  | some q => (gaitOf q.w0 q.w1 q.w2, q.pr, q.epoch)
  | none => (s.gait n (s.rxAct n), s.reg (RX_PR_CFG n + 0x4000), s.bit (GAIT_STAT n) GAIT_STAT_EPOCH_RX)
/-- The distance of output `o` from its decision at symbol `i` in LOCKED: the known symbol, or the tentative decision after phase
recovery, rotated back through the phase estimate (R153, R158, R330). -/
def State.lmsErr (s : State) (n : Nat) (r : RxPath) (o : Bool) (i : Nat) : Cx :=
  let v := r.outAt o i
  let y := o != s.bit (RX_STAT n) RX_STAT_POL_SWAP
  let u := s.sfStart n i
  let p := ((i : Int) - u).toNat
  let g := s.symGov n i
  let th := recoverAt g.1 g.2.1 g.2.2 y (fun k => r.outAt o (u + k)) p
  let d := rotate th (decide1 g.1 g.2.2 y p (rotate (-th) v))
  (d.1 - v.1, d.2 - v.2)
/-- Symbols by which the errors taken in LOCKED come after their symbols, so that the phase estimate is known (log 28). -/
def State.lmsDelay (s : State) (n : Nat) : Nat := recoverReach (s.reg (RX_PR_CFG n + 0x4000)) + 32
/-- The error that an update takes at symbol `i`, times 2^24, before the derotator: towards a radius² of 2 reference units before LOCKED,
and in LOCKED towards the decision (R153). -/
def State.eqErr (s : State) (n : Nat) (r : RxPath) (o : Bool) (i : Nat) : Cx :=
  let v := r.outAt o i
  rotate (r.ncoAt i) (if s.rxLocked n then cTimes (2 ^ 24) (s.lmsErr n r o i) else cTimes (2 ^ 25 - (cNorm v : Int)) v)
/-- The taps after an update over `k` symbols (R153): each moves by 2^-mu of the sum of error times conjugate input in reference units,
over a divisor left free (log 28). -/
def State.tapUpdate (s : State) (n k nt mu : Nat) (r : RxPath) : List Cx :=
  let late := if s.rxLocked n then s.lmsDelay n else 0
  let ds := (List.range k).filter fun d => Nat.blt (d + late) r.symN
  let err := fun (o : Bool) => ds.map fun d => s.eqErr n r o (r.symN - 1 - late - d)
  let e := (err false, err true)
  (List.range 252).map fun i =>
    let f := i / 63
    let t := i % 63
    let g := (ds.zip (polOf (Nat.ble 2 f) e)).foldl (fun a x =>
      cAdd a (cMul x.2 (cConj (polOf (f % 2 == 1) (r.half.getD (2 * (x.1 + late) + t) ((0, 0), (0, 0))))))) (0, 0)
    let w := openRoundCx 9 (cTimes ((if Nat.ble 2 f then r.gain.2 else r.gain.1 : Nat) : Int) g) (2 ^ (64 + mu) * (Config.tapDiv + 1))
    let h := r.tap nt f t
    let put := fun (u : Int) => clampI (-32768) 32767 u
    if Nat.ble nt t then (0, 0) else (put (h.1 + w.1), put (h.2 + w.2))
/-- The centroid of tap energy is kept within a tap of the centre: beyond it the interpolator moves by half a symbol, and the taps and
the half-symbol samples with it (R152). -/
def State.recentre (s : State) (n nt : Nat) (r : RxPath) : RxPath :=
  let e := fun (w : Nat → Int) => (List.range 252).foldl (fun a i => a + w (i % 63) * cNorm (r.tap nt (i / 63) (i % 63))) 0
  let dev := e fun t => (t : Int) - ((nt - 1) / 2 : Nat)
  let all := e fun _ => 1
  let h := ((halfStep : Int) + r.tim).toNat
  let shift := fun (up : Bool) => (List.range 252).map fun i =>
    if up then (if i % 63 == 0 then (0, 0) else r.tap nt (i / 63) (i % 63 - 1)) else r.tap nt (i / 63) (i % 63 + 1)
  if r.taps.isEmpty || s.bit (RX_EQ_CTL n) RX_EQ_CTL_FREEZE then r
  else if dev < -all then { r with ph := r.ph + h, half := s.halfAt n r.ph :: r.half, taps := shift true }
  else if all < dev then { r with ph := r.ph - h, half := r.half.drop 1, taps := shift false }
  else r

/-- The limits of the interpolator: 200 ppm of a half-symbol step (R152). -/
def timLim : Int := 536870
/-- 5,000 MHz in units of 1,000 / 2^44 MHz, in which a step per symbol counts as itself times the symbol rate (R155). -/
def freqMax : Int := 5 * 2 ^ 44
/-- The step of the limit, and one beyond it, at which a step that exceeds it is kept. -/
def stepLim (sr : Nat) : Int := freqMax / (sr : Int)
/-- Is the estimate beyond the range (R155)? -/
def State.freqOver (s : State) (n : Nat) (r : RxPath) : Bool := decide (stepLim (s.engSr n) < r.step.natAbs)
/-- The estimate, held at the limit, in units of 1,000 / 2^44 MHz (R155). -/
def State.freqHeld (s : State) (n : Nat) (r : RxPath) : Int :=
  if s.freqOver n r then (if r.step < 0 then -freqMax else freqMax) else r.step * (s.engSr n : Int)
/-- The step that the derotator takes. -/
def State.stepNow (s : State) (n : Nat) (r : RxPath) : Int := clampI (-stepLim (s.engSr n)) (stepLim (s.engSr n)) r.step
/-- The residual step that the blind fourth-power estimator sees over `k` symbols: a quarter of the phase that the fourth power of the
outputs gains in a symbol (R155). -/
def RxPath.fourth (r : RxPath) (k : Nat) : Cx :=
  (List.range k).foldl (fun a (d : Nat) =>
    let i : Int := (r.symN : Int) - 1 - d
    let p4 := fun (o : Bool) (i : Int) => let v := r.outAt o i; let w := cMul v v; cMul w w
    cAdd a (cAdd (cMul (p4 false i) (cConj (p4 false (i - 1)))) (cMul (p4 true i) (cConj (p4 true (i - 1)))))) (0, 0)
/-- The phase that the last `k` pilots gain from one to the next, in the spacing of the candidate's sync words (R155). -/
def State.pilotDiff (s : State) (n k : Nat) (r : RxPath) : Cx :=
  let swap := s.bit (RX_STAT n) RX_STAT_POL_SWAP
  (List.range (32 * k)).foldl (fun a d =>
    let i := r.symN - 1 - d
    let u := s.sfStart n i
    let p := ((i : Int) - u).toNat
    if p % 32 == 0 && Nat.ble 288 p then
      let z := fun (o : Bool) (i : Nat) (p : Nat) => cMul (r.outAt o i) (cConj (pilotSym (o != swap) ((p - 256) / 32)))
      cAdd a (cAdd (cMul (z false i p) (cConj (z false (i - 32) (p - 32)))) (cMul (z true i p) (cConj (z true (i - 32) (p - 32)))))
    else a) (0, 0)
/-- The step after the estimator has seen the newest symbols (R155): its memory and gain are left free (log 28); beyond the range it stays
one step past the limit. -/
def State.freqStep (s : State) (n : Nat) (r : RxPath) : Int :=
  let lk := s.rxLocked n
  let k := Config.freqSpan lk + 1
  let v := if lk then s.pilotDiff n k r else r.fourth k
  let d := openRound 4 (sgn 32 (uns 32 (phase v))) ((if lk then 32 else 4) * 2 ^ Config.freqShift lk)
  let m := stepLim (s.engSr n) + 1
  if v.1 = 0 ∧ v.2 = 0 then r.step else clampI (-m) m (r.step + d)

/-- The end of a datapath clock (R152, R153, R155) whose last symbol is the newest: `k` symbols, under the word RX_EQ_CFG `cfg`. -/
def State.clockEnd (s : State) (n k : Nat) (cfg : W) (r : RxPath) : RxPath :=
  let nt := getFld cfg RX_EQ_CFG_NTAPS
  let mu := 8 + getFld cfg (if s.rxLocked n then RX_EQ_CFG_MU_LMS else RX_EQ_CFG_MU_CMA)
  let x := { r with taps := if s.bit (RX_EQ_CTL n) RX_EQ_CTL_FREEZE then r.taps else s.tapUpdate n k nt mu r }
  let e := fun (w : Nat → Int) => (List.range 252).foldl (fun a i => a + w (i % 63) * cNorm (x.tap nt (i / 63) (i % 63))) 0
  let y := s.recentre n nt { x with
    tim := clampI (-timLim) timLim (Config.timing r.tim nt (e fun t => (t : Int) - ((nt - 1) / 2 : Nat)) (e fun _ => 1).toNat)
    step := s.freqStep n r }
  let f := s.freqHeld n y
  { y with fsum := y.fsum + f, fcnt := y.fcnt + 1, tsum := y.tsum + f, tcnt := y.tcnt + 1 }

/-- One symbol through the equaliser and the derotator (R151, R155), with the centre sample of its filter. Before LOCKED the scale of an
output is left free; in LOCKED it is that which the pilots of the last superframe gave. -/
def State.symStep (s : State) (n : Nat) (r : RxPath) : RxPath :=
  let h := ((halfStep : Int) + r.tim).toNat
  let cfg := (r.seg (s.segNow n 0) ((r.ph + h) / 2 ^ 32)).eq
  let nt := getFld cfg RX_EQ_CFG_NTAPS
  let half := (s.halfAt n (r.ph + h) :: s.halfAt n r.ph :: r.half).take 4096
  let v := r.fir nt half
  let gain := if s.rxLocked n then r.gain else (Config.eqGain r.gain.1 v.1, Config.eqGain r.gain.2 v.2)
  let out := fun (g : Nat) (v : Cx) => rotate (-r.nco) (openRoundCx 10 (cTimes (g : Int) v) (2 ^ 44))
  let r' := { r with
    half := half
    gain := gain
    syms := ((((out gain.1 v.1, out gain.2 v.2)), (r.ph + h - (nt - 1) / 2 * h) / 2 ^ 32, r.nco) :: r.syms).take 196608
    symN := r.symN + 1
    ph := r.ph + 2 * h
    nco := (r.nco + s.stepNow n r) % 4294967296 }
  -- 320 clocks carry 65,536 symbols
  let c := r.symN * 320 / 65536
  if c == (r.symN + 1) * 320 / 65536 then r' else s.clockEnd n (r.symN + 1 - (c * 65536 + 319) / 320) cfg r'
/-- Every symbol whose samples are known, up to the next boundary: those whose samples reach past it wait for what governs them there
(R143). -/
def State.symRun (s : State) (n : Nat) : Nat → RxPath → RxPath
  | 0, r => r
  | f + 1, r =>
    let i := (r.ph + halfStep) / 2 ^ 32 + 1
    let g := r.seg (s.segNow n 0) i
    if Nat.ble r.bnd (i + 16) || Nat.blt (256 * r.wordN) (g.need (i + 20)) then r else s.symRun n f (s.symStep n r)
/-- The scales after a superframe of LOCKED that begins at symbol `t`: pilots have a mean energy of 2 (R151). -/
def RxPath.regain (r : RxPath) (t : Nat) : Nat × Nat :=
  let f := fun (o : Bool) (g : Nat) =>
    let e := (List.range 2040).foldl (fun a j => a + cNorm (r.outAt o (t + pilotPos j : Nat))) 0
    if e == 0 then g else rneSqrt (g * g * 2 * 4096 * 4096 * 2040) e
  (f false r.gain.1, f true r.gain.2)

/-! Sync words (R164, R165). -/

/-- A value turned by `r` quarter turns. -/
def quarter (r : Nat) (v : Cx) : Cx :=
  if r == 0 then v else if r == 1 then (-v.2, v.1) else if r == 2 then (-v.1, -v.2) else (v.2, -v.1)
/-- The sync bits b(0) to b(1,023) (R42), and the sync words of X and of Y for epoch 0 (R43). -/
def syncBits : List Bool := (lfsrBits 9 11 1013 syncSeed.reverse).reverse
def pairUp : List Bool → List Cx
  | a :: b :: l => qpsk a b :: pairUp l
  | _ => []
def syncWordX : List Cx := pairUp (syncBits.take 512)
def syncWordY : List Cx := pairUp ((syncBits.drop 512).take 512)
/-- Symbol errors of a window against a word turned by `r` quarter turns. -/
def winErrs (word win : List Cx) (r : Nat) : Nat :=
  ((word.zip win).filter fun e =>
    let k := quarter r e.1
    decide (e.2.1 < 0) != decide (k.1 < 0) || decide (e.2.2 < 0) != decide (k.2 < 0)).length
/-- The window of 256 symbols from symbol `t` on, oldest first, when it is held. -/
def RxPath.window (r : RxPath) (t : Nat) : Option (List Pol) :=
  if Nat.ble (t + 256) r.symN then
    let w := (r.syms.drop (r.symN - (t + 256))).take 256
    if w.length == 256 then some (w.reverse.map (·.1)) else none
  else none
/-- The better of two tests: fewer errors, the first on a tie. -/
def fewer (a b : Nat × Bool × Nat) : Nat × Bool × Nat := if Nat.blt b.1 a.1 then b else a
/-- The best rotation of an output of a window: errors, output, rotation; the lower rotation on a tie. -/
def bestRot (w : List Pol) (o : Bool) : Nat × Bool × Nat :=
  let f := fun r => (winErrs syncWordX (w.map (polOf o)) r, o, r)
  fewer (fewer (fewer (f 0) (f 1)) (f 2)) (f 3)
/-- The strongest of the eight tests of a window: output 0 wins a tie. -/
def bestHit (w : List Pol) : Nat × Bool × Nat := fewer (bestRot w false) (bestRot w true)
/-- The strongest hit at a position, with at most `e` errors. -/
def RxPath.hitAt (r : RxPath) (e t : Nat) : Option (Nat × Bool × Nat) :=
  match r.window t with
  | some w => let b := bestHit w; if Nat.ble b.1 e then some b else none
  | none => none
/-- The first position from `t` on, of `k`, that holds a hit, with its output (R166). -/
def RxPath.firstHit (r : RxPath) (e : Nat) : Nat → Nat → Option (Nat × Bool)
  | _, 0 => none
  | t, k + 1 => match r.hitAt e t with
    | some b => some (t, b.2.1)
    | none => r.firstHit e (t + 1) k
/-- The strongest hit of `k` positions from `t` on (R165): position, output, errors; the earlier on a tie. -/
def RxPath.topHit (r : RxPath) (e : Nat) : Nat → Nat → Option (Nat × Bool × Nat)
  | _, 0 => none
  | t, k + 1 => match r.hitAt e t, r.topHit e (t + 1) k with
    | some b, some x => some (if Nat.ble b.1 x.2.2 then (t, b.2.1, b.1) else x)
    | some b, none => some (t, b.2.1, b.1)
    | none, x => x
/-- Positions before `t` whose symbols are no longer held need no search. -/
def RxPath.firstHeld (r : RxPath) (t : Nat) : Nat := Nat.max t (r.symN - r.syms.length)

/-- The bound E on symbol errors (R164). -/
def State.acqE (s : State) (n : Nat) : Nat := Nat.min 32 (s.fld (RX_ACQ_SYNC n) RX_ACQ_SYNC_E)

/-- 10 log10 of a ratio in 1/u dB as a 16-bit value where the spec states one: that of a ratio that has no logarithm, and a negative SNR,
which the register cannot hold, are left free (log 28). -/
def dbWord (use u num den : Nat) : BitVec 16 :=
  if num == 0 || den == 0 || (use == 1 && Nat.blt num den) then Config.noLog use num den else BitVec.ofInt 16 (decibel u num den)
/-- What a receiver sees at an expected position (R165, R166, R173): fewest errors over the four rotations and the best rotation,
the errors of the epoch-0 and epoch-1 forms of the Y sync word, and the stored peak. -/
structure SyncObs where
  errs   : Nat
  rot    : Nat
  y0     : Nat
  y1     : Nat
  peak   : Option (Nat × Bool × Nat)
  deriving DecidableEq, Repr

/-- The next expected position. -/
def State.expectPos (s : State) (n : Nat) : Nat := (s.engS n).acq.pos + 65536
/-- The centre sample of symbol `t`. -/
def RxPath.centre (r : RxPath) (t : Nat) : Nat := (r.syms.getD (r.symN - 1 - t) (((0, 0), (0, 0)), 0, 0)).2.1
/-- The sum of squares of the ADC codes over `k` samples from `a` on (R163). -/
def RxPath.energy (r : RxPath) (a k : Nat) : Nat :=
  (List.range k).foldl (fun x (i : Nat) => (List.range 4).foldl (fun y c => y + (r.code c ((a + i : Nat) : Int) ^ 2).toNat) x) 0
/-- The squared distance of the 256 symbols from `t` on of an output from its sync word, after phase recovery (R158, R173). -/
def State.syncNoise (s : State) (n t : Nat) (epoch y o : Bool) : Nat :=
  let r := (s.engS n).rxp
  let v := fun (k : Int) => r.outAt o (t + k)
  let pr := s.reg (RX_PR_CFG n + 0x4000)
  (List.range 256).foldl (fun a k =>
    let z := rotate (-recoverAt (s.gait n (s.rxAct n)) pr epoch y v k) (v k)
    let d := cTimes 4096 (syncSym epoch y k)
    a + cNorm (z.1 - d.1, z.2 - d.2)) 0
/-- P over the 320 samples of the sync word at symbol `t`, and the SNR over its symbols (R173). -/
def State.syncPower (s : State) (n t : Nat) : BitVec 16 :=
  let r := (s.engS n).rxp
  dbWord 0 100 (r.energy (r.centre t) 320) (1280 * 16384)
def State.syncSnr (s : State) (n t : Nat) (o : SyncObs) : BitVec 16 :=
  let out1 := (s.engS n).acq.out1
  let e := Nat.blt o.y1 o.y0
  dbWord 1 256 (2 * 512 * 4096 * 4096) (s.syncNoise n t e false out1 + s.syncNoise n t e true (!out1))
/-- The observation at the next expected position, once its window is held. -/
def State.syncObs (s : State) (n : Nat) : Option SyncObs :=
  let r := (s.engS n).rxp
  let q := (s.engS n).acq
  let t := s.expectPos n
  match r.window t with
  | none => none
  | some w =>
    let b := bestRot w q.out1
    let yw := w.map (polOf (!q.out1))
    let t0 := r.firstHeld (q.last + 1)
    some {
      errs := b.1
      rot := b.2.2
      y0 := winErrs syncWordY yw b.2.2
      y1 := winErrs (syncWordY.map fun v => (-v.1, -v.2)) yw b.2.2
      peak := r.topHit (s.acqE n) t0 (t - t0) }
/-- In LOCKED, have the symbols come that the phase recovery of the sync word at the next expected position needs (R158, R173)? -/
def State.syncReady (s : State) (n : Nat) : Bool :=
  !s.rxLocked n || Nat.ble (s.expectPos n + 256 + recoverReach (s.reg (RX_PR_CFG n + 0x4000))) (s.engS n).rxp.symN
/-- The epoch that the sync word at the next expected position shows (R166): none when both forms have more than E errors, or no
sync word has come. -/
def State.epochObs (s : State) (n : Nat) : Option Bool :=
  match s.syncObs n with
  | none => none
  | some o =>
    if Nat.blt (s.acqE n) o.y0 && Nat.blt (s.acqE n) o.y1 then none
    else if Nat.blt o.y1 o.y0 then some true
    else if Nat.blt o.y0 o.y1 then some false
    else none

end Sys2Proof.Machine
end

