-- ==== Sys2Proof/Machine/Receive.lean ====
section
/-! DEFINITION. The receiver's states and controls (R162, R166, R169–R172), the dispersion scan (R150), the equaliser's actions (R153,
R154), laser feedback (R156, R157) and the quality registers (R173). What its samples bring about is in Acquire. -/
namespace Sys2Proof.Machine

/-- Is every ADC selector LINE (R84, R85)? -/
def State.selLine (s : State) (n : Nat) : Bool := (s.reg (CONV_SEL n)) &&& 0xFF#32 == 0#32
def State.frozen (s : State) (n : Nat) : Bool := s.bit (RX_EQ_CTL n) RX_EQ_CTL_FREEZE

/-- End a mirror that has not been swapped in as ABORTED; its spare returns to FREE (R228). It shows STATE 3, DONE, for which the spec gives
no code beside ABORTED (DESIGN CHOICE, log 69). -/
def Op.mirrorCut : Op := Op.dyn fun s =>
  let spare := s.mir.spare
  Op.when (s.fld (POOL_UNIT spare) POOL_UNIT_STATE == 2) (Op.all [
    Op.setF POOL_MIRROR_STAT POOL_MIRROR_STAT_STATE 3, Op.setF POOL_MIRROR_STAT POOL_MIRROR_STAT_PASS 0,
    Op.flag POOL_MIRROR_STAT POOL_MIRROR_STAT_ABORTED, Op.setF (POOL_UNIT spare) POOL_UNIT_STATE 0,
    Op.pwr fun p => { p with poolW := none }, Op.poolWatch, Op.event 52 12])

/-- Drop overhead lock (R62, R171, R199): OFS and the hint are no longer valid and the hunt starts anew. -/
def Op.ohDrop (n : Nat) : Op :=
  Op.all [Op.setF (RX_STAT n) RX_STAT_OH_LOCK 0, Op.setF (ENG_SF_OFS n) ENG_SF_OFS_VALID 0,
    Op.setF (GLO_HINT_RX n) GLO_HINT_RX_VALID 0,
    Op.eng n fun e => { e with oh := { e.oh with good := [], fails := 0, other := 0 } }]

/-- Change the receive chain's data. -/
def Op.rxp (n : Nat) (f : RxPath → RxPath) : Op := Op.eng n fun e => { e with rxp := f e.rxp }
/-- Reset the equaliser taps (R154). -/
def Op.tapsReset (n : Nat) : Op := Op.rxp n fun r => { r with taps := [] }
/-- The groups of states over which DWELL is counted: POWER, and CD_SCAN to CANDIDATE (R163). -/
def dwellGroup (st : Nat) : Nat := if st == 2 then 1 else if Nat.ble 3 st && Nat.ble st 6 then 2 else 0

/-- Have datapath words `from_` to now of an engine taken `us` µs: its samples come at 5/4 of its symbol rate? -/
def State.elapsed (s : State) (n from_ us : Nat) : Bool :=
  Nat.ble (us * 5000 * s.engSr n) (((s.engS n).rxp.wordN - from_) * 256 * 16384)
/-- Enter a receiver state (R162, R163, R166, R171, R172, R228, R398 line 10). RESTART in POWER is no entry to it: DWELL goes on counting
(DESIGN CHOICE, log 69). On leaving LOCKED the runs that wait are not delivered (R171). -/
def Op.rxTo (n st : Nat) : Op := Op.dyn fun s =>
  let old := s.rxState n
  Op.all [Op.setF (RX_STAT n) RX_STAT_STATE st, Op.when (old != st) (Op.event n 10),
    Op.when (old == 7 && st != 7) (Op.all [Op.setF (RX_STAT n) RX_STAT_READY 0, Op.ohDrop n,
      Op.eng n (fun e => { e with acq := { e.acq with epo := none, snrs := [] }, rxp := { e.rxp with runs := [], clean := false } }),
      Op.when (s.mir.eng == n) Op.mirrorCut]),
    Op.when (dwellGroup old != dwellGroup st) (Op.rxp n fun r => { r with inSt := 0 }),
    -- taps hold the unit centre in states 0 to 3, unless they are frozen (R153); no frequency is estimated there (DEDUCED, log 28)
    Op.when (Nat.blt st 4) (Op.all [Op.when (!s.frozen n) (Op.tapsReset n),
      Op.setF (RX_FREQ n) RX_FREQ_LIMIT 0, Op.setF (RX_STAT n) RX_STAT_FREQ_LIMIT 0]),
    Op.when (st == 3) (Op.thn (Op.wr (RX_CD_EST n) 0) (Op.rxp n fun r => { r with scan0 := 256 * r.wordN, scan := [] })),
    -- the dwell of CONVERGE (R166)
    Op.when (st == 4) (Op.eng n fun e => { e with acq := { e.acq with
      conv0 := e.rxp.wordN
      rconv := old == 7 } }),
    -- the equaliser takes up with the samples from now on
    Op.when (st == 4 && Nat.blt old 4) (Op.rxp n fun r => { r with ph := 256 * r.wordN * 2 ^ 32, half := [], syms := [], nco := 0 }),
    Op.when (st == 5 && old == 4) (Op.rxp n fun r => { r with seen := r.symN })]

/-- Start acquisition anew (R166): the taps are reset even while FREEZE is 1 (DESIGN CHOICE, log 69). -/
def Op.rxRestart (n : Nat) : Op := Op.dyn fun s =>
  Op.when (Nat.ble 2 (s.rxState n)) (Op.all [Op.rxTo n 2, Op.tapsReset n, Op.wr (RX_CD_EST n) 0])

/-- A write of RX_CTL (R166, R177). -/
def Op.rxCtl (n : Nat) (v : W) : Op := Op.dyn fun s =>
  let en := v.getLsbD 0
  let was := s.bit (RX_CTL n) RX_CTL_EN
  Op.all [Op.setB (RX_CTL n) RX_CTL_EN en,
    if !en then Op.when (s.rxState n != 0) (Op.thn (Op.rxTo n 0) (Op.ohDrop n))
    else if !was || s.rxState n == 0 then Op.rxTo n (if s.selLine n then 2 else 1)
    else Op.when (v.getLsbD 1) (Op.rxRestart n)]

/-- The selectors of an engine have changed (R166). -/
def Op.rxSel (n : Nat) : Op := Op.dyn fun s =>
  let st := s.rxState n
  if s.selLine n then Op.when (st == 1) (Op.rxTo n 2)
  else Op.when (Nat.ble 2 st) (Op.thn (Op.rxTo n 1) (Op.ohDrop n))

/-! The dispersion scan (R150). -/

/-- Ds in ps/nm and K. -/
def State.scanStep (s : State) (n : Nat) : Nat := 10 * Nat.max 1 (s.fld (RX_CD_SCAN n) RX_CD_SCAN_STEP)
def State.scanK (s : State) (n : Nat) : Nat := s.fld (RX_CD_SCAN n) RX_CD_SCAN_RANGE * 1000 / s.scanStep n

/-- The index of the largest element, the earliest on a tie. -/
def bestIdx (l : List Nat) : Nat :=
  (l.foldl (fun (a : Nat × Nat × Nat) x => if a.1 == 0 || Nat.blt a.2.1 x then (a.1 + 1, x, a.1) else (a.1 + 1, a.2.1, a.2.2))
    (0, 0, 0)).2.2

/-- The coarse and the fine trials done, and the best of some trials: the earliest on a tie. -/
def RxPath.trials (r : RxPath) (fine : Bool) : List (Int × Nat) := (r.scan.filter fun t => t.1 == fine).map (·.2)
def bestTrial (l : List (Int × Nat)) : Nat := bestIdx (l.map (·.2))
/-- The next trial of the scan, under the registers as they are now (R182): whether it is a fine one, and its D in 1/8 ps/nm. 2K + 1
coarse ones come first, then 17 about the best of them. -/
def State.scanTrial (s : State) (n : Nat) : Bool × Int :=
  let r := (s.engS n).rxp
  let c := r.trials false
  let f := r.trials true
  if f.isEmpty && Nat.blt c.length (2 * s.scanK n + 1) then
    (false, 8 * (sgn 24 (s.fld (RX_CD_SCAN_CTR n) RX_CD_SCAN_CTR_CENTRE) + ((c.length : Int) - (s.scanK n : Int)) * (s.scanStep n : Int)))
  else (true, (c.getD (bestTrial c) (0, 0)).1 + ((f.length : Int) - 8) * (s.scanStep n : Int))
/-- The scan ends once its trials are done (R150). A fine trial that is no whole number of ps/nm is written as one of its two
neighbours, left free (log 3). -/
def Op.scanDone (n : Nat) : Op := Op.dyn fun s =>
  let r := (s.engS n).rxp
  let c := r.trials false
  let f := r.trials true
  let v := (f.getD (bestTrial f) (0, 0)).1
  let put := fun (d : Int) => Op.wr (RX_CD_EST n) (BitVec.ofNat 32 (0x80000000 + uns 24 d))
  Op.when (Nat.ble 17 f.length) (Op.all [
    Op.when (bestTrial c == 0 || bestTrial c + 1 == c.length) (Op.flag (RX_STAT n) RX_STAT_CD_EDGE),
    Op.eng n (fun e => { e with acq := { e.acq with repl := false } }), Op.rxTo n 4,
    if v % 8 = 0 then put (v / 8) else Op.free fun w => put (v / 8 + (if w.getLsbD 0 then 1 else 0))])

/-! The equaliser's registers (R154, R182). -/

/-- Copy all taps into the snapshot window as one set (R154). -/
def Op.snap (n : Nat) : Op := Op.dyn fun s =>
  let r := (s.engS n).rxp
  let nt := s.nTaps n
  Op.each (List.range 252) fun i =>
    let t := r.tap nt (i / 63) (i % 63)
    Op.wr (RX_EQ_TAP n (i / 63) (i % 63)) (BitVec.ofInt 16 t.2 ++ BitVec.ofInt 16 t.1)

/-- A write of RX_EQ_CTL (R153, R154, R182): FREEZE, then RESET, then SNAP; taps that are not frozen hold the unit centre in states 0
to 3. -/
def Op.eqCtl (n : Nat) (v : W) : Op := Op.dyn fun s =>
  Op.all [Op.setB (RX_EQ_CTL n) RX_EQ_CTL_FREEZE (v.getLsbD 0),
    Op.when (v.getLsbD 1 || (!v.getLsbD 0 && Nat.blt (s.rxState n) 4)) (Op.tapsReset n),
    Op.when (v.getLsbD 2) (Op.snap n)]

/-- The bits [i] of a 24-bit value as six nibbles, most significant first. -/
def nibbles24 (v : Nat) : List (BitVec 4) := [5, 4, 3, 2, 1, 0].map fun i => BitVec.ofNat 4 (v / 16 ^ i)

/-- The ten nibbles of an ADJUST message (R157). -/
def adjustMsg (slot : Nat) (v : Int) : List (BitVec 4) :=
  let body : List (BitVec 4) := BitVec.ofNat 4 slot :: 1#4 :: nibbles24 (uns 24 v)
  0#4 :: body ++ [body.foldl (· ^^^ ·) 0#4]

/-- v of R156 from the sum of the estimates over the period, in units of 1,000 / 2^44 MHz, and their number. -/
def tuneStep (w : W) (sum : Int) (cnt : Nat) : Int :=
  let m : Int := (getFld w RX_TUNE_CFG_MAX_STEP : Nat)
  clampI (-m) m (rneDiv ((getFld w RX_TUNE_CFG_GAIN : Int) * sum * 1000) (256 * 2 ^ 44 * (Nat.max cnt 1 : Nat)))
/-- TUNE_CLK of a bus runs while an engine of it is in Run (R157). -/
def State.tuneClk (s : State) (b : Nat) : Bool := (List.range 12).any fun i => s.inRun (domEng (12 * b + i))
/-- Has a laser-feedback period ended (R156)? -/
def State.tuneDue (s : State) (n : Nat) : Bool :=
  s.elapsed n (s.engS n).rxp.tune0 (100 * s.fld (RX_TUNE_CFG n) RX_TUNE_CFG_PERIOD)
/-- The end of a laser-feedback period (R156, R157): a message is followed by two idle nibbles. -/
def Op.tune (n : Nat) : Op := Op.dyn fun s =>
  let w := s.reg (RX_TUNE_CFG n)
  let r := (s.engS n).rxp
  let v := tuneStep w r.tsum r.tcnt
  Op.thn (Op.when (bitFld w RX_TUNE_CFG_EN && Nat.ble 4 (s.rxState n) && s.tuneClk (n / 12)
        && decide ((getFld w RX_TUNE_CFG_DEADBAND : Int) ≤ (v.natAbs : Int)))
      (Op.emit (.tune (n / 12) (adjustMsg (n % 12) v ++ [15#4, 15#4]))))
    (Op.rxp n fun r => { r with tsum := 0, tcnt := 0, tune0 := r.wordN })

/-- A read of RX_SYNCQ_SF: the holding copy is the reading party's (R173, R394). -/
def Op.syncqRead (p : Party) (n : Nat) : Op := Op.dyn fun s =>
  Op.all [Op.data p (s.reg (RX_SYNCQ_SF n)), Op.latch p (RX_SYNCQ_PWR n) ((s.engS n).acq.qpwr.setWidth 32),
    Op.latch p (RX_SYNCQ_SNR n) ((s.engS n).acq.qsnr.setWidth 32)]

/-- The hunt limit elapses (R169, R170). -/
def Op.huntOver (n : Nat) : Op := Op.dyn fun s =>
  let st := s.rxState n
  let q := (s.engS n).acq
  let repl := q.repl
  Op.when ((st == 5 || st == 6 || (st == 4 && repl)) && s.elapsed n (if repl then q.conv0 else q.hunt0) (if repl then 50 else q.limit)) (
    if repl then Op.all [Op.flag (RX_STAT n) RX_STAT_REPLACE_SLOW,
      Op.eng n (fun e => { e with acq := { e.acq with repl := false } }), Op.rxTo n 3]
    else Op.all [Op.when (!s.bit (RX_STAT n) RX_STAT_ACQ_FAIL) (Op.raise (srcEng n 9) 0x0A 0 0),
      Op.flag (RX_STAT n) RX_STAT_ACQ_FAIL, Op.count (RX_ACQ_FAIL_CNT n) 1, Op.rxTo n 2])

/-! Rows. -/

/-- RX_CTL.EN written 1 (R166). -/
def execRxEnable (p : Party) (n : Eng) (v : W) (s : State) :=
  (Op.gate p (RX_CTL n) true (domEng n) (Op.rxCtl n (v ||| 1#32))).next s
/-- RX_CTL.EN written 0 (R166). -/
def execRxDisable (p : Party) (n : Eng) (v : W) (s : State) :=
  (Op.gate p (RX_CTL n) true (domEng n) (Op.rxCtl n (v &&& ~~~1#32))).next s
/-- RX_CTL.RESTART written 1 (R166). -/
def execRxRestart (p : Party) (n : Eng) (v : W) (s : State) :=
  (Op.gate p (RX_CTL n) true (domEng n) (Op.rxCtl n (v ||| 2#32))).next s
/-- A read of RX_SYNCQ_SF (R173). -/
def execRxSyncqRead (p : Party) (n : Eng) (s : State) :=
  (Op.gate p (RX_SYNCQ_SF n) false (domEng n) (Op.syncqRead p n)).next s
/-- RX_EQ_CTL.RESET (R154). -/
def execEqReset (p : Party) (n : Eng) (v : W) (s : State) :=
  (Op.gate p (RX_EQ_CTL n) true (domEng n) (Op.eqCtl n (v ||| 2#32))).next s

end Sys2Proof.Machine
end

