-- ==== Sys2Proof/Machine/Transmit.lean ====
section
/-! DEFINITION. The transmitter: what its switching on needs (R126), and saturation of the DACs (R137). Switching on and off and the
transmit boundaries are in Boundary. -/
namespace Sys2Proof.Machine

/-- May EN = 1 be accepted (R126)? -/
def State.txMayStart (s : State) (n : Nat) : Bool :=
  s.inRun (domEng n) && (s.gait n (s.txAct n)).valid && !s.txcBad n 0x4000 && !s.bit (TX_STAT n) TX_STAT_ON
    && (s.engS n).tx == .off

/-- The transmitter goes off: an open negotiation is abandoned with TX_OFF, and no ABANDON is sent once nothing is (R67). -/
def Op.negTxOff (n : Nat) : Op := Op.dyn fun s =>
  let st := (s.engS n).prop.st
  Op.thn (Op.when (st == 1 || st == 2) (Op.negAbandon n 0x12))
    (Op.eng n fun e => { e with prop := { e.prop with abandon := none } })

/-- A DAC saturates (R137). -/
def Op.dacSat (n c : Nat) : Op := Op.dyn fun s =>
  let st : Fld := ⟨4 + c, 4 + c⟩
  Op.when (s.bit (TX_STAT n) TX_STAT_ON) (Op.all [
    Op.when (!s.bit (TX_STAT n) st) (Op.condSet (srcEng n (4 + c)) 0x03 0 0),
    Op.flag (TX_STAT n) st, Op.flag (TX_STAT n) ⟨8 + c, 8 + c⟩,
    Op.when (!(s.engS n).txClip.getLsbD c) (Op.count (TX_CLIP_CNT n c) 1),
    Op.eng n fun e => { e with txClip := e.txClip ||| (1#4 <<< c) }])

/-- At the end of a superframe at the pads: CLIP_LIVE clears when the superframe passed without saturation (R137). -/
def Op.clipEnd (n : Nat) : Op := Op.dyn fun s =>
  Op.thn (Op.each (List.range 4) fun c =>
      Op.when (!(s.engS n).txClip.getLsbD c && s.bit (TX_STAT n) ⟨8 + c, 8 + c⟩)
        (Op.thn (Op.setF (TX_STAT n) ⟨8 + c, 8 + c⟩ 0) (Op.condClear (srcEng n (4 + c)) 0x03 0 0)))
    (Op.eng n fun e => { e with txClip := 0 })

/-- A DAC code saturates (R137). -/
def execDacSaturation (n : Eng) (c : Fin 4) (s : State) := (Op.dacSat n c).next s

end Sys2Proof.Machine
end

