-- ==== Sys2Proof/Machine/Mem.lean ====
section
/-! DEFINITION. The protected memories: their regions, layout and keys (R407, R110, R346, R348), what a write of a word does to
its log entry, its write-back, its poison and a pending or armed injection (R410, R413, R415, R416, R418, R419), and the writes
that are discarded (R29, R194, R299, R351, R512). -/
namespace Sys2Proof.Machine

/-- The key of the first byte of a region (R407). -/
def regionBase (r : Nat) : Nat :=
  if Nat.blt r 0x30 then coefKey r 0
  else if Nat.blt r 0x60 then 0x20000000 + (r - 0x30) * 0x400000
  else if r == 0x60 then 0x38000000
  else if r == 0x61 then 0
  else 0x30000000 + (r - 0x62) * 0x40000
/-- The region of a key. -/
def regionOf (k : Nat) : Nat :=
  if Nat.blt k 0x10000000 then 0x61
  else if Nat.blt k 0x20000000 then (k - 0x10000000) / 0x400000
  else if Nat.blt k 0x30000000 then 0x30 + (k - 0x20000000) / 0x400000
  else if Nat.blt k 0x38000000 then 0x62 + (k - 0x30000000) / 0x40000
  else 0x60
/-- Bytes of a word and of a macro of a region, and its number of words (R407). -/
def wordSz (r : Nat) : Nat := if Nat.blt r 0x30 then 4 else 8
def macroSz (r : Nat) : Nat := if Nat.ble 0x62 r then 0x40000 else 0x80000
def regionWords (r : Nat) : Nat :=
  if Nat.blt r 0x30 then 0xA0000 else if Nat.blt r 0x60 then 0x80000 else if r == 0x60 then 0x800000
  else if r == 0x61 then 0x400000 else 0x8000
/-- The key of the word that holds a key. -/
def wordOf (k : Nat) : Nat := k - k % wordSz (regionOf k)
/-- The address of a word in the layout of ECC_LOG_ADDR (R428). -/
def logAddr (k : Nat) : W :=
  let r := regionOf k
  let o := k - regionBase r
  BitVec.ofNat 32 (o / macroSz r * 0x1000000 + o % macroSz r / 256 * 0x1000 + o % 256 / wordSz r * 0x40)
/-- The key of the word at an address in that layout. -/
def keyAt (r : Nat) (a : W) : Nat :=
  regionBase r + getFld a ECC_LOG_ADDR_MACRO * macroSz r + getFld a ECC_LOG_ADDR_ROW * 256 + getFld a ECC_LOG_ADDR_WORD * wordSz r
/-- The keys of a cell's data region and code banks (R346) and of a capture byte (R110). -/
def cellKey (d off : Nat) : Nat := regionBase (0x62 + d) + off
def capKey (n off : Nat) : Nat := regionBase (0x30 + n) + off

/-! The code and the log (R408, R410, R428). -/

/-- The columns that a data bit may have: those of odd weight, other than the check bits' columns of weight 1 (R408). -/
def eccCands (small : Bool) : List (BitVec 8) :=
  ((List.range (if small then 128 else 256)).filter fun x => popc x 8 % 2 == 1 && popc x 8 != 1).map (BitVec.ofNat 8)
/-- `n` of them, no two alike: which ones the data bits have is not stated (log 6). -/
def pickCols (small : Bool) : Nat → Nat → List (BitVec 8) → List (BitVec 8)
  | 0, _, _ => []
  | n + 1, i, l =>
    let j := Config.eccColumn small i % l.length
    l.getD j 0 :: pickCols small n (i + 1) (l.eraseIdx j)
/-- The column of a data bit in the check matrix of a code. -/
def eccCol (small : Bool) (i : Nat) : BitVec 8 := (pickCols small (if small then 32 else 64) 0 (eccCands small)).getD i 0
/-- The syndrome that a data mask and a check mask produce (R408): the xor of the columns named. -/
def flipSynd (r : Nat) (dm : Nat) (cm : BitVec 8) : BitVec 8 :=
  (List.range (8 * wordSz r)).foldl (fun a i => if dm.testBit i then a ^^^ eccCol (Nat.blt r 0x30) i else a) cm
/-- Is a syndrome that of a single error: odd weight, and equal to a column (R408)? Check bits have the columns of weight 1. -/
def syndSingle (r : Nat) (x : BitVec 8) : Bool :=
  popc x.toNat 8 % 2 == 1 && ((List.range (if Nat.blt r 0x30 then 7 else 8)).any (fun i => x == 1#8 <<< i)
    || (List.range (8 * wordSz r)).any fun i => x == eccCol (Nat.blt r 0x30) i)
/-- POISON (R408). -/
def poisonSynd : BitVec 8 := 0x0F#8
/-- The log entry of a word, if there is one (R410). -/
def State.logFind (s : State) (k : Nat) : Option Nat :=
  let r := regionOf k
  (List.range 32).find? fun e => s.bit (ECC_LOG_INFO r e) ECC_LOG_INFO_VALID && s.reg (ECC_LOG_ADDR r e) == logAddr k
/-- Write-backs scheduled in a region (R413). -/
def State.wbOf (s : State) (r : Nat) : List Nat := Tab.get s.ecc.wb (fun _ => []) r
def Op.wbSet (r : Nat) (f : List Nat → List Nat) : Op :=
  Op.ecc fun e => { e with wb := Tab.set e.wb (fun _ => []) r (f (Tab.get e.wb (fun _ => []) r)) }
/-- The injection that pends at a word (R419). -/
def State.injOf (s : State) (k : Nat) : Option Inject := s.ecc.inj.find? fun i => i.word == k
def State.injAt (s : State) (k : Nat) : Bool := (s.injOf k).isSome
/-- The injections that a test selects pend no more; PENDING reads 1 while any does (log 70). -/
def Op.injDrop (p : Inject → Bool) : Op := Op.dyn fun s =>
  let l := s.ecc.inj.filter fun i => !p i
  Op.thn (Op.ecc fun e => { e with inj := l }) (Op.setB ECC_FLIP_STAT ECC_FLIP_STAT_PENDING (!l.isEmpty))
/-- Is a word poisoned (R408)? -/
def State.poisoned (s : State) (k : Nat) : Bool := s.poison.contains k
def Op.poison (k : Nat) (b : Bool) : Op :=
  Op.mod fun s => { s with poison := if b then k :: s.poison.filter (fun x => x != k) else s.poison.filter (fun x => x != k) }

/-- The CD response copy that a key lies in: engine, receive, shadow (R407). -/
def State.cdCopy (s : State) (k : Nat) : Option (Nat × Bool × Bool) :=
  let n := regionOf k
  let o := k - regionBase n
  if Nat.blt n 0x30 && Nat.blt o 0x100000 then some (n, true, (o / 0x80000 == 1) == (s.engS n).cdRx)
  else if Nat.blt n 0x30 && Nat.blt o 0x180000 then some (n, false, ((o - 0x100000) / 0x40000 == 1) == (s.engS n).cdTx)
  else none
/-- Load GOOD_SHADOW of a CD response (R416). -/
def Op.goodShadow (n : Nat) (rx b : Bool) : Op := Op.eng n fun e => if rx then { e with goodRx := b } else { e with goodTx := b }

/-- A word has been written: `whole` tells that every byte was, `own` that the writer is the host, a drone or the datapath. -/
def Op.wordWritten (k : Nat) (whole own : Bool) : Op := Op.dyn fun s =>
  let r := regionOf k
  let dm := (s.reg ECC_FLIP_DATA_HI).toNat * 2 ^ 32 + (s.reg ECC_FLIP_DATA_LO).toNat
  let synd := flipSynd r dm (BitVec.ofNat 8 (s.fld ECC_FLIP_CHECK ECC_FLIP_CHECK_MASK))
  Op.all [
    match s.logFind k with | some e => Op.flag (ECC_LOG_INFO r e) ECC_LOG_INFO_ARMED | none => Op.skip,
    Op.when ((s.wbOf r).contains k) (Op.thn (Op.wbSet r fun l => l.filter fun x => x != k) (Op.count (FG_CANCEL_CNT r) 1)),
    Op.when (whole && s.injAt k) (Op.thn (Op.injDrop fun i => i.word == k) (Op.flag ECC_FLIP_STAT ECC_FLIP_STAT_LOST)),
    Op.when whole (Op.poison k false),
    match s.cdCopy k with | some (n, rx, true) => Op.goodShadow n rx false | _ => Op.skip,
    Op.when (whole && own && s.bit ECC_FLIP_CTL ECC_FLIP_CTL_ARM && s.fld ECC_FLIP_CTL ECC_FLIP_CTL_REGION == r) (Op.all [
      Op.wr ECC_FLIP_ADDR (logAddr k),
      Op.setF ECC_FLIP_EXP ECC_FLIP_EXP_SYND synd.toNat,
      Op.setF ECC_FLIP_CTL ECC_FLIP_CTL_ARM 0, Op.flag ECC_FLIP_CTL ECC_FLIP_CTL_USED,
      Op.flag ECC_FLIP_STAT ECC_FLIP_STAT_PENDING, Op.ecc fun e => { e with inj := ⟨r, k, synd⟩ :: e.inj }])]

/-- The number of a block's word in the client buffer, in its ingress or its egress half (R260): where a block lies is not stated (log 70). -/
def bufWord (out : Bool) (c i : Nat) : Nat := (if out then 0x400000 else 0) + (Config.bufWord out c i).val
/-- The key of a word of the client buffer. -/
def bufKey (i : Nat) : Nat := 0x38000000 + 8 * (i % 0x800000)
/-- Store bytes, given by key, as one access. -/
def Op.store (l : List (Nat × Byte)) (own : Bool) : Op :=
  Op.thn (Op.each l fun e => Op.byte e.1 e.2)
    (Op.each (uniq (l.map fun e => wordOf e.1)) fun k =>
      Op.wordWritten k ((List.range (wordSz (regionOf k))).all fun i => l.any fun e => e.1 == k + i) own)
/-- Consecutive bytes by key. -/
def cells (k : Nat) (bs : List Byte) : List (Nat × Byte) :=
  (List.range bs.length).map fun i => (k + i, bs.getD i 0)

/-- Is a range of comb addresses held by a steward command (R351)? -/
def State.combHeld (s : State) (a n : Nat) : Bool :=
  s.stw.op.isSome && Nat.blt a (s.stw.addr + s.stw.len) && Nat.blt s.stw.addr (a + n)
/-- A write of comb memory by the host, a drone or a unit of the device (R348, R351): discarded outside it. -/
def Op.combWr (a : Nat) (l : List (Nat × Byte)) (n : Nat) : Op := Op.dyn fun s =>
  if s.combHeld a n then Op.flag STW_CMD_STAT STW_CMD_STAT_WRITE_BLOCKED
  else Op.store (l.filter fun e => Nat.blt e.1 0x2000000) true
/-- Consecutive bytes into comb memory. -/
def Op.combPut (a : Nat) (bs : List Byte) : Op := Op.combWr a (cells a bs) bs.length

/-- An access to a BAR2 window of a domain (R506); while the engine is under test it reads 0 and writes nothing (R456). -/
def Op.gate2 (p : Party) (a : Nat) (wr : Bool) (dom : Nat) (o : Op) : Op := Op.dyn fun s =>
  if s.pwr.dead then Op.skip
  else if s.memTest dom then Op.when (!wr) (Op.data p 0#32)
  else if s.served dom then o
  else Op.dark p .bar2 a wr dom

/-- A write of one 4-byte word of the coefficient window of engine `n` at offset `o` (R29, R194, R512). -/
def Op.coefWr (n o : Nat) (v : W) : Op := Op.dyn fun s =>
  let put := match s.coefOff n o with
    | some x => Op.store (cells (coefKey n x) (leBytes 4 v.toNat)) true
    | none => Op.skip
  let held := fun b => s.pendBlk n b
  if Nat.blt o 0x80000 then (if held 5 then Op.flag (ENG_SWAP_STAT n) ENG_SWAP_STAT_WRITE_BLOCKED else put)
  else if Nat.ble 0x100000 o && Nat.blt o 0x140000 then
    (if held 4 then Op.flag (ENG_SWAP_STAT n) ENG_SWAP_STAT_WRITE_BLOCKED else put)
  else if Nat.ble 0x200000 o && Nat.blt o 0x300000 then
    (if s.pageOpen n ((o - 0x200000) / 0x200) then put
     else Op.thn (Op.flag (GLO_STAT n) GLO_STAT_WRITE_DISCARDED) (Op.count (GLO_DISCARD_CNT n) 1))
  else Op.skip

/-- One BAR2 write of 4 bytes under byte enables, or of 8 whole bytes when `up` gives the upper word (R299, R512). -/
def Op.bar2Wr (p : Party) (a : Nat) (be : BitVec 4) (v : W) (up : Option W) : Op :=
  let l := ((cells 0 (leBytes 4 v.toNat)).filter fun e => be.getLsbD e.1)
    ++ (match up with | some u => cells 4 (leBytes 4 u.toNat) | none => [])
  let sz := match up with | some _ => 8 | none => 4
  if Nat.blt a 0x2000000 then Op.combWr a (l.map fun e => (a + e.1, e.2)) sz
  else if Nat.ble 0x40000000 a && Nat.blt a 0x4C000000 then
    let n := (a - 0x40000000) / 0x400000
    Op.gate2 p a true (domEng n) (Op.thn (Op.when (be == 15#4) (Op.coefWr n ((a - 0x40000000) % 0x400000) v))
      (match up with | some u => Op.coefWr n ((a + 4 - 0x40000000) % 0x400000) u | none => Op.skip))
  else if Nat.ble 0xC0000000 a && Nat.blt a 0xCC000000 then
    let n := (a - 0xC0000000) / 0x400000
    Op.gate2 p a true (domEng n)
      (Op.store (l.map fun e => (capKey n ((a - 0xC0000000) % 0x400000 + e.1), e.2)) true)
  else Op.skip

/-- The key that a BAR2 address reads, and the engine whose domain serves it (none: reserved, or comb). -/
def State.bar2Key (s : State) (a : Nat) : Option (Nat × Option Nat) :=
  if Nat.blt a 0x2000000 then some (a, none)
  else if Nat.ble 0x40000000 a && Nat.blt a 0x4C000000 then
    let n := (a - 0x40000000) / 0x400000
    (s.coefOff n ((a - 0x40000000) % 0x400000)).map fun o => (coefKey n o, some n)
  else if Nat.ble 0xC0000000 a && Nat.blt a 0xCC000000 then
    let n := (a - 0xC0000000) / 0x400000
    some (capKey n ((a - 0xC0000000) % 0x400000), some n)
  else none

end Sys2Proof.Machine
end

