-- ==== Sys2Proof/Machine/Time.lean ====
section
/-! DEFINITION. The time unit: the counter and the scales (R303–R307), the servo and its states (R309–R317), PPS (R322, R323),
timing ports and scheduled launch (R320, R321, R329), and line time transfer (R324–R326). -/
namespace Sys2Proof.Machine

/-- The source number of the time unit (R436). -/
def srcTime : Nat := 2
def State.stampSt (s : State) : Nat := s.fld TU_STAT TU_STAT_STAMP_ST
def State.lineSt (s : State) : Nat := s.fld TU_STAT TU_STAT_LINE_ST

/-- An operation of the time unit with the MSI-X vector of R540: raised once when a TU_STAT bit of [7:0] rises or a scale's
state changes. A change of a scale's state also sets line 14 of the time drone (R398). -/
def Op.tuWatch (o : Op) : Op := Op.dyn fun s =>
  let a := s.reg TU_STAT
  Op.thn o (Op.dyn fun t =>
    let b := t.reg TU_STAT
    let st := (a ^^^ b) &&& 0xF0000000#32 != 0
    Op.thn (Op.when ((b &&& ~~~a) &&& 0xFF#32 != 0 || st) (Op.msix 58)) (Op.when st (Op.event 54 14)))

/-- A quotient that the spec does not round: one of the two whole neighbours, left free (log 3), or the exact value. -/
def Op.quot (num den : Int) (k : Int → Op) : Op :=
  if num % den = 0 then k (num / den) else Op.free fun w => k (num / den + (if w.getLsbD 0 then 1 else 0))

/-- Load a rate continuously: the new offset as a whole goes to the nearest 2^-32 ns (R305). -/
def rateLoad (c : Nat) (r : Int) (x : Scale) : Scale :=
  { x with o := rneDiv (x.o * (5 * 65536) + 4 * x.r * ((c : Int) - x.a)) (5 * 65536), r := r, a := c }
def Op.stampRate (r : Int) : Op := Op.time fun t => { t with stamp := rateLoad t.c r t.stamp }
def Op.lineRate (r : Int) : Op := Op.time fun t => { t with line := rateLoad t.c r t.line }

/-- A 40-bit rate held in its range (R305). -/
def rateClamp (r : Int) : Int := clampI (-(2 ^ 39)) (2 ^ 39 - 1) r

/-- The states of both scales (R310, R327). -/
def Op.tuStates (st ln : Nat) : Op :=
  Op.thn (Op.setF TU_STAT TU_STAT_STAMP_ST st) (Op.setF TU_STAT TU_STAT_LINE_ST ln)

/-- Each scale that is TRACKING enters HOLDOVER (R313): both run at I. -/
def Op.holdover : Op := Op.dyn fun s =>
  let a := s.stampSt == 1
  let b := s.lineSt == 1
  Op.when (a || b) (Op.all [
    Op.when a (Op.thn (Op.setF TU_STAT TU_STAT_STAMP_ST 2) (Op.stampRate s.time.integ)),
    Op.when b (Op.thn (Op.setF TU_STAT TU_STAT_LINE_ST 2) (Op.lineRate s.time.integ)),
    Op.flag TU_STAT TU_STAT_HOLDOVER,
    Op.condSet srcTime 0x1C 0 ((if a then 1 else 0) + (if b then 2 else 0))])

/-- End TIME_HOLDOVER when neither scale is in HOLDOVER, and TIME_STEP when stamp time has left STEP_HELD (R313, R314). -/
def Op.tuClears : Op := Op.dyn fun s =>
  Op.thn (Op.when (s.stampSt != 2 && s.lineSt != 2) (Op.condClear srcTime 0x1C 0 0))
    (Op.when (s.stampSt != 3) (Op.condClear srcTime 0x1D 2 0))

/-- Store a pending step (R314). -/
def Op.stepPend (e : Int) : Op :=
  Op.all [Op.time fun t => { t with pend := e }, Op.wr TU_STEP_PEND_LO (BitVec.ofNat 32 (uns 48 e)),
    Op.wr TU_STEP_PEND_HI (BitVec.ofNat 32 (uns 48 e / 2 ^ 32))]

/-- The rate of line time at an accepted sample (R316): I plus a slew held within LSLEW. -/
def Op.lineSlew : Op := Op.dyn fun s =>
  let d := scaleNum s.time.c s.time.stamp - scaleNum s.time.c s.time.line
  let tc : Int := s.fld TU_LINE_CFG TU_LINE_CFG_TC
  let ls : Int := s.fld TU_LINE_CFG TU_LINE_CFG_LSLEW
  let lim := ls * 281474976710656
  let put := fun x => Op.lineRate (rateClamp (s.time.integ + x))
  -- the slew term is d / (5 · 10^7 · TC), its limit lim / 10^9, both in 2^-48
  if tc = 0 ∨ lim * (50000000 * tc) < (d.natAbs : Int) * 1000000000 then
    Op.quot (if 0 < d then lim else if d < 0 then -lim else 0) 1000000000 put
  else Op.quot d (50000000 * tc) put

/-- A sample refused (R314). -/
def Op.sampleRefused (e : Int) : Op := Op.dyn fun s =>
  Op.all [Op.stepPend e, Op.count TU_STEP_REF_CNT 1, Op.flag TU_STAT TU_STAT_STEP_REFUSED,
    Op.when (s.stampSt != 3) (Op.all [
      Op.stampRate s.time.integ,
      Op.when (s.lineSt == 1) (Op.all [Op.lineRate s.time.integ, Op.setF TU_STAT TU_STAT_LINE_ST 2,
        Op.flag TU_STAT TU_STAT_HOLDOVER, Op.condSet srcTime 0x1C 0 2]),
      Op.setF TU_STAT TU_STAT_STAMP_ST 3,
      Op.condSet srcTime 0x1D 2 (uns 48 e % 2 ^ 40)])]

/-- A sample accepted while tracking (R312): `src` is its source, 0 for a phase adjustment, which leaves the integrator. -/
def Op.samplePhase (e : Int) (src : Nat) : Op := Op.dyn fun s =>
  let t := s.time
  let kp : Int := s.fld TU_SRV_GAIN TU_SRV_GAIN_KP
  let ki : Int := s.fld TU_SRV_GAIN TU_SRV_GAIN_KI
  let upd := fun (d : Int) =>
    let i := t.integ + d
    Op.all [Op.when (decide (rateClamp i ≠ i)) (Op.flag TU_STAT TU_STAT_RATE_SAT),
      Op.time fun t => { t with integ := rateClamp i }, Op.stampRate (rateClamp i)]
  Op.all [Op.time (fun t => { t with stamp := { t.stamp with o := t.stamp.o + kp * e } }),
    match t.last with
    | some (c0, k) => Op.when (src != 0 && k == src)
        (Op.quot (ki * e * 65536 * 5) (4 * (Nat.max 1 (t.c - c0) : Nat)) upd)
    | none => Op.skip]

/-- A sample e, in 2^-16 ns, is handled (R312). -/
def Op.sample (e : Int) (src : Nat) : Op := Op.dyn fun s =>
  let held := s.stampSt == 3
  if s.stampSt == 0 then
    Op.all [
      Op.time (fun t =>
        let st := { t.stamp with o := t.stamp.o + e * 65536 }
        -- T_l = T_s exactly, so that the slew of R316 is 0
        { t with stamp := st, line := st }),
      Op.lineSlew, Op.tuStates 1 1, Op.setF TU_STAT TU_STAT_SRC_OK 1, Op.time (fun t => { t with acc := t.c }),
      Op.when (src != 0) (Op.time fun t => { t with last := some (t.c, src) }), Op.tuClears]
  else if e.natAbs ≤ s.fld TU_SRV_LIM TU_SRV_LIM_STEP_THR * 65536 then
    Op.all [Op.samplePhase e src, Op.tuStates 1 1, Op.lineSlew, Op.setF TU_STAT TU_STAT_SRC_OK 1, Op.time (fun t => { t with acc := t.c }),
      Op.when held (Op.stepPend 0),
      Op.when (src != 0) (Op.time fun t => { t with last := some (t.c, src) }), Op.tuClears]
  else Op.sampleRefused e

/-- A sample from a source: ignored unless the source is selected (R309). -/
def Op.sampleFrom (src : Nat) (e : Int) : Op := Op.dyn fun s =>
  Op.when (s.fld TU_SRV_CFG TU_SRV_CFG_SRC == src) (Op.sample e src)

/-! Writes of the time unit's registers. -/

/-- The completion of a descriptor (R329): entries lie at the descriptor's own index (log 12). -/
def Op.completion (h : Nat) (d : Desc) (status : Nat) : Op := Op.dyn fun s =>
  let k := ((s.reg (TXC_BASE h)).toNat + 16 * d.slot) % 0x2000000
  let tag := d.word1.toNat / 65536 % 256
  Op.thn (Op.combPut k (leBytes 4 (status * 0x1000000 + tag) ++ leBytes 8 s.stamp ++ leBytes 4 0)) (Op.event 54 13)

/-- The descriptors held by harness `h` (R321). -/
def State.heldTx (s : State) (h : Nat) : List Desc := Tab.get s.time.held (fun _ => []) h
def Op.setHeld (h : Nat) (l : List Desc) : Op :=
  Op.time fun t => { t with held := Tab.set t.held (fun _ => []) h l }

/-- Drop every held launch (R311). -/
def Op.dropHeld : Op := Op.dyn fun s => Op.each (List.range 4) fun h =>
  Op.thn (Op.each (s.heldTx h) fun d => Op.thn (Op.completion h d 2) (Op.count (LAUNCH_DROP_CNT h) 1)) (Op.setHeld h [])

/-- RESET_TIME (R311). -/
def Op.resetTime : Op := Op.dyn fun s =>
  Op.all [Op.dropHeld,
    Op.time (fun t => { t with stamp := ⟨0, 0, 0, t.c⟩, line := ⟨0, 0, 0, t.c⟩, integ := 0, ppsOut := false }),
    Op.when s.time.ppsOut (Op.emit (.ppsOut false)), Op.stepPend 0, Op.tuStates 0 0, Op.tuClears,
    -- the present window of every bandwidth monitor does not count as valid (R498)
    Op.cnt fun c => { c with bw := c.bw.map fun e => (e.1, (e.2.1, false)) }]

/-- STEP_ACCEPT (R315), with a sample of the selected source that arrives in the same cycle. -/
def Op.stepAccept (smp : Option Int) : Op := Op.dyn fun s =>
  if s.stampSt == 3 then
    Op.all [Op.time (fun t => { t with stamp := { t.stamp with o := t.stamp.o + t.pend * 65536 } }),
      Op.count TU_STEP_CNT 1, Op.flag TU_STAT TU_STAT_STEPPED, Op.tuStates 1 1, Op.lineRate s.time.integ,
      Op.when smp.isSome (Op.thn (Op.count TU_DISCARD_CNT 1) (Op.flag TU_STAT TU_STAT_DISCARD)), Op.tuClears]
  else Op.thn (Op.flag TU_STAT TU_STAT_CMD_REFUSED)
    (match smp with | some e => Op.sample e (s.fld TU_SRV_CFG TU_SRV_CFG_SRC) | none => Op.skip)

/-- A write of TU_CTL (R328). -/
def Op.tuCtl (v : W) (smp : Option Int) : Op := Op.tuWatch (Op.all [
  Op.setB TU_CTL TU_CTL_SYNT (v.getLsbD 0),
  if v.getLsbD 31 then Op.stepAccept smp else Op.skip,
  Op.when (v.getLsbD 30) Op.resetTime])

/-- The signed 48-bit value of a HI word and its held LO word (R328). -/
def pair48 (hi lo : W) : Int := sgn 48 (hi.toNat % 65536 * 2 ^ 32 + lo.toNat)

/-- A write of TU_MEAS_HI (R309, R312). -/
def Op.tuMeas (hi : W) : Op := Op.tuWatch (Op.dyn fun s => Op.sampleFrom 1 (pair48 hi s.time.measLo))
/-- A write of TU_ADJ_HI (R313). -/
def Op.tuAdj (hi : W) : Op := Op.tuWatch (Op.dyn fun s =>
  Op.when (s.fld TU_SRV_CFG TU_SRV_CFG_SRC == 0) (Op.sample (pair48 hi s.time.adjLo) 0))
/-- A write of RATE_HI (R305, R313, R328): writable for stamp time while SRC is 0. -/
def Op.tuRate (line : Bool) (hi : W) : Op := Op.dyn fun s =>
  Op.when (!line && s.fld TU_SRV_CFG TU_SRV_CFG_SRC == 0)
    (Op.stampRate (sgn 40 (hi.toNat % 256 * 2 ^ 32 + s.time.rateLo.toNat)))
/-- A write of an EPOCH word (R310). -/
def Op.tuEpoch (line hi : Bool) (v : W) : Op := Op.tuWatch (Op.dyn fun s =>
  if (if line then s.lineSt else s.stampSt) != 0 then Op.flag TU_STAT TU_STAT_CMD_REFUSED
  else
    let put := fun (e : BitVec 48) =>
      if hi then BitVec.ofNat 48 (v.toNat % 65536 * 2 ^ 32 + e.toNat % 2 ^ 32)
      else BitVec.ofNat 48 (e.toNat / 2 ^ 32 * 2 ^ 32 + v.toNat)
    Op.time fun t => if line then { t with line := { t.line with e := put t.line.e } }
      else { t with stamp := { t.stamp with e := put t.stamp.e } })
/-- A write of TU_SRV_CFG (R313). -/
def Op.tuSrc (v : W) : Op := Op.tuWatch (Op.dyn fun s =>
  Op.all [Op.when (getFld v TU_SRV_CFG_SRC != s.fld TU_SRV_CFG TU_SRV_CFG_SRC) (Op.time fun t => { t with last := none }),
    Op.wr TU_SRV_CFG v, Op.when (getFld v TU_SRV_CFG_SRC == 0) Op.holdover])

/-- The words of a scale's NOW set (R306, R307): NOW_TS, NOW_SEC, NOW_NSEC. -/
def State.nowSet (s : State) (line : Bool) : Nat × Nat × Nat :=
  let k := if line then s.time.line else s.time.stamp
  let ns := scaleT s.time.c k / 65536
  (scaleTs s.time.c k, uns 48 (ns / 1000000000), (ns % 1000000000).toNat)

/-- A read of NOW_TS_LO (R306). -/
def Op.nowRead (p : Party) (line : Bool) : Op := Op.dyn fun s =>
  let c := if line then 1 else 0
  let v := s.nowSet line
  Op.all [Op.data p (BitVec.ofNat 32 v.1), Op.latch p (NOW_TS_HI c) (BitVec.ofNat 32 (v.1 / 2 ^ 32)),
    Op.latch p (NOW_SEC_LO c) (BitVec.ofNat 32 v.2.1), Op.latch p (NOW_SEC_HI c) (BitVec.ofNat 32 (v.2.1 / 2 ^ 32)),
    Op.latch p (NOW_NSEC c) (BitVec.ofNat 32 v.2.2)]

/-! PPS. -/

/-- A PPS_IN edge (R309, R323). The half second between edges is counted on C (log 13). -/
def Op.ppsEdge (rising : Bool) : Op := Op.tuWatch (Op.dyn fun s =>
  let t := s.time
  let dly := sgn 16 (s.fld TU_PPS_IN_DLY TU_PPS_IN_DLY_DLY)
  let ts := (scaleNum t.c t.stamp - dly * 140737488355328) / (5 * 4294967296)
  let m := (-ts) % (1000000000 * 65536)
  let e := if 500000000 * 65536 < m then m - 1000000000 * 65536 else m
  if rising == s.bit TU_PPS_CFG TU_PPS_CFG_IN_EDGE then Op.skip
  else if (match t.ppsIn with | some c0 => decide ((t.c : Int) - c0 < 625000000) | none => false) then
    Op.flag TU_STAT TU_STAT_PPS_GLITCH
  else Op.all [Op.time fun t => { t with ppsIn := some t.c },
    Op.wr TU_PPS_IN_TS_LO (BitVec.ofNat 32 (uns 48 ts)), Op.wr TU_PPS_IN_TS_HI (BitVec.ofNat 32 (uns 48 ts / 2 ^ 32)),
    Op.sampleFrom 3 e])

/-- A whole second of the selected scale, within 1.6 ns (R322). -/
def Op.ppsSecond : Op := Op.dyn fun s =>
  let st := if s.bit TU_PPS_CFG TU_PPS_CFG_OUT_CLASS then s.lineSt else s.stampSt
  -- 1.6 ns are 104,857 steps of 2^-16 ns
  let m := (scaleT s.time.c (if s.bit TU_PPS_CFG TU_PPS_CFG_OUT_CLASS then s.time.line else s.time.stamp) + 104857) % (1000000000 * 65536)
  Op.when (s.bit TU_PPS_CFG TU_PPS_CFG_OUT_EN && st != 0 && !s.time.ppsOut && decide (m ≤ 209714))
    (Op.thn (Op.time fun t => { t with ppsOut := true, rise := t.c }) (Op.emit (.ppsOut true)))

/-- PPS_OUT has been high for WIDTH (R322). -/
def Op.ppsFall : Op := Op.dyn fun s =>
  Op.when (s.time.ppsOut && Nat.ble (1250 * s.fld TU_PPS_CFG TU_PPS_CFG_WIDTH) (s.time.c - s.time.rise))
    (Op.thn (Op.time fun t => { t with ppsOut := false }) (Op.emit (.ppsOut false)))
/-- No sample has been accepted for TIMEOUT (R313). -/
def Op.sampleLate : Op := Op.dyn fun s =>
  Op.when (Nat.ble (1250000 * s.fld TU_SRV_LIM TU_SRV_LIM_TIMEOUT) (s.time.c - s.time.acc))
    (Op.thn (Op.setF TU_STAT TU_STAT_SRC_OK 0) Op.holdover)

/-! Timing ports (R320, R321, R329). -/

/-- The host lane of the timing port of harness `h`, as a local lane. -/
def State.tportLane (s : State) (h : Nat) : Nat := s.fld (TU_TPORT_CFG h) TU_TPORT_CFG_LANE
def State.tportUp (s : State) (h : Nat) : Bool := s.bit (PORT_STAT h (s.tportLane h)) PORT_STAT_ALIGNED
/-- Do all contexts that name host lane `l` as their port stand in IDLE (R320)? -/
def State.portFree (s : State) (l : Nat) : Bool :=
  !(s.regs.any fun e => Nat.ble (CTX_STAT 0) e.1 && Nat.blt e.1 (CTX_STAT 4096) && (e.1 - CTX_STAT 0) % 0x20 == 0
    && getFld e.2 CTX_STAT_STATE != 0 && s.fld (CTX_CFG ((e.1 - CTX_STAT 0) / 0x20)) CTX_CFG_PORT == l)

/-- A write of TU_TPORT_CFG (R320). -/
def Op.tportCfg (h : Nat) (v : W) : Op := Op.tuWatch (Op.dyn fun s =>
  if v.getLsbD 31 && !s.portFree (64 * h + getFld v TU_TPORT_CFG_LANE) then Op.flag TU_STAT TU_STAT_CMD_REFUSED
  else Op.wr (TU_TPORT_CFG h) v)

/-- The offset of the PTP header in an Ethernet frame of the encapsulations of R318, by the IEEE layouts (log 14). -/
def ptpAt (f : List Byte) : Option Nat :=
  let ty := beVal (f.extract 12 14)
  if ty == 0x88F7 then some 14
  else if ty == 0x0800 && (f.getD 23 0#8) == 17#8 then some (14 + (f.getD 14 0#8).toNat % 16 * 4 + 8)
  else if ty == 0x86DD && (f.getD 20 0#8) == 17#8 then some 62
  else none

/-- Is an Ethernet frame a PTP frame of an encapsulation of R318: EtherType 0x88F7, or UDP port 319 or 320 (log 14)? -/
def ptpFrame (f : List Byte) : Bool :=
  match ptpAt f with
  | some o => o == 14 || (let d := beVal (f.extract (o - 6) (o - 4)); d == 319 || d == 320)
  | none => false
/-- Replace the bytes of a list from an offset. -/
def splice (f : List Byte) (k : Nat) (l : List Byte) : List Byte := f.take k ++ l ++ f.drop (k + l.length)

/-- ONE_STEP (R320): stamp time into originTimestamp, its part below 1 ns added to correctionField. -/
def oneStep (f : List Byte) (t : Int) : List Byte :=
  match ptpAt f with
  | none => f
  | some o =>
    let ns := t / 65536
    let cf := beVal (f.extract (o + 8) (o + 16)) + (t % 65536).toNat
    splice (splice f (o + 8) (beBytes 8 cf)) (o + 34)
      (beBytes 6 (uns 48 (ns / 1000000000)) ++ beBytes 4 (ns % 1000000000).toNat)

/-- Are the pads of harness `h` held (R479)? -/
def State.padHeld (s : State) (h : Nat) : Bool := s.bit (PWR_DOM (domHrn h)) PWR_DOM_PAD_HOLD
/-- Lanes of a port by its configuration word (R275). -/
def portLanes (w : W) : Nat :=
  let t := getFld w PORT_CFG_TYPE
  if t == 0 || t == 3 then 2 else if t == 1 then 4 else if t == 2 then 8 else 2 ^ getFld w PORT_CFG_NLANES
/-- The clocks that the frame of a descriptor takes to leave: LENGTH bytes and its 8 bytes of preamble, at 200 Gb/s a lane, which is 160
bits in a clock (R239, R275; DESIGN CHOICE: the gap between frames is none, log 12). -/
def State.frameClks (s : State) (h : Nat) (d : Desc) : Nat :=
  let bits := 160 * portLanes (s.reg (PORT_CFG h (s.tportLane h)))
  (8 * (d.word1.toNat % 2048 + 8) + bits - 1) / bits

/-- Send the frame of a descriptor with a completion status, or drop it while the port is not aligned (R321). Nothing leaves while the pads
are held (R479). -/
def Op.txSend (h : Nat) (d : Desc) (late : Bool) : Op := Op.dyn fun s =>
  if !s.tportUp h then Op.thn (Op.count (LAUNCH_DROP_CNT h) 1) (Op.completion h d 2)
  else
    let f := s.bytes (d.addr.toNat % 0x2000000) (d.word1.toNat % 2048)
    let t := scaleT s.time.c s.time.stamp
    Op.all [Op.when (!s.padHeld h) (Op.emit (.frame h (if d.word1.getLsbD 30 then oneStep f t else f) late)),
      Op.when late (Op.count (LAUNCH_LATE_CNT h) 1), Op.completion h d (if late then 1 else 0),
      Op.time fun t => { t with busy := Tab.set t.busy (fun _ => 0) h (t.c + s.frameClks h d) }]

/-- How far a launch time lies after `now`, in 2^-16 ns; negative when it has passed (R307, R321). -/
def launchIn (now : Nat) (d : Desc) : Int := sgn 48 ((d.launch.toNat + 2 ^ 48 - now) % 2 ^ 48)
/-- Insert a held descriptor in order of launch time from `now`, equal times in ring order. -/
def insDesc (now : Nat) (d : Desc) : List Desc → List Desc
  | [] => [d]
  | x :: r => if decide (launchIn now d < launchIn now x) then d :: x :: r else x :: insDesc now d r

/-- The frames that wait for the timing port of harness `h`. Launched ones go first, each kind in its own order (R321; log 12). -/
def State.waitTx (s : State) (h : Nat) : List (Desc × Bool) := Tab.get s.time.wait (fun _ => []) h
def Op.setWait (h : Nat) (l : List (Desc × Bool)) : Op :=
  Op.time fun t => { t with wait := Tab.set t.wait (fun _ => []) h l }
def insWait (x : Desc × Bool) (l : List (Desc × Bool)) : List (Desc × Bool) :=
  if x.1.word1.getLsbD 31 then l.takeWhile (fun y => y.1.word1.getLsbD 31) ++ x :: l.dropWhile (fun y => y.1.word1.getLsbD 31)
  else l ++ [x]
/-- May the frame of a descriptor start now? The port is free, and an immediate frame would no longer be sending at the first held launch
(R321). -/
def State.txFits (s : State) (h : Nat) (d : Desc) : Bool :=
  Nat.ble (Tab.get s.time.busy (fun _ => 0) h) s.time.c
    && (d.word1.getLsbD 31 || match s.heldTx h with
      | [] => true
      | x :: _ => decide ((s.frameClks h d : Int) * 262144 ≤ 5 * launchIn s.lineTs x))
/-- The first frame that waits for a timing port is sent as soon as it may start. -/
def Op.portGo (h : Nat) : Op := Op.dyn fun s =>
  match s.waitTx h with
  | [] => Op.skip
  | x :: r => Op.when (s.txFits h x.1) (Op.thn (Op.setWait h r) (Op.txSend h x.1 x.2))
/-- A frame comes to a timing port. -/
def Op.portPut (h : Nat) (d : Desc) (late : Bool) : Op := Op.dyn fun s =>
  Op.thn (Op.setWait h (insWait (d, late) (s.waitTx h))) (Op.portGo h)

/-- Take the descriptor at a ring index (R321). -/
def Op.txTake (h slot : Nat) : Op := Op.dyn fun s =>
  let k := ((s.reg (TXQ_BASE h)).toNat + 16 * slot) % 0x2000000
  let w1 := s.word (k + 4)
  let l := BitVec.ofNat 48 ((s.word (k + 8)).toNat + (s.word (k + 12)).toNat % 65536 * 2 ^ 32)
  let d : Desc := ⟨slot, s.word k, w1, l⟩
  let late := decide (launchIn s.lineTs d < 0)
  if !w1.getLsbD 31 then Op.portPut h d false
  else if late then Op.portPut h d true
  else Op.setHeld h (insDesc s.lineTs d (s.heldTx h))

/-- Take `k` descriptors from a ring index on; the indices stop where the harness holds 64 (R321). -/
def Op.txTakes (h : Nat) : Nat → Nat → Op
  | 0, slot => Op.thn (Op.setF (TXQ_WR h) TXQ_WR_IDX slot) (Op.setF (TXQ_RD h) TXQ_RD_IDX slot)
  | k + 1, slot => Op.dyn fun s =>
    if Nat.ble 64 ((s.heldTx h).length + (s.waitTx h).length) then
      Op.thn (Op.setF (TXQ_WR h) TXQ_WR_IDX slot) (Op.setF (TXQ_RD h) TXQ_RD_IDX slot)
    else Op.thn (Op.txTake h slot) (Op.txTakes h k ((slot + 1) % 64))

/-- A write of TXQ_WR (R321): a disabled timing port takes no descriptor. -/
def Op.txqWr (h : Nat) (v : W) : Op := Op.dyn fun s =>
  let old := s.fld (TXQ_WR h) TXQ_WR_IDX
  let new := getFld v TXQ_WR_IDX
  if s.bit (TU_TPORT_CFG h) TU_TPORT_CFG_EN then Op.txTakes h ((new + 64 - old) % 64) old
  else Op.wr (TXQ_WR h) v

/-- Line time reaches the launch time of the first held descriptor (R321). While an earlier frame still leaves the port, it follows that
frame directly, counted as late. -/
def Op.launch (h : Nat) : Op := Op.dyn fun s =>
  match s.heldTx h with
  | [] => Op.skip
  | d :: r => Op.when (decide (launchIn s.lineTs d ≤ 0)) (Op.thn (Op.setHeld h r)
      (Op.portPut h d (Nat.blt s.time.c (Tab.get s.time.busy (fun _ => 0) h))))

/-- A frame arrives at a timing port (R320): PTP frames go to the receive ring, the stamp in the last 8 bytes of the entry
(log 12); other frames, and frames that meet a full ring, are discarded and counted. -/
def Op.tportRx (h : Nat) (bytes : List Byte) : Op := Op.dyn fun s =>
  let wr := s.fld (RXQ_WR h) RXQ_WR_IDX
  let k := ((s.reg (RXQ_BASE h)).toNat + 2048 * wr) % 0x2000000
  Op.when (s.bit (TU_TPORT_CFG h) TU_TPORT_CFG_EN) (
    if ptpFrame bytes && (wr + 1) % 64 != s.fld (RXQ_RD h) RXQ_RD_IDX then
      Op.all [Op.combPut k (bytes.take 2040), Op.combPut (k + 2040) (leBytes 8 s.stamp),
        Op.setF (RXQ_WR h) RXQ_WR_IDX (wr + 1), Op.event 54 12]
    else Op.count (RX_DISCARD_CNT h) 1)

/-! Line time transfer (R324–R326). -/

/-- The departure stamp of the superframe now at the pads: the first sample at the XI pad, INT included (R325). -/
def State.depStamp (s : State) (n : Nat) : BitVec 48 :=
  let i := sgn 8 (s.fld (TX_DELAY n 0 + 0x4000) TX_DELAY_INT)
  BitVec.ofNat 48 (uns 48 (scaleT s.time.c s.time.stamp + i * 2147483648 / (10 * (s.engSr n : Int))))

/-- Record the departure of multiframe `mf` (R325). -/
def Op.lttDepart (n : Nat) (mf : BitVec 24) : Op := Op.dyn fun s =>
  Op.eng n fun e => { e with ltt := { e.ltt with dep := ((mf, s.depStamp n) :: e.ltt.dep).take 2 } }
/-- Record the arrival of far multiframe `mf` (R325). -/
def Op.lttArrive (n : Nat) (mf : BitVec 24) : Op := Op.dyn fun s =>
  Op.eng n fun e => { e with ltt := { e.ltt with arr := ((mf, BitVec.ofNat 48 s.stamp) :: e.ltt.arr).take 16 } }

/-- The stamp of a multiframe in a list. -/
def stampOf (l : List (BitVec 24 × BitVec 48)) (mf : BitVec 24) : Option (BitVec 48) :=
  (l.find? (fun e => e.1 == mf)).map (·.2)

/-- The 32 bytes of the TIME field of the frame of multiframe `mf` (R324); all zero while LTT_CFG.EN is 0. -/
def State.timeField (s : State) (n : Nat) (mf : BitVec 24) : List Byte :=
  if !s.bit (LTT_CFG n) LTT_CFG_EN then List.replicate 32 0#8
  else
    let l := (s.engS n).ltt
    let dep := stampOf l.dep (mf - 8#24)
    let arr := l.arr.findSome? fun a => (stampOf l.far a.1).map fun f => (a.1, a.2, f)
    let flags := (if dep.isSome then 1 else 0) + (if arr.isSome then 2 else 0) + (if s.stampSt == 1 then 4 else 0)
      + (if s.fld TU_SRV_CFG TU_SRV_CFG_SRC == 2 && s.fld TU_SRV_CFG TU_SRV_CFG_ENG == n then 8 else 0)
    let a := arr.getD (0#24, 0#48, 0#48)
    beBytes 1 flags ++ beBytes 3 (if dep.isSome then (mf - 8#24).toNat else 0) ++ beBytes 6 (dep.getD 0#48).toNat
      ++ beBytes 3 a.1.toNat ++ beBytes 6 a.2.1.toNat ++ beBytes 6 a.2.2.toNat ++ List.replicate 7 0#8

/-- The accumulated dispersion D of R326 in 1/16 ps/nm; none gives no results. The residual CD is the fine output of channel 3
while it is VALID, else 0 (R340). -/
def State.lttD (s : State) (n : Nat) : Option Int :=
  if s.bit (LTT_CFG n) LTT_CFG_DSRC then some (16 * sgn 24 (s.fld (LTT_D n) LTT_D_D))
  else
    let res := if s.bit (MON_FINE n 3) MON_FINE_VALID then sgn 20 (s.fld (MON_FINE n 3) MON_FINE_OUT) else 0
    let src := s.fld (RX_MODE n + 0x4000) RX_MODE_CDSRC
    if src == 0 then some (16 * sgn 24 (s.fld (RX_CD_EST n) RX_CD_EST_EST) + res)
    else if src == 1 then some (16 * sgn 24 (s.fld (RX_CD_D n + 0x4000) RX_CD_D_D) + res)
    else none

/-- The end of an averaging interval (R326): the mean goes to LTT_THETA and to the servo. -/
def Op.lttMean (n : Nat) : Op := Op.dyn fun s =>
  let l := (s.engS n).ltt
  Op.when (Nat.ble (2 ^ s.fld (LTT_CFG n) LTT_CFG_DIV) l.mf) (Op.all [
    Op.eng n (fun e => { e with ltt := { e.ltt with sum := 0, cnt := 0, mf := 0 } }),
    Op.when (l.cnt != 0) (Op.quot l.sum (3200000 * (l.cnt : Int)) fun th => Op.all [
      Op.wr (LTT_THETA_LO n) (BitVec.ofNat 32 (uns 48 th)),
      Op.wr (LTT_THETA_HI n) (BitVec.ofNat 32 (0x80000000 + uns 48 th / 2 ^ 32)),
      Op.when (s.fld TU_SRV_CFG TU_SRV_CFG_ENG == n) (Op.sampleFrom 2 th)])])

/-- A multiframe of the far end has passed, whether or not its frame was acted on: one of the 2^DIV of the interval (R326). -/
def Op.lttTick (n : Nat) : Op := Op.dyn fun s => Op.when (s.bit (LTT_CFG n) LTT_CFG_EN) (Op.tuWatch
  (Op.thn (Op.eng n fun e => { e with ltt := { e.ltt with mf := e.ltt.mf + 1 } }) (Op.lttMean n)))
/-- The TIME field of a frame that is acted on (R326). -/
def Op.lttFrame (n : Nat) (f : List Byte) : Op := Op.dyn fun s =>
  let at_ := fun a b => beVal (f.extract a b)
  let fl := at_ 8 9
  let depMsn := BitVec.ofNat 24 (at_ 9 12)
  let arrMsn := BitVec.ofNat 24 (at_ 18 21)
  let t4 := stampOf (s.engS n).ltt.arr depMsn
  let sent := s.bit (TX_STAT n) TX_STAT_ON && arrMsn.toNat % 8 == 0 && Nat.blt (sub24 (s.sfTx n) arrMsn) (2 ^ 23)
  let mine := s.fld TU_SRV_CFG TU_SRV_CFG_SRC == 2 && s.fld TU_SRV_CFG TU_SRV_CFG_ENG == n
  let d48 := fun (a b : Nat) => sgn 48 (uns 48 ((a : Int) - b))
  Op.when (s.bit (LTT_CFG n) LTT_CFG_EN) (Op.tuWatch (Op.all [
    Op.eng n (fun e => { e with ltt := { e.ltt with
      far := if fl.testBit 0 then ((depMsn, BitVec.ofNat 48 (at_ 12 18)) :: e.ltt.far).take 16 else e.ltt.far } }),
    Op.when (fl.testBit 0 && fl.testBit 1 && fl.testBit 2 && sent && t4.isSome) (
      if fl.testBit 3 && mine then Op.thn (Op.flag (LTT_STAT n) LTT_STAT_LOOP) (Op.flag TU_STAT TU_STAT_LOOP)
      else match s.lttD n with
        | none => Op.flag (LTT_STAT n) LTT_STAT_NO_D
        | some d =>
          let x := d * ((s.fld (LTT_CFG n) LTT_CFG_TX_LAMBDA : Int) - (s.fld (RX_CD_LAMBDA n + 0x4000) RX_CD_LAMBDA_LAMBDA : Int))
            + 1600 * sgn 32 (s.reg (LTT_ASYM n)).toNat
          let th := (d48 (at_ 21 27) (at_ 27 33) - d48 (t4.getD 0#48).toNat (at_ 12 18)) * 1600000 - x * 65536
          Op.eng n fun e => { e with ltt := { e.ltt with sum := e.ltt.sum + th, cnt := e.ltt.cnt + 1 } })]))

/-! Rows. -/

/-- TU_CTL.STEP_ACCEPT (R315). -/
def execStepAccept (_p : Party) (sample : Option Int) (s : State) :=
  (Op.hub (Op.dyn fun s => Op.tuCtl ((s.reg TU_CTL) ||| 0x80000000#32) sample)).next s
/-- TU_CTL.RESET_TIME (R311). -/
def execResetTime (_p : Party) (s : State) :=
  (Op.hub (Op.dyn fun s => Op.tuCtl ((s.reg TU_CTL) ||| 0x40000000#32) none)).next s
/-- A write of TU_MEAS_HI (R312). -/
def execTuMeasCommit (_p : Party) (hi : W) (s : State) := (Op.hub (Op.tuMeas hi)).next s
/-- A write of TU_ADJ_HI (R313). -/
def execTuAdjCommit (_p : Party) (hi : W) (s : State) := (Op.hub (Op.tuAdj hi)).next s
/-- A write of RATE_HI (R305). -/
def execRateCommit (_p : Party) (line : Bool) (hi : W) (s : State) := (Op.hub (Op.tuRate line hi)).next s
/-- A write of EPOCH (R310). -/
def execEpochWrite (_p : Party) (line hi : Bool) (v : W) (s : State) := (Op.hub (Op.tuEpoch line hi v)).next s
/-- A write of TU_SRV_CFG (R313). -/
def execTuSrcWrite (_p : Party) (v : W) (s : State) := (Op.hub (Op.tuSrc v)).next s
/-- No sample was accepted for TIMEOUT (R313). -/
def execSampleTimeout (s : State) :=
  (Op.hub (Op.tuWatch Op.sampleLate)).next s
/-- A read of NOW_TS_LO (R306). -/
def execTuNowRead (p : Party) (line : Bool) (s : State) := (Op.hub (Op.nowRead p line)).next s
/-- A PPS_IN edge (R323). -/
def execPpsInEdge (rising : Bool) (s : State) := (Op.hub (Op.ppsEdge rising)).next s
/-- A whole second of the scale that PPS_OUT follows (R322). -/
def execPpsOutSecond (s : State) := (Op.hub Op.ppsSecond).next s
/-- PPS_OUT falls (R322). -/
def execPpsOutWidthEnd (s : State) := Op.ppsFall.next s
/-- A write of TU_TPORT_CFG (R320). -/
def execTportCfgWrite (_p : Party) (h : Harn) (v : W) (s : State) := (Op.hub (Op.tportCfg h v)).next s
/-- A frame at a timing port (R320). -/
def execTportRxFrame (h : Harn) (bytes : List Byte) (s : State) := (Op.hub (Op.tportRx h bytes)).next s
/-- A write of TXQ_WR (R321). -/
def execTxqWrWrite (_p : Party) (h : Harn) (v : W) (s : State) := (Op.hub (Op.txqWr h v)).next s
/-- A launch falls due (R321). -/
def execLaunchDue (h : Harn) (s : State) := (Op.hub (Op.launch h)).next s

end Sys2Proof.Machine
end

