-- ==== Sys2Proof/Machine/Drone.lean ====
section
/-! DEFINITION. The drones as the hive sees them: states (R363), traps and the non-maskable trap (R401, R402), halting and
restarting (R364, R405), handover, REVERT and CANCEL (R366–R368), and the mailboxes (R359–R362). -/
namespace Sys2Proof.Machine

/-- STATE of a drone as HIVE_DRN_STAT holds it (R363), without the OFF of a cluster that is not in Run. -/
def State.drnHeld (s : State) (d : Nat) : Nat := s.fld (HIVE_DRN_STAT d) HIVE_DRN_STAT_STATE
/-- STATE of a drone as it shows (R347, R363). -/
def State.drnState (s : State) (d : Nat) : Nat :=
  if s.drnHeld d == 0 || s.inRun (domClu (d / 8)) then s.drnHeld d else 5
def Op.drnState (d st : Nat) : Op := Op.setF (HIVE_DRN_STAT d) HIVE_DRN_STAT_STATE st

/-- The drone's control-register state of a trap being taken (R402). -/
def DrnSt.trapTo (x : DrnSt) (code : Nat) (tpc : BitVec 16) (taddr : W) : DrnSt :=
  { x with tpc := tpc.setWidth 32, tcode := BitVec.ofNat 32 code, taddr := taddr, prev := x.keeper, keeper := true, tip := true,
           pc := x.tentry.setWidth 16, wait := none }

/-- A drone takes a trap of causes 1 to 8; while TIP is 1 it enters TRAPPED instead (R402, R364). -/
def Op.trap (d code : Nat) (tpc : BitVec 16) (taddr : W) : Op := Op.dyn fun s =>
  if (s.drnS d).tip then
    Op.all [Op.drn d fun x => { x with tpc := tpc.setWidth 32, tcode := BitVec.ofNat 32 code, taddr := taddr },
      Op.drnState d 4, Op.raise (0x600 + d) 0x20 2 (tpc.toNat * 0x10000 + code)]
  else Op.drn d fun x => x.trapTo code tpc taddr

/-- A non-maskable trap to a drone in RUN or WAIT: held while TIP is 1 (R401, R402). -/
def Op.nmi (d : Nat) : Op := Op.dyn fun s =>
  if (s.drnS d).tip then Op.drn d fun x => { x with nmi := true }
  else Op.thn (Op.drn d fun x => x.trapTo 9 x.pc 0) (Op.drnState d 1)

/-- STATUS after a RESUME of a TRAPPED drone, or a release (R379, R382). The pause of a handover that is in progress goes on to the first
READY of the new code (R367). -/
def DrnSt.statusReset (x : DrnSt) : DrnSt :=
  { x with keeper := true, prev := false, tip := false, sat := false, nmi := false, wait := none, halted := false }

/-- Restart a drone at the cold entry of its active bank in keeper mode with its data unchanged (R364, R368). -/
def Op.drnCold (d : Nat) : Op :=
  Op.all [Op.drn d fun x => { x.statusReset with pc := 0 }, Op.setF (HIVE_DRN_STAT d) HIVE_DRN_STAT_READY 0, Op.drnState d 1]

/-- The block reset of a drone (R443): restarted as RESUME restarts a TRAPPED drone, where it holds code and has power. -/
def Op.drnRestart (d : Nat) : Op := Op.dyn fun s =>
  Op.when (Nat.ble 1 (s.drnState d) && Nat.ble (s.drnState d) 4) (Op.drnCold d)

/-- Exchange the banks of a drone: the BUILD shown is that of the active bank (R366, R378). -/
def Op.bankFlip (d : Nat) : Op := Op.dyn fun s =>
  let old := s.reg (HIVE_DRN_BUILD d)
  Op.all [Op.setF (HIVE_DRN_STAT d) HIVE_DRN_STAT_ACTIVE_BANK (1 - s.fld (HIVE_DRN_STAT d) HIVE_DRN_STAT_ACTIVE_BANK),
    Op.wr (HIVE_DRN_BUILD d) (s.drnS d).buildI, Op.drn d fun x => { x with buildI := old }]

/-- Set PENDING and signal the handover event (R365, R368, R398). -/
def Op.handover (d : Nat) : Op := Op.thn (Op.setF (HIVE_DRN_STAT d) HIVE_DRN_STAT_PENDING 1) (Op.event d 1)

/-- HALT (R364, R405). -/
def Op.drnHalt (d : Nat) : Op := Op.dyn fun s =>
  let st := s.drnState d
  if st == 1 || st == 2 then Op.thn (Op.drn d fun x => { x with halted := st == 2 }) (Op.drnState d 3)
  else Op.flag (HIVE_DRN_STAT d) HIVE_DRN_STAT_CTL_REFUSED

/-- RESUME (R364, R405): a drone halted in WAIT returns to its WFE. -/
def Op.drnResume (d : Nat) : Op := Op.dyn fun s =>
  let st := s.drnState d
  if st == 3 then Op.thn (Op.drnState d (if (s.drnS d).halted then 2 else 1)) (Op.drn d fun x => { x with halted := false })
  else if st == 4 then Op.drnCold d
  else Op.flag (HIVE_DRN_STAT d) HIVE_DRN_STAT_CTL_REFUSED

/-- REVERT (R368). On a TRAPPED drone the new code, whose pause ran, runs no more (R367). -/
def Op.drnRevert (d : Nat) : Op := Op.dyn fun s =>
  let st := s.drnState d
  let ok := s.bit (HIVE_DRN_STAT d) HIVE_DRN_STAT_IDLE_VALID
  if (st == 1 || st == 2) && ok && !s.bit (HIVE_DRN_STAT d) HIVE_DRN_STAT_PENDING then Op.handover d
  else if st == 4 && ok then Op.all [Op.bankFlip d, Op.drn d fun x => { x with pause := none, slow := false }, Op.drnCold d]
  else Op.flag (HIVE_DRN_STAT d) HIVE_DRN_STAT_CTL_REFUSED

/-- CANCEL (R368): refused where nothing is pending. -/
def Op.drnCancel (d : Nat) : Op := Op.dyn fun s =>
  if s.bit (HIVE_DRN_STAT d) HIVE_DRN_STAT_PENDING then Op.setF (HIVE_DRN_STAT d) HIVE_DRN_STAT_PENDING 0
  else Op.flag (HIVE_DRN_STAT d) HIVE_DRN_STAT_CTL_REFUSED

/-- A write of HIVE_DRN_CTL: its actions from the high bit down (R378). -/
def Op.drnCtl (d : Nat) (v : W) : Op :=
  Op.all [Op.when (v.getLsbD 31) (Op.drnHalt d), Op.when (v.getLsbD 30) (Op.drnResume d),
    Op.when (v.getLsbD 29) (Op.drnRevert d), Op.when (v.getLsbD 28) (Op.drnCancel d)]

/-- Microseconds of a pause from cycle `a` to cycle `b` at 1.5 GHz. -/
def pauseUs (a b : BitVec 64) : Nat := (b - a).toNat / 1500

/-- The pause of a handover has passed 1,000 microseconds, 1,500,000 cycles at 1.5 GHz (R367). -/
def Op.hovSlow (d : Nat) : Op := Op.dyn fun s =>
  let x := s.drnS d
  match x.pause with
  | some c => Op.when (!x.slow && Nat.blt 1500000 (x.cycle - c).toNat) (Op.thn (Op.drn d fun x => { x with slow := true })
      (Op.raise (0x600 + d) 0x21 0 (Nat.min (pauseUs c x.cycle) 0xFFFF)))
  | none => Op.skip

/-! Mailboxes (R361, R362). -/

/-- A write of HIVE_MBX_H2D_WR (R361). -/
def Op.mbxH2d (d : Nat) (v : W) : Op := Op.dyn fun s =>
  let w := getFld v HIVE_MBX_H2D_WR_WR
  if d == 56 then Op.skip
  else if Nat.blt 64 ((w + 128 - s.fld (HIVE_MBX_H2D_RD d) HIVE_MBX_H2D_RD_RD) % 128) then
    Op.flag (HIVE_MBX_STAT d) HIVE_MBX_STAT_OVERRUN
  else Op.all [Op.when (w != s.fld (HIVE_MBX_H2D_WR d) HIVE_MBX_H2D_WR_WR) (Op.event d 0), Op.wr (HIVE_MBX_H2D_WR d) v]

/-- An advance of D2H_WR (R362): vector 2 + d, or vector 1 for the steward. -/
def Op.mbxD2h (d : Nat) (v : W) : Op := Op.dyn fun s =>
  Op.thn (Op.wr (HIVE_MBX_D2H_WR d) v)
    (Op.when (s.bit (HIVE_MBX_CFG d) HIVE_MBX_CFG_IRQ && getFld v HIVE_MBX_D2H_WR_WR != s.fld (HIVE_MBX_D2H_WR d) HIVE_MBX_D2H_WR_WR)
      (Op.msix (if d == 56 then 1 else 2 + d)))

/-- The steward posts a message to mailbox 56 (R360, R362): TAG 0 and the body bytes. -/
def Op.stwPost (op : Nat) (body : List Byte) : Op := Op.dyn fun s =>
  let w := s.fld (HIVE_MBX_D2H_WR 56) HIVE_MBX_D2H_WR_WR
  Op.thn (Op.store (cells (0x2000 * 56 + 0x1000 + 64 * (w % 64))
      (leBytes 4 (op * 0x1000000 + body.length) ++ body ++ List.replicate (60 - body.length) 0#8)) false)
    (Op.mbxD2h 56 (BitVec.ofNat 32 ((w + 1) % 128)))

/-! Rows. -/

/-- HIVE_DRN_CTL.HALT (R364). -/
def execHalt (_p : Party) (d : Drn) (s : State) := (Op.hub (Op.drnHalt d)).next s
/-- HIVE_DRN_CTL.RESUME (R364). -/
def execResume (_p : Party) (d : Drn) (s : State) := (Op.hub (Op.drnResume d)).next s
/-- HIVE_DRN_CTL.REVERT (R368). -/
def execRevert (_p : Party) (d : Drn) (s : State) := (Op.hub (Op.drnRevert d)).next s
/-- HIVE_DRN_CTL.CANCEL (R368). -/
def execCancel (_p : Party) (d : Drn) (s : State) := (Op.hub (Op.drnCancel d)).next s
/-- The pause of a handover passes 1 ms (R367). -/
def execHandoverSlow (d : Drn) (s : State) := (Op.hovSlow d).next s
/-- A write of HIVE_MBX_H2D_WR (R361). -/
def execMbxH2dWrite (_p : Party) (d : Fin 57) (v : W) (s : State) := (Op.hub (Op.mbxH2d d v)).next s

end Sys2Proof.Machine
end

