-- ==== Sys2Proof/Machine/Glohiord.lean ====
section
/-! DEFINITION. The Glohiord stage: seen patterns and occupancy events (R184, R185, R197, R198), term descriptors and values
(R188–R192), the kernel-page library (R193–R196), hints (R199) and the edge links (R200). -/
namespace Sys2Proof.Machine

/-- Neighbour `j` of engine `n` (R184). -/
def neighbour (n j : Nat) : Option Nat :=
  let m := n + (if Nat.ble 2 j then j + 1 else j)
  if Nat.ble 2 m && Nat.blt (m - 2) 48 then some (m - 2) else none

/-- One direction of edge link `t` (R200): key of its state, upward when `up`. -/
def edgeKey (t : Nat) (up : Bool) : Nat := 2 * t + (if up then 1 else 0)
/-- Is the direction that carries the stream of engine `m` to engine `n` up, or inside the tile (R185, R200)? -/
def State.edgeUp (s : State) (m n : Nat) : Bool :=
  if m / 8 == n / 8 then true
  else if Nat.blt m n then !(s.edgeS (edgeKey (m / 8) true)).down
  else !(s.edgeS (edgeKey (n / 8) false)).down

/-- Is neighbour `j` of engine `n` usable on a side (R185)? An engine under test is not (R456). -/
def State.usable (s : State) (n j : Nat) (rx : Bool) : Bool :=
  match neighbour n j with
  | none => false
  | some m => !s.testOn m 0 0 && (if rx then s.rxLocked m && s.engSr m == s.engSr n
      else s.bit (TX_STAT m) TX_STAT_ON && (s.gait m (s.txAct m)).rate == (s.gait n (s.txAct n)).rate) && s.edgeUp m n

/-- The pattern of usable neighbours of a side now (R184, R185). -/
def State.seenNow (s : State) (n : Nat) (rx : Bool) : Nat :=
  (List.range 4).foldl (fun a j => if s.usable n j rx then a + 2 ^ j else a) 0

/-- Is the GLO block of a side reserved by a gait negotiation, or armed by one (R198)? -/
def State.gloHeld (s : State) (n : Nat) (rx : Bool) : Bool :=
  let e := s.engS n
  if rx then e.resp.blocks.contains 7 || e.swaps.any fun p => p.blk == 7 && p.neg
  else e.prop.blocks.contains 6 || e.swaps.any fun p => p.blk == 6 && p.neg

/-- The Glohiord part of the superframe in progress of a side, which belongs to the present run or lock. -/
def State.gloCur (s : State) (n : Nat) (rx : Bool) : Option GloRec :=
  let e := s.engS n
  if rx then (match e.rxp.sfs with | r :: _ => if s.rxLocked n && r.lk == e.rxp.lk then some r.glo else none | [] => none)
  else match e.sfs with | r :: _ => if s.bit (TX_STAT n) TX_STAT_ON && r.gen == e.txGen then some r.glo else none | [] => none
/-- Change it. -/
def Op.gloNow (n : Nat) (rx : Bool) (f : GloRec → GloRec) : Op := Op.dyn fun s =>
  Op.when (s.gloCur n rx).isSome (Op.eng n fun e =>
    if rx then { e with rxp := { e.rxp with sfs := match e.rxp.sfs with | r :: l => { r with glo := f r.glo } :: l | [] => [] } }
    else { e with sfs := match e.sfs with | r :: l => { r with glo := f r.glo } :: l | [] => [] })
/-- The neighbours that were usable when the superframe in progress began and are so no more are absent from a symbol on (R185, R190):
which one the commands do not tell, and it is left free (log 27). -/
def Op.nbrGone (n : Nat) (rx : Bool) : Op := Op.dyn fun s =>
  match s.gloCur n rx with
  | none => Op.skip
  | some g => Op.each ((List.range 4).filter fun j =>
      (g.nbr.getD j none).isSome && !s.usable n j rx && g.gone.all fun x => x.1 != j) fun j =>
        Op.free fun w => Op.gloNow n rx fun g => { g with gone := (j, w.toNat % 65536) :: g.gone }

/-- The seen pattern of a side changes (R185, R190, R197, R198). -/
def Op.seenChange (n : Nat) (rx : Bool) : Op := Op.dyn fun s =>
  let new := s.seenNow n rx
  let side := if rx then 1 else 0
  Op.when (new != s.seen n rx) (Op.all [
    Op.setF (GLO_OCC n) (if rx then GLO_OCC_RX_SEEN else GLO_OCC_TX_SEEN) new, Op.nbrGone n rx,
    Op.each (List.range 4) fun j => Op.setB (GLO_HWOFS n side j) GLO_HWOFS_VALID (new.testBit j),
    Op.when (s.bit (GLO_CFG n) (if rx then GLO_CFG_EV_RX else GLO_CFG_EV_TX)) (
      if s.gloHeld n rx then Op.eng n fun e => if rx then { e with occRx := true } else { e with occTx := true }
      else Op.event n (if rx then 4 else 3))])

/-! Terms. -/

/-- A write of a term descriptor (R188, R192): side 0 transmit, 1 receive. -/
def Op.gloTerm (n side t : Nat) (v : W) : Op := Op.dyn fun s =>
  let on := (if side == 1 then s.fld (RX_MODE n + 0x4000) RX_MODE_GLO else s.fld (TX_MODE n + 0x4000) TX_MODE_GLO) == 1
  if on then Op.flag (GLO_STAT n) GLO_STAT_TERM_REFUSED
  else if [GLO_TERM_SRC_A, GLO_TERM_SRC_B, GLO_TERM_SRC_C].any fun f => Nat.ble 5 (getFld v f) then
    Op.thn (Op.wr (GLO_TERM n side t) (setFld v GLO_TERM_EN 0)) (Op.flag (GLO_STAT n) GLO_STAT_TERM_REFUSED)
  else Op.wr (GLO_TERM n side t) v

/-- The value of a term for an output polarisation `y` (R189): `sym src y ofs` is the symbol of a source in a polarisation at an
offset after its reference symbol. -/
def gloTermVal (d : W) (sym : Nat → Bool → Int → Int × Int) (y : Bool) : Int × Int :=
  let o := fun (f : Fld) => sgn 6 (getFld d f)
  let a := sym (getFld d GLO_TERM_SRC_A) (bitFld d GLO_TERM_POL_A != y) (o GLO_TERM_OFS_A)
  let b := fun (x : Bool) => sym (getFld d GLO_TERM_SRC_B) (bitFld d GLO_TERM_POL_B != (y != x)) (o GLO_TERM_OFS_B)
  let c := fun (x : Bool) => sym (getFld d GLO_TERM_SRC_C) (bitFld d GLO_TERM_POL_C != (y != x)) (o GLO_TERM_OFS_C)
  let t := fun (x : Bool) => cMul (cMul a (b x)) (cConj (c x))
  if bitFld d GLO_TERM_SUM then cAdd (t false) (t true) else t false

/-- Is a term gated (R190)? `absent j` tells that neighbour `j` gives no symbol, `occ` is the occupancy part of the page. -/
def gloGated (d : W) (absent : Nat → Bool) (occ : Nat) : Bool :=
  !bitFld d GLO_TERM_EN || [GLO_TERM_SRC_A, GLO_TERM_SRC_B, GLO_TERM_SRC_C].any fun f =>
    let k := getFld d f
    k != 0 && (absent (k - 1) || !occ.testBit (k - 1))

/-- The output of the stage (R191): the input plus the rounded correction, saturated, and whether a part saturated. -/
def gloOut (x : Int × Int) (terms : List ((Int × Int) × (Int × Int))) : (Int × Int) × Bool :=
  let sum := terms.foldl (fun a t => cAdd a (cMul t.1 t.2)) (0, 0)
  let z : Int × Int := (x.1 + rne sum.1 44, x.2 + rne sum.2 44)
  let c := fun v => clampI (-32767) 32767 v
  ((c z.1, c z.2), decide (c z.1 ≠ z.1 ∨ c z.2 ≠ z.2))

/-- Symbol sources of a side's stage: own stream and neighbour `j` at a position after the reference symbol of own symbol 0; none
where nothing is read (R186, R190). -/
structure GloSrc where
  own : Int → Option Pol
  nbr : Nat → Int → Option Pol

/-- A source of a term at own symbol `k`. An own symbol before the first superframe of the run or of the lock, or after the last, reads
as (0, 0): R190 gates no term for want of an own symbol, and the spec gives none there (DESIGN CHOICE, log 27). -/
def GloSrc.get (q : GloSrc) (k : Nat) (src : Nat) (o : Int) : Option Pol :=
  if src == 0 then some ((q.own (k + o)).getD ((0, 0), (0, 0))) else q.nbr (src - 1) (k + o)

/-- Is neighbour `j` gone at own symbol `k`? -/
def GloRec.lost (g : GloRec) (j k : Nat) : Bool := g.gone.any fun x => x.1 == j && Nat.ble x.2 k
/-- The stage's output for own symbol `k` (R131, R159, R189–R191, R195, R196): nothing is added in ZERO and BYPASS, and while the active
page is not VALID (the record then holds no terms, or its `stop` is passed); a term is gated where a symbol it reads is absent. -/
def GloRec.apply (g : GloRec) (q : GloSrc) (k : Nat) (y : Bool) (x : Int × Int) : (Int × Int) × Bool :=
  if g.mode != 1 || Nat.ble g.stop k then (x, false)
  else gloOut x (g.terms.filterMap fun t =>
    let o := fun (f : Fld) => sgn 6 (getFld t.1 f)
    let miss := [(GLO_TERM_SRC_A, GLO_TERM_OFS_A), (GLO_TERM_SRC_B, GLO_TERM_OFS_B), (GLO_TERM_SRC_C, GLO_TERM_OFS_C)].any fun f =>
      (q.get k (getFld t.1 f.1) (o f.2)).isNone
    if miss || gloGated t.1 (fun j => g.lost j k) g.occ then none
    else some (coefCx t.2, gloTermVal t.1 (fun src yy of => polOf yy ((q.get k src of).getD ((0, 0), (0, 0)))) y))

/-- The key of an edge-link stream (R200): the sender `m`'s stream of a side, as the receiver `n` takes it. -/
def edgeStream (m : Nat) (up rx : Bool) : Nat :=
  (if (if up then m % 8 == 7 else m % 8 == 1) then 2 else 0) + (if rx then 1 else 0)
/-- The number of a group of 32 symbols, from that of its superframe and the symbol's place. -/
def edgeGrp (i : Int) : Nat := (i / 65536 % 16777216).toNat * 2048 + (i % 65536).toNat / 32
/-- Did symbol `i` of the sender `m`, counted from its superframe 0, come to engine `n` in a group that failed (R190, R200)? -/
def State.edgeLost (s : State) (m n : Nat) (rx : Bool) (i : Int) : Bool :=
  if m / 8 == n / 8 then false
  else
    let up := Nat.blt m n
    (s.edgeS (edgeKey (if up then m / 8 else n / 8) up)).fail.contains (edgeStream m up rx, edgeGrp i)

/-- The GLO part of a superframe that begins (R187, R193, R195): mode, terms of the active page, and matches. -/
def State.gloRec (s : State) (n : Nat) (rx : Bool) (nbr : List (Option (Int × Nat))) : GloRec :=
  let side := if rx then 1 else 0
  let w := s.reg (GLO_SEL n + 0x4000)
  let p := gloPage w rx
  ⟨if rx then s.fld (RX_MODE n + 0x4000) RX_MODE_GLO else s.fld (TX_MODE n + 0x4000) TX_MODE_GLO,
   if s.pageValid n p then (List.range 128).map fun t => (s.reg (GLO_TERM n side t), s.word (coefKey n (0x180000 + p * 0x200 + 4 * t)))
   else [],
   p % 16, nbr, 65536, []⟩

/-- The match of a neighbour (R187): the neighbour's position at the instant of own symbol 0 shifted by ALIGN, in 2^-16 symbol,
taken to the nearest symbol, the earlier on a tie. -/
def matchOf (x : Int) : Int := -((-2 * x + 65536) / 131072)
/-- The match of neighbour `j` of engine `n` at a boundary of a side, as its position after the start of the neighbour's present
superframe (R187): on receive it changes by at most one symbol from the last boundary's, and that of a neighbour that had none is taken
as it is. -/
def State.matchNow (s : State) (n : Nat) (rx : Bool) (inst : List Int) (j : Nat) : Int :=
  let m := matchOf (inst.getD j 0 + 65536 * sgn 13 (s.fld (GLO_ALIGN n (if rx then 1 else 0) j + 0x4000) GLO_ALIGN_ALIGN))
  match rx, (s.engS n).hwRx.getD j none with
  | true, some was =>
    -- both ends' superframes are 65,536 symbols long, so that matches count modulo 65,536
    let d := sgn 16 (uns 16 (m - was))
    m - d + clampI (-1) 1 d
  | _, _ => m
/-- The matches of a side at one of its boundaries (R187): `inst` are the positions of the neighbours in 2^-16 symbol. -/
def Op.matches_ (n : Nat) (rx : Bool) (inst : List Int) : Op := Op.dyn fun s =>
  let side := if rx then 1 else 0
  let ms := (List.range 4).map fun j => if s.usable n j rx then some (s.matchNow n rx inst j) else none
  Op.all [
    Op.each (List.range 4) fun j =>
      let a := GLO_HWOFS n side j
      match ms.getD j none with
      | some v => Op.thn (Op.setF a GLO_HWOFS_VALID 1) (Op.setF a GLO_HWOFS_OFS (uns 16 v))
      | none => Op.setF a GLO_HWOFS_VALID 0,
    Op.when rx (Op.eng n fun e => { e with hwRx := ms })]
/-- The symbol of each usable neighbour that matches own symbol 0, counted from the neighbour's superframe 0, and its run. -/
def State.nbrNow (s : State) (n : Nat) (rx : Bool) (inst : List Int) : List (Option (Int × Nat)) :=
  (List.range 4).map fun j => match neighbour n j with
    | none => none
    | some m => if s.usable n j rx then
        some (65536 * (if rx then (s.sfRx m).toNat else (s.sfTx m).toNat) + s.matchNow n rx inst j,
          if rx then 0 else (s.engS m).txGen)
      else none

/-! Pages. -/

/-- The active page of a side (R193, R202). -/
def State.actPage (s : State) (n : Nat) (rx : Bool) : Nat := gloPage (s.reg (GLO_SEL n + 0x4000)) rx
/-- Load VALID of a page (R194). -/
def Op.pageValid (n p : Nat) (v : Bool) : Op := Op.setB (GLO_PAGE_VALID n (p / 32)) ⟨p % 32, p % 32⟩ v

/-- CLOSE (R194, R205). -/
def Op.pageClose (n : Nat) : Op := Op.dyn fun s =>
  Op.when (s.bit (GLO_PAGE_STAT n) GLO_PAGE_STAT_IS_OPEN)
    (Op.thn (Op.pageValid n (s.fld (GLO_PAGE_STAT n) GLO_PAGE_STAT_PAGE) true) (Op.setF (GLO_PAGE_STAT n) GLO_PAGE_STAT_IS_OPEN 0))
/-- OPEN of page `p` (R194). -/
def Op.pageOpen (n p : Nat) : Op := Op.dyn fun s =>
  if s.bit (GLO_PAGE_STAT n) GLO_PAGE_STAT_IS_OPEN || s.actPage n false == p || s.actPage n true == p
      || (s.pendBlk n 6 && gloPage (s.reg (GLO_SEL n)) false == p) || (s.pendBlk n 7 && gloPage (s.reg (GLO_SEL n)) true == p) then
    Op.flag (GLO_PAGE_STAT n) GLO_PAGE_STAT_OPEN_REFUSED
  else Op.all [Op.pageValid n p false, Op.setF (GLO_PAGE_STAT n) GLO_PAGE_STAT_PAGE p, Op.flag (GLO_PAGE_STAT n) GLO_PAGE_STAT_IS_OPEN]
/-- A write of GLO_PAGE_CTL (R194): CLOSE first, then OPEN. -/
def Op.pageCtl (n : Nat) (v : W) : Op :=
  Op.all [Op.wr (GLO_PAGE_CTL n) (v &&& 0x7FF#32), Op.when (v.getLsbD 30) (Op.pageClose n),
    Op.when (v.getLsbD 31) (Op.pageOpen n (getFld v GLO_PAGE_CTL_PAGE))]

/-- A page is withdrawn because a word in it is uncorrectable (R196): the sides that select it add nothing from a symbol on, which is left
free (log 27). -/
def Op.pageWithdraw (n p : Nat) : Op := Op.dyn fun s =>
  Op.all [Op.pageValid n p false,
    Op.when (s.pageValid n p && (s.actPage n false == p || s.actPage n true == p)) (Op.flag (GLO_STAT n) GLO_STAT_WITHDRAWN),
    Op.each ([false, true].filter fun rx => s.actPage n rx == p) fun rx =>
      Op.free fun w => Op.gloNow n rx fun g => { g with stop := Nat.min g.stop (w.toNat % 65536) }]

/-! Hints (R199). -/

/-- The 16 bytes of the HINT field sent. -/
def State.hintField (s : State) (n : Nat) : List Byte :=
  let w := s.reg (GLO_HINT_TX n)
  let fl := (if s.rxLocked n then 1 else 0) + (if bitFld w GLO_HINT_TX_PATH_V then 2 else 0) + (if bitFld w GLO_HINT_TX_POWER_V then 4 else 0)
  [BitVec.ofNat 8 fl, BitVec.ofNat 8 (s.seen n true), BitVec.ofNat 8 (getFld w GLO_HINT_TX_PATH),
    BitVec.ofNat 8 (getFld w GLO_HINT_TX_POWER)] ++ List.replicate 12 0#8
/-- The HINT of a frame that is acted on; `f` is the frame. -/
def Op.hintRx (n : Nat) (f : List Byte) : Op := Op.dyn fun s =>
  let b := fun i => (f.getD i 0#8).toNat
  let w := BitVec.ofNat 32 (0x80000000 + b 105 % 16 * 0x10000 + b 106 % 8 * 0x1000 + b 107 % 16 * 0x100 + b 104 % 8)
  Op.thn (Op.when ((w ^^^ s.reg (GLO_HINT_RX n)) &&& 0x7FFFFFFF#32 != 0 && s.bit (GLO_CFG n) GLO_CFG_EV_HINT)
      (Op.thn (Op.flag (GLO_STAT n) GLO_STAT_HINT_NEW) (Op.event n 5)))
    (Op.wr (GLO_HINT_RX n) w)

/-! Edge links (R200). -/

/-- The engines that read a stream of edge link `t`: the sender is the first or second engine of the direction's pair. -/
def edgeReaders (t : Nat) (up : Bool) (second : Bool) : List Nat :=
  if up then (if second then [8 * t + 8, 8 * t + 9] else [8 * t + 8])
  else (if second then [8 * t + 7] else [8 * t + 7, 8 * t + 6])

/-- Declare a direction down (R200, R443); the groups that failed stay so for the terms that read them. -/
def Op.edgeDown (t : Nat) (up : Bool) : Op := Op.thn
  (Op.mod fun s =>
    let x : EdgeSt := { EdgeSt.init with down := true, fail := (s.edgeS (edgeKey t up)).fail }
    { s with edge := Tab.set s.edge (fun _ => EdgeSt.init) (edgeKey t up) x })
  (Op.condSet (0x10 + t) 0x10 2 (if up then 1 else 0))

/-- Is edge link `t` powered (R200)? -/
def State.edgeOn (s : State) (t : Nat) : Bool := [6, 7, 8, 9].any fun i => s.inRun (domEng (8 * t + i))
/-- The engine that sends a stream over a direction of edge link `t`. -/
def edgeSender (t : Nat) (up : Bool) (st : Nat) : Nat := 8 * t + (if up then 6 else 8) + st / 2
/-- A group arrives over an edge link: streams 0 and 1 are transmit and receive of the first engine, 2 and 3 of the second. `g` is
the group's place in the sender's superframe, `bs` its bytes with their CRC-16. -/
def Op.edgeGroup (t : Nat) (up : Bool) (st g : Nat) (bs : List Byte) : Op := Op.dyn fun s => Op.when (s.edgeOn t) (
  let good := crc16 bs == 0
  let e := s.edgeS (edgeKey t up)
  let m := edgeSender t up st
  let at_ := (if st % 2 == 1 then (s.sfRx m).toNat else (s.sfTx m).toNat) * 2048 + g
  let e' : EdgeSt := { e with
    bad := e.bad.set st (if good then 0 else e.bad.getD st 0 + 1)
    good := e.good.set st (if good then Nat.min 64 (e.good.getD st 0 + 1) else 0)
    fail := if good then e.fail else ((st, at_) :: e.fail).take 65536 }
  let put := fun (x : EdgeSt) => Op.mod fun s => { s with edge := Tab.set s.edge (fun _ => EdgeSt.init) (edgeKey t up) x }
  Op.thn (Op.when (!good) (Op.each (edgeReaders t up (Nat.ble 2 st)) fun n =>
      Op.thn (Op.count (GLO_EDGE_ERR_CNT n) 1) (Op.flag (GLO_STAT n) GLO_STAT_EDGE_ERR)))
    (if !e.down && Nat.ble 8 (e'.bad.getD st 0) then Op.thn (put e') (Op.edgeDown t up)
     else if e.down && e'.good.all (fun g => Nat.ble 64 g) then
       Op.thn (put { EdgeSt.init with fail := e'.fail }) (Op.condClear (0x10 + t) 0x10 2 (if up then 1 else 0))
     else put { e' with bad := e'.bad.map (Nat.min 8) }))

/-! Rows. -/

/-- The seen pattern of a side changes (R197). -/
def execSeenPatternChange (n : Eng) (rx : Bool) (s : State) := (Op.seenChange n rx).next s
/-- A write of a term descriptor (R188, R192). -/
def execGloTermWrite (p : Party) (n : Eng) (side : Fin 2) (t : Fin 128) (v : W) (s : State) :=
  (Op.gate p (GLO_TERM n side t) true (domEng n) (Op.gloTerm n side t v)).next s
/-- GLO_PAGE_CTL.OPEN (R194). -/
def execPageOpen (p : Party) (n : Eng) (v : W) (s : State) :=
  (Op.gate p (GLO_PAGE_CTL n) true (domEng n) (Op.pageCtl n (v ||| 0x80000000#32))).next s
/-- GLO_PAGE_CTL.CLOSE (R194). -/
def execPageClose (p : Party) (n : Eng) (v : W) (s : State) :=
  (Op.gate p (GLO_PAGE_CTL n) true (domEng n) (Op.pageCtl n (v ||| 0x40000000#32))).next s
/-- A BAR2 write of a coefficient of a page (R193, R194). -/
def execKernelPageWrite (p : Party) (n : Eng) (page : Fin 2048) (t : Fin 128) (v : W) (s : State) :=
  (Op.bar2Wr p (0x40200000 + 0x400000 * n + 0x200 * page + 4 * t) 15#4 v none).next s
/-- A group arrives over an edge link (R200). -/
def execEdgeGroupReceive (link : Fin 5) (up : Bool) (stream : Fin 4) (grp : Fin 2048) (bs : List Byte) (s : State) :=
  (Op.edgeGroup link up stream grp bs).next s
end Sys2Proof.Machine
end

