-- ==== Sys2Proof/Machine/Ecc.lean ====
section
/-! DEFINITION. Correction and the error log (R408–R411), uncorrectable words and their outcomes (R414–R417), the forager
(R412, R413), injection (R418, R419), and the farrier's queue (R420, R431). -/
namespace Sys2Proof.Machine

/-! The farrier's queue (R420). -/

/-- The bits of a request that name its target, by KIND (R431). -/
def farMask (cmd : W) : W :=
  let k := getFld cmd FAR_CMD_KIND
  if k == 2 then 0x703F07FF#32 else if k == 3 then 0x703F01FF#32 else 0x700000FF#32
/-- Do two requests have one target (R420)? A ROW request is named by its region, macro and row. -/
def farSame (a b : FarReq) : Bool :=
  a.cmd &&& farMask a.cmd == b.cmd &&& farMask b.cmd
    && (getFld a.cmd FAR_CMD_KIND != 1 || a.arg &&& 0xFFFFF000#32 == b.arg &&& 0xFFFFF000#32)
/-- FAR_STAT.QUEUED and BUSY from the queue (R430). -/
def Op.farStat : Op := Op.dyn fun s =>
  Op.thn (Op.setF FAR_STAT FAR_STAT_QUEUED s.ecc.queue.length) (Op.setB FAR_STAT FAR_STAT_BUSY s.ecc.job.isSome)
/-- Queue a repair (R420). -/
def Op.farQueue (cmd arg : W) : Op := Op.dyn fun s =>
  let r : FarReq := ⟨cmd &&& 0x703F07FF#32, arg⟩
  let k := getFld cmd FAR_CMD_KIND
  if k == 0 || Nat.blt 4 k then Op.skip
  else if s.ecc.queue.any (farSame r) || (match s.ecc.job with | some j => farSame r j.req | none => false) then Op.skip
  else if Nat.ble 16 s.ecc.queue.length then Op.flag FAR_STAT FAR_STAT_QUEUE_FULL
  else Op.thn (Op.ecc fun e => { e with queue := e.queue ++ [r] }) Op.farStat
/-- A write of FAR_CMD (R431). -/
def Op.farCmd (v : W) : Op := Op.dyn fun s => Op.when (v.getLsbD 31) (Op.farQueue v (s.reg FAR_ARG))

/-! The log (R410, R411). -/

/-- DETAIL of an ECC fault (R437). -/
def eccDetail (k : Nat) : Nat := regionOf k * 2 ^ 32 + (logAddr k).toNat
/-- The order in which an entry was made. -/
def State.logAge (s : State) (r e : Nat) : Nat := Tab.get s.ecc.age (fun _ => 0) (r * 32 + e)
/-- The entry that a new one takes (R410): a free one, else the valid one of lowest HITS that is not HARD, the oldest of equals. -/
def State.logSlot (s : State) (r : Nat) : Option Nat :=
  let info := fun e => s.reg (ECC_LOG_INFO r e)
  match (List.range 32).find? fun e => !bitFld (info e) ECC_LOG_INFO_VALID with
  | some e => some e
  | none => ((List.range 32).filter fun e => !bitFld (info e) ECC_LOG_INFO_HARD).foldl (fun b e => match b with
      | none => some e
      | some x =>
        let hx := getFld (info x) ECC_LOG_INFO_HITS
        let he := getFld (info e) ECC_LOG_INFO_HITS
        if Nat.blt he hx || (he == hx && Nat.blt (s.logAge r e) (s.logAge r x)) then some e else some x) none

/-- HITS has been raised or set: HARD when it reaches HARD_THR (R411). -/
def Op.hardCheck (k e : Nat) : Op := Op.dyn fun s =>
  let r := regionOf k
  let thr := s.fld ECC_CFG ECC_CFG_HARD_THR
  Op.when (thr != 0 && Nat.ble thr (s.fld (ECC_LOG_INFO r e) ECC_LOG_INFO_HITS) && !s.bit (ECC_LOG_INFO r e) ECC_LOG_INFO_HARD)
    (Op.all [Op.flag (ECC_LOG_INFO r e) ECC_LOG_INFO_HARD, Op.raiseEcc r 0x25 2 (eccDetail k) false false,
      Op.when (s.bit FAR_CFG FAR_CFG_AUTO_ROW) (Op.farQueue (BitVec.ofNat 32 (0x10000000 + r)) (logAddr k))])

/-- The log at a correction (R410, R419): an injected correction never raises HITS. -/
def Op.eccLog (k : Nat) (synd : BitVec 8) (inj note : Bool) : Op := Op.dyn fun s =>
  let r := regionOf k
  match s.logFind k with
  | some e => Op.when (s.bit (ECC_LOG_INFO r e) ECC_LOG_INFO_ARMED) (Op.all [
      Op.setF (ECC_LOG_INFO r e) ECC_LOG_INFO_ARMED 0, Op.setF (ECC_LOG_INFO r e) ECC_LOG_INFO_SYND synd.toNat,
      Op.when (!inj) (Op.thn (Op.satF (ECC_LOG_INFO r e) ECC_LOG_INFO_HITS) (Op.hardCheck k e))])
  | none => match s.logSlot r with
    | none => Op.flag (FG_STAT r) FG_STAT_LOG_LOST
    | some e => Op.all [
        Op.wr (ECC_LOG_ADDR r e) (logAddr k),
        Op.wr (ECC_LOG_INFO r e) (BitVec.ofNat 32 (0x80000000 + (if inj then 0x10000000 else 0) + synd.toNat * 256 + 1)),
        Op.ecc fun x => { x with age := Tab.set x.age (fun _ => 0) (r * 32 + e) (x.next + 1), next := x.next + 1 },
        Op.raiseEcc r 0x24 1 (eccDetail k) inj note, Op.when (!inj) (Op.hardCheck k e)]

/-! Uncorrectable words (R414–R416). -/

/-- The reaction of R416 to a poisoned word in an active CD response. -/
def Op.cdFallback (n : Nat) (rx : Bool) : Op := Op.dyn fun s =>
  let e := s.engS n
  let b := if rx then 5 else 4
  if (if rx then e.goodRx else e.goodTx) && !s.pendBlk n b then
    Op.thn (Op.swapReq n 0 [b] 0 fun _ => Op.skip)
      (Op.flag (FG_STAT n) (if rx then FG_STAT_CD_RX_FALLBACK else FG_STAT_CD_TX_FALLBACK))
  else Op.flag (FG_STAT n) (if rx then FG_STAT_CD_RX_ZERO else FG_STAT_CD_TX_ZERO)

/-- The data or parameter address at which a drone reads a key (R384, R385). -/
def droneAddr (k : Nat) : W :=
  let r := regionOf k
  let o := k - regionBase r
  BitVec.ofNat 32 (if r == 0x61 then 0x10000000 + o
    else if Nat.ble 0x62 r then (if Nat.blt o 0x20000 then 0x08000000 + o else o - 0x20000)
    else if Nat.blt r 0x30 then 0x40000000 + r * 0x400000 + o else 0xC0000000 + (r - 0x30) * 0x400000 + o)

/-- Mark the blocks of a list whose word is at key `k`, and so everywhere in a context (R250). -/
def markAt (k : Nat) (l : List QBlk) : List QBlk := l.map fun b => if bufKey b.word == k then { b with bad := true } else b
def CtxSt.mark (x : CtxSt) (k : Nat) : CtxSt :=
  { x with queue := markAt k x.queue, runs := x.runs.map fun r => { r with bs := markAt k r.bs } }

/-- The outcome of an uncorrectable or poisoned word for its reader (R401, R414, R415), who reads at key `k`; a reader of none is the
datapath, or the fetch of a code bank. -/
def Op.eccReader (reader : Option Party) (k : Nat) : Op := Op.dyn fun s =>
  let r := regionOf k
  let o := k - regionBase r
  match reader with
  | some .host => Op.when (Nat.ble 0x30 r) (Op.emit (.poisoned .host))
  | some (.drone d) => Op.when (Nat.ble 0x30 r && s.drnState d == 1) (Op.trap d 6 (s.drnS d).pc (droneAddr k))
  | some _ => Op.skip
  | none =>
    if r == 0x60 then Op.mod fun s => { s with ctx := s.ctx.map fun e => (e.1, e.2.mark (wordOf k)) }
    else if Nat.ble 0x62 r && Nat.blt o 0x20000 && s.fld (HIVE_DRN_STAT (r - 0x62)) HIVE_DRN_STAT_ACTIVE_BANK == o / 0x10000
        && s.drnState (r - 0x62) == 1 then
      Op.trap (r - 0x62) 5 (s.drnS (r - 0x62)).pc (BitVec.ofNat 32 (o % 0x10000))
    else Op.skip

/-- The outcome of a word that becomes poisoned for the word's owner (R414, R416, R196). -/
def Op.eccOwner (k : Nat) : Op := Op.dyn fun s =>
  let r := regionOf k
  let o := k - regionBase r
  if Nat.blt r 0x30 then
    if Nat.ble 0x180000 o then Op.pageWithdraw r ((o - 0x180000) / 0x200)
    else match s.cdCopy k with
      | some (n, rx, true) => Op.goodShadow n rx false
      | some (n, rx, false) => Op.cdFallback n rx
      | none => Op.skip
  else if Nat.ble 0x62 r && Nat.blt o 0x20000 && s.fld (HIVE_DRN_STAT (r - 0x62)) HIVE_DRN_STAT_ACTIVE_BANK != o / 0x10000 then
    Op.setF (HIVE_DRN_STAT (r - 0x62)) HIVE_DRN_STAT_IDLE_VALID 0
  else Op.skip

/-- The syndrome that a read meets: POISON in a poisoned word, and that of a pending injection where none is given. -/
def State.syndAt (s : State) (k : Nat) (synd : BitVec 8) : BitVec 8 :=
  if s.poisoned k then poisonSynd
  else match s.injOf k with
    | some i => if synd == 0 then i.synd else synd
    | none => synd

/-- A reader meets a nonzero syndrome in the word that holds key `a` (R408–R410, R414, R415, R419). -/
def Op.eccRead (reader : Option Party) (a : Nat) (given : BitVec 8) : Op := Op.dyn fun s =>
  let k := wordOf a
  let r := regionOf k
  let synd := s.syndAt k given
  let pend := s.injAt k
  let inj := match s.injOf k with | some i => synd == i.synd | none => false
  let note := pend && !inj
  let owner := if !s.poisoned k then Op.thn (Op.poison k true) (Op.eccOwner k)
    else Op.when (Nat.blt r 0x30 && Nat.ble 0x180000 (k - regionBase r)) (Op.eccOwner k)
  if synd == 0 then Op.skip
  else Op.thn (Op.when pend (Op.injDrop fun i => i.word == k)) (
    if synd == poisonSynd then Op.all [Op.count (POISON_CNT r) 1, owner, Op.eccReader reader a]
    else if syndSingle r synd then Op.all [Op.count (CE_CNT r) 1, Op.eccLog k synd inj note,
      Op.when (!(s.wbOf r).contains k) (Op.wbSet r fun l => l ++ [k])]
    else Op.all [Op.count (UE_CNT r) 1, Op.raiseEcc r 0x26 2 (eccDetail k) inj note, owner, Op.eccReader reader a])

/-- A read of memory by a party: what the check of its word does, and then, unless the word is uncorrectable, `k` on the data. -/
def Op.memRead (p : Party) (a : Nat) (k : W → Op) : Op := Op.dyn fun s =>
  let w := wordOf a
  Op.thn (Op.eccRead (some p) a 0) (Op.dyn fun t =>
    if t.poisoned w && Nat.ble 0x30 (regionOf w) then Op.skip
    else if t.poisoned w then Op.free k else k (s.word a))

/-! The forager (R412, R413). -/

/-- The domain of a region's memory; the hub's has none. -/
def regionDom (r : Nat) : Option Nat :=
  if Nat.blt r 0x60 then some (domEng (r % 0x30)) else if Nat.ble 0x62 r then some (domClu ((r - 0x62) / 8)) else none
/-- Is a region's memory served? -/
def State.regionUp (s : State) (r : Nat) : Bool :=
  !s.pwr.dead && (match regionDom r with | some d => s.served d | none => true)
/-- Does the forager read a region: its domain is in Run and not under test (R456, R480)? -/
def State.regionRun (s : State) (r : Nat) : Bool :=
  !s.pwr.dead && !s.memTest r && (match regionDom r with | some d => s.inRun d | none => true)
/-- A pass of a region ends: later than PERIOD, in 10 ms of the 1.25 GHz time clock, sets LAG (R412, R303). -/
def Op.passEnd (r : Nat) : Op := Op.dyn fun s =>
  Op.thn (Op.when (Nat.blt (s.fld (FG_CFG r) FG_CFG_PERIOD * 12500000) (s.time.c - Tab.get s.ecc.pass (fun _ => 0) r))
      (Op.flag (FG_STAT r) FG_STAT_LAG))
    (Op.ecc fun e => { e with pass := Tab.set e.pass (fun _ => 0) r s.time.c })
/-- The forager reads the next word of its pass. -/
def Op.forage (r : Nat) (synd : BitVec 8) : Op := Op.dyn fun s =>
  let pos := s.fld (FG_POS r) FG_POS_POS
  Op.when (s.bit (FG_CFG r) FG_CFG_EN && s.regionRun r) (Op.all [
    Op.eccRead (some .forager) (regionBase r + pos * wordSz r) synd,
    Op.setF (FG_POS r) FG_POS_POS ((pos + 1) % regionWords r),
    Op.when (Nat.ble (regionWords r) (pos + 1)) (Op.passEnd r)])
/-- The first scheduled write-back takes place: discarded in the shadow copy of a block with a swap pending (R29, R413). -/
def Op.writeBack (r : Nat) : Op := Op.dyn fun s => Op.when (s.regionRun r) <|
  match s.wbOf r with
  | [] => Op.skip
  | k :: l => Op.thn (Op.wbSet r fun _ => l)
      (match s.cdCopy k with
       | some (n, rx, true) =>
         if s.pendBlk n (if rx then 5 else 4) then Op.flag (ENG_SWAP_STAT n) ENG_SWAP_STAT_WRITE_BLOCKED
         else Op.when (!s.poisoned k) (Op.wordWritten k true false)
       | _ => Op.when (!s.poisoned k) (Op.wordWritten k true false))

/-! Injection (R418). -/

/-- A write of ECC_FLIP_CTL. -/
def Op.flipCtl (v : W) : Op := Op.dyn fun s =>
  let r := getFld v ECC_FLIP_CTL_REGION
  let n := popc (s.reg ECC_FLIP_DATA_LO).toNat 32 + popc (s.reg ECC_FLIP_DATA_HI).toNat 32
    + popc (s.fld ECC_FLIP_CHECK ECC_FLIP_CHECK_MASK) 8
  Op.thn (Op.setF ECC_FLIP_CTL ECC_FLIP_CTL_REGION r) (Op.when (v.getLsbD 31) (
    if n == 0 || Nat.blt 2 n || (Nat.blt r 0x30 && s.reg ECC_FLIP_DATA_HI != 0) || s.bit ECC_FLIP_CTL ECC_FLIP_CTL_ARM then
      Op.flag ECC_STAT ECC_STAT_FLIP_REFUSED
    else Op.flag ECC_FLIP_CTL ECC_FLIP_CTL_ARM))

/-! Rows. -/

/-- The forager reads the next word (R412). -/
def execForagerRead (r : Fin 154) (synd : BitVec 8) (s : State) := (Op.forage r synd).next s
/-- A write-back takes place (R413). -/
def execForagerWriteBack (r : Fin 154) (s : State) := (Op.writeBack r).next s
/-- A write of ECC_FLIP_CTL (R418). -/
def execEccFlipArm (_p : Party) (v : W) (s : State) := (Op.hub (Op.flipCtl (v ||| 0x80000000#32))).next s
/-- FAR_CMD.GO (R420). -/
def execFarCmdGo (_p : Party) (v : W) (s : State) := (Op.hub (Op.farCmd (v ||| 0x80000000#32))).next s
/-- A read meets an error (R409, R414). -/
def execEccReadError (reader : Option Party) (r : Fin 154) (addr : W) (synd : BitVec 8) (s : State) :=
  (Op.dyn fun s => Op.when (s.regionUp r) (Op.eccRead reader (keyAt r addr) synd)).next s

end Sys2Proof.Machine
end

