-- ==== Sys2Proof/Machine/Converters.lean ====
section
/-! DEFINITION. The converters: input selectors (R84, R85), overrange (R86–R90), mismatch tracking (R92–R94), spare slices
(R98) and system calibration (R101–R109). -/
namespace Sys2Proof.Machine

/-- A write of CONV_SEL (R85, R166). -/
def Op.convSel (n : Nat) (v : W) : Op := Op.dyn fun s =>
  if (s.rxLocked n || s.rxAcq n) && v &&& 0xFF#32 != 0#32 then Op.flag (CONV_STAT n) CONV_STAT_SEL_REFUSED
  else Op.thn (Op.wr (CONV_SEL n) v) (Op.rxSel n)

/-- A round with a saturated code (R86, R87, R90). -/
def Op.adcSat (n a : Nat) : Op := Op.dyn fun s =>
  Op.all [Op.when (!s.bit (CONV_OVR_STAT n) ⟨a, a⟩) (Op.condSet (srcEng n a) 0x01 0 0),
    Op.flag (CONV_OVR_STAT n) ⟨a, a⟩, Op.flag (CONV_OVR_STAT n) ⟨4 + a, 4 + a⟩, Op.count (CONV_CLIP_CNT n a) 1]
/-- Three rounds without a saturated code (R86). -/
def Op.ovrClear (n a : Nat) : Op :=
  Op.thn (Op.setF (CONV_OVR_STAT n) ⟨4 + a, 4 + a⟩ 0) (Op.condClear (srcEng n a) 0x01 0 0)

/-! Tracking (R92–R94). A tracked value is held in whole largest steps, so that 10 % of gain is 1,638 of them (1,638.4). An update moves
it one step towards what the loop measured, or not at all (DESIGN CHOICE, log 29: the spec gives only the largest step). -/

/-- The limits of a tracked value in its units: 8 codes, 10 %, 2.0 ps, 10 % (R92). -/
def trackLim : Track := ⟨512, 1638, 2048, 1000⟩
/-- One step of a tracked value towards what the loop measured, held in its range (R92, R94). -/
def trackStep (lim v m : Int) : Int := clampI (-lim) lim (v + clampI (-1) 1 (m - v))
/-- One step of all values of a slice towards measured ones. -/
def Track.step (x : Track) (m : List Int) : Track :=
  ⟨trackStep trackLim.off x.off (m.getD 0 x.off), trackStep trackLim.gain x.gain (m.getD 1 x.gain),
   trackStep trackLim.skew x.skew (m.getD 2 x.skew), trackStep trackLim.bw x.bw (m.getD 3 x.bw)⟩
/-- Is any tracked value at its limit (R94)? -/
def Track.atLimit (t : Track) : Bool :=
  t.off.natAbs == 512 || t.gain.natAbs == 1638 || t.skew.natAbs == 2048 || t.bw.natAbs == 1000
/-- The logical slice of ADC `a` that physical slice `k` serves (R94, R95), spares being 64 to 67: none for a slice that is replaced and
for a spare that is not in the active map. -/
def State.servedSlice (s : State) (n a k : Nat) : Option Nat :=
  let w := s.reg (CONV_ADC_MAP n a + 0x4000)
  let en := fun (x : Nat) => bitFld w ⟨8 * x + 7, 8 * x + 7⟩
  let sl := fun (x : Nat) => getFld w ⟨8 * x + 5, 8 * x⟩
  if Nat.blt k 64 then (if (List.range 4).any fun x => en x && sl x == k then none else some k)
  else if en (k - 64) then some (sl (k - 64)) else none
/-- Does the loop run on physical slice `k`: is it active, or a spare in shadow run? -/
def State.tracked (s : State) (n a k : Nat) : Bool :=
  (s.servedSlice n a k).isSome || (Nat.ble 64 k && (s.adcRun n (4 * a + k - 64)).isSome)
/-- A slice's tracked value is at its limit (R94): the bit of the logical slice that it serves, a DEGRADE fault that names ADC and slice,
and a request to the farrier under AUTO_SLICE. -/
def Op.trackHit (n a k : Nat) : Op := Op.dyn fun s =>
  Op.when (!s.holds (srcEng n a) 0x02 2 k) (Op.all [
    Op.flag (CONV_TRACK_LIMIT n a (k / 32)) ⟨k % 32, k % 32⟩, Op.condSet (srcEng n a) 0x02 2 k,
    Op.when (s.bit FAR_CFG FAR_CFG_AUTO_SLICE) (Op.farQueue (BitVec.ofNat 32 (0x20000000 + n * 0x10000 + a * 0x100 + k)) 0)])
/-- No tracked value of the slice is at its limit any more: bit and condition end (DESIGN CHOICE, log 29: R94 gives only their
setting). -/
def Op.trackFree (n a k : Nat) : Op := Op.dyn fun s =>
  Op.when (s.holds (srcEng n a) 0x02 2 k)
    (Op.thn (Op.setF (CONV_TRACK_LIMIT n a (k / 32)) ⟨k % 32, k % 32⟩ 0) (Op.condClear (srcEng n a) 0x02 2 k))
/-- An update of physical slice `k` of ADC `a` towards measured values (R92–R94). -/
def Op.track (n a k : Nat) (m : List Int) : Op := Op.dyn fun s =>
  let y := (Tab.get (s.engS n).track (fun _ => Track.init) (a * 68 + k)).step m
  Op.when (s.tracked n a k) (Op.thn
    (Op.eng n fun e => { e with track := Tab.set e.track (fun _ => Track.init) (a * 68 + k) y })
    (match s.servedSlice n a k with
      | some j => if y.atLimit then Op.trackHit n a j else Op.trackFree n a j
      | none => Op.skip))

/-! Spare slices (R98). -/

/-- The register, shift and map entry of a spare of converter `c`: CONV_SPARE_STAT index and bit. -/
def spareAt (c sp : Nat) : Nat × Nat := if Nat.blt c 4 then (0, 4 * c + sp) else (1, 2 * (c - 4) + sp)
/-- The map word of a converter, in the shadow copy (0) or at a distance. -/
def convMap (n c : Nat) : Nat := if Nat.blt c 4 then CONV_ADC_MAP n c else CONV_DAC_MAP n (c - 4)
def spareEn (sp : Nat) : Fld := ⟨8 * sp + 7, 8 * sp + 7⟩
def spareSlice (c sp : Nat) : Fld := if Nat.blt c 4 then ⟨8 * sp + 5, 8 * sp⟩ else ⟨8 * sp + 4, 8 * sp⟩
def sparesOf (c : Nat) : Nat := if Nat.blt c 4 then 4 else 2
/-- Is a spare in shadow run (R98)? -/
def State.spareRun (s : State) (n c sp : Nat) : Bool :=
  Nat.blt sp (sparesOf c) && s.bit (convMap n c) (spareEn sp) && !s.bit (convMap n c + 0x4000) (spareEn sp)
/-- How many of 65,536 own samples of a spare differ by more than 2 codes from the active slice's. An ADC spare's codes `own` are those of
the last 65,536 rounds whose filters are complete; each takes the place of the slice's code in the stream, and is corrected with the
slice's calibration values and the spare's own tracked ones. Of a DAC the sense comparator measures the spare (`own`) and the slice
(`act`), in codes. -/
def State.spareDiffer (s : State) (n c sp : Nat) (own act : List Byte) : Nat :=
  let code := fun (l : List Byte) (j : Nat) => sgn 8 (l.getD j 0#8).toNat
  if Nat.blt c 4 then
    let r := (s.engS n).rxp
    let k := getFld (s.reg (convMap n c)) (spareSlice c sp)
    ((List.range 65536).filter fun j =>
      let i := 64 * (4 * r.wordN + j - 65537) + k
      let g := r.seg (s.segNow n 0) i
      let y := g.correctedOf (fun q => if q = (i : Int) then code own j else r.code c q) c (64 + sp) i
      decide (2 * 2 ^ 56 < (y - g.corrected r c i).natAbs)).length
  else ((List.range 65536).filter fun j => decide (2 < (code own j - code act j).natAbs)).length
/-- The compare of a spare ends: DONE, and PASS when at most 4 samples differ. -/
def Op.spareDone (n c sp : Nat) (own act : List Byte) : Op := Op.dyn fun s =>
  let p := spareAt c sp
  Op.when (s.spareRun n c sp) (Op.thn (Op.flag (CONV_SPARE_STAT n p.1) ⟨p.2 + 16, p.2 + 16⟩)
    (Op.when (Nat.ble (s.spareDiffer n c sp own act) 4) (Op.flag (CONV_SPARE_STAT n p.1) ⟨p.2, p.2⟩)))
def State.sparePass (s : State) (n c sp : Nat) : Bool :=
  let p := spareAt c sp
  s.bit (CONV_SPARE_STAT n p.1) ⟨p.2, p.2⟩

/-! Calibration (R101–R109). -/

/-- ADCs selected by MASK. -/
def State.calMask (s : State) (n : Nat) : List Nat :=
  (List.range 4).filter fun a => (s.fld (CONV_CAL_CTL n) CONV_CAL_CTL_MASK).testBit a
/-- Is capture armed (R101)? -/
def State.capArmed (s : State) (n : Nat) : Bool :=
  Nat.ble 1 (s.fld (CAP_STAT n) CAP_STAT_STATE) && Nat.ble (s.fld (CAP_STAT n) CAP_STAT_STATE) 3
/-- The refusal of a GO in the order of the codes of R109; 0 none. -/
def State.calRefuse (s : State) (n : Nat) : Nat :=
  let st := s.fld (CONV_CAL_CTL n) CONV_CAL_CTL_STEP
  let f := s.fld (CONV_CAL_TONE n) CONV_CAL_TONE_FREQ
  if st == 0 then 10
  else if s.rxLocked n || s.rxAcq n then 1
  else if (s.calMask n).any fun a => s.fld (CONV_SEL n) ⟨2 * a + 1, 2 * a⟩ != 0 then 2
  else if s.capArmed n then 3
  else if st == 2 && (Nat.blt f 1000 || Nat.blt 40000 f) then 7
  else if st == 3 && s.fld (CONV_CAL_STAT n) CONV_CAL_STAT_DONE % 4 != 3 then 8
  else 0
/-- A calibration step ends with a result (R109, R398 line 11). -/
def Op.calEnd (n err : Nat) : Op :=
  Op.all [Op.setF (CONV_CAL_STAT n) CONV_CAL_STAT_STATE 0, Op.setF (CONV_CAL_STAT n) CONV_CAL_STAT_ERR err,
    Op.eng n fun e => { e with calRun := 0 }, Op.event n 11]
/-- GO (R101, R107): while a step runs GO does nothing (DESIGN CHOICE, log 30). -/
def Op.calGo (n : Nat) : Op := Op.dyn fun s =>
  let st := s.fld (CONV_CAL_CTL n) CONV_CAL_CTL_STEP
  let r := s.calRefuse n
  if (s.engS n).calRun != 0 then Op.skip
  else if r != 0 then Op.setF (CONV_CAL_STAT n) CONV_CAL_STAT_ERR r
  else Op.all [Op.setF (CONV_CAL_STAT n) CONV_CAL_STAT_ERR 0, Op.setF (CONV_CAL_STAT n) CONV_CAL_STAT_STATE (if st == 3 then 2 else 1),
    Op.when (st == 1) (Op.setF (CONV_CAL_STAT n) CONV_CAL_STAT_DONE 0),
    Op.eng n fun e => { e with calRun := st }]
/-- A write of CONV_CAL_CTL (R107): ABORT before GO. STEP and MASK are loaded also while a step runs, and the step then ends with the
MASK written (DESIGN CHOICE, log 30). -/
def Op.calCtl (n : Nat) (v : W) : Op := Op.dyn fun s =>
  Op.all [Op.wr (CONV_CAL_CTL n) (v &&& 0x3F#32),
    Op.when (v.getLsbD 30 && (s.engS n).calRun != 0) (Op.calEnd n 9),
    Op.when (v.getLsbD 31) (Op.calGo n)]

/-- The codes of slice `k` among 2^20 codes of an ADC (R102): 16,384 of them. -/
def sliceCodes (l : List Byte) (k : Nat) : List Int := (List.range 16384).map fun j => sgn 8 (l.getD (64 * j + k) 0#8).toNat
/-- The sums of an ADC's 64 slices. -/
def sliceSums (l : List Byte) : List SliceSum := (List.range 64).map fun k =>
  (sliceCodes l k).foldl (fun x c => ⟨x.sx + c, x.sxx + c.natAbs ^ 2, x.sat || c == 127 || c == -128⟩) ⟨0, 0, false⟩
/-- Sums of slice `k` of ADC `a`. -/
def sumAt (l : List (List SliceSum)) (a k : Nat) : SliceSum := (l.getD a []).getD k ⟨0, 0, false⟩
/-- v0 of R102 over 16,384 samples, times 2^28. -/
def varNum (x : SliceSum) : Int := 16384 * (x.sxx : Int) - x.sx * x.sx
/-- P of R103 over 16,384 samples, times 2^28: `d` are the sums of the DARK step. -/
def tonePow (d t : SliceSum) : Int := 16384 * (t.sxx : Int) - 2 * d.sx * t.sx + d.sx * d.sx
/-- DARK (R102). -/
def Op.calDark (n : Nat) (m : List (List SliceSum)) : Op := Op.dyn fun s =>
  if (s.calMask n).any fun a => (List.range 64).any fun k => decide (16 * 268435456 < varNum (sumAt m a k)) then Op.calEnd n 4
  else Op.all [Op.eng n fun e => { e with cal := m }, Op.flag (CONV_CAL_STAT n) ⟨16, 16⟩, Op.calEnd n 0]
/-- TONE (R103): a step that is both clipped and without tone reports CLIPPED (DESIGN CHOICE, log 30). What a slice mean that no DARK
step has taken decides is left open (log 3). -/
def Op.calTone (n : Nat) (m : List (List SliceSum)) : Op := Op.dyn fun s =>
  let d := (s.engS n).cal
  let amp : Int := s.fld (CONV_CAL_TONE n) CONV_CAL_TONE_AMP
  let low := (s.calMask n).any fun a =>
    decide (32 * (List.range 64).foldl (fun t k => t + tonePow (sumAt d a k) (sumAt m a k)) 0 < amp * amp * 64 * 268435456)
  let ok := Op.all [Op.eng n fun e => { e with tone := m }, Op.flag (CONV_CAL_STAT n) ⟨17, 17⟩, Op.calEnd n 0]
  if (s.calMask n).any fun a => (List.range 64).any fun k => (sumAt m a k).sat then Op.calEnd n 6
  else if d.isEmpty then Op.free fun w => if w.getLsbD 0 then Op.calEnd n 5 else ok
  else if low then Op.calEnd n 5 else ok

/-- a[k] of R104 in 2^-64 code, rounded to nearest: the square root of 2 (P - v0), left free where P is below v0 (log 30). -/
def ampOf (d t : SliceSum) : Nat :=
  let v := 2 * (tonePow d t - varNum d)
  if v < 0 then Config.ampOpen v else rneSqrt (v.toNat * 2 ^ 100) 1
/-- A quotient rounded under R104, where it is a 16-bit unsigned value: the spec states no result elsewhere. -/
def ratio16 (num den : Int) : Option Int :=
  if den ≤ 0 then none else let q := rneDiv num den; if 0 ≤ q ∧ q < 65536 then some q else none
/-- An offset as the signed 8.8 value of a table: one outside its range wraps modulo 2^16 (DESIGN CHOICE, log 30). -/
def off16 (v : Int) : Nat := uns 16 v
/-- 16-bit values in order, each one that is not stated left free (log 3). -/
def Op.pick16 : List (Option Int) → (List Nat → Op) → Op
  | [], f => f []
  | some x :: l, f => Op.pick16 l fun r => f (uns 16 x :: r)
  | none :: l, f => Op.free fun w => Op.pick16 l fun r => f (w.toNat % 65536 :: r)
/-- Stored TONE sample `i` of an ADC under new coefficients (R106), in 2^-36 code: `g` and `o` are those of the converter, `sg` and `so`
those of the slices. -/
def toned (x : Int) (g sg : Nat) (o so : Nat) : Int := (g : Int) * sg * (256 * x - sgn 16 o - sgn 16 so)
/-- The spur figure (R106): the largest of the lines j fs / 64 ± f_tone, in 0.1 dBc. -/
def spurOf (sr f : Nat) (y : List Int) : Int :=
  (List.range 126).foldl (fun m i => max m (Config.spurLine sr f (i / 2 + 1) (i % 2 == 0) y)) (Config.spurLine sr f 1 true y)
/-- COMPUTE for one ADC (R104–R106). -/
def Op.calAdc (n a : Nat) (d t : List (List SliceSum)) : Op := Op.dyn fun s =>
  let ks := List.range 64
  let amp : Int := s.fld (CONV_CAL_TONE n) CONV_CAL_TONE_AMP
  let sum : Int := ks.foldl (fun x k => x + (sumAt d a k).sx) 0
  let tot : Int := ((ks.foldl (fun x k => x + ampOf (sumAt d a k) (sumAt t a k)) 0 : Nat) : Int)
  let o := off16 (rneDiv sum 4096)
  let so := ks.map fun k => off16 (rneDiv (64 * (sumAt d a k).sx - sum) 4096)
  Op.pick16 (ratio16 (amp * 16384 * 64 * 18446744073709551616) tot
      :: ks.map fun k => ratio16 (tot * 16384) (64 * (ampOf (sumAt d a k) (sumAt t a k) : Nat))) fun gs =>
    let y := (List.range 1048576).map fun i => toned (sgn 8 (s.byte (capKey n (a * 0x100000 + i))).toNat)
      (gs.getD 0 0) (gs.getD (1 + i % 64) 0) o (so.getD (i % 64) 0)
    let spur := spurOf (s.engSr n) (s.fld (CONV_CAL_TONE n) CONV_CAL_TONE_FREQ) y
    Op.all [
      Op.shadowWr n (CONV_ADC_CORR n a) (BitVec.ofNat 32 (65536 * gs.getD 0 0 + o)),
      Op.each ks fun k => Op.shadowWr n (CONV_SLICE_CORR n a k) (BitVec.ofNat 32 (65536 * gs.getD (1 + k) 0 + so.getD k 0)),
      Op.setF (CONV_CAL_SPUR n a) CONV_CAL_SPUR_SPUR (uns 16 spur),
      Op.setB (CONV_CAL_STAT n) ⟨8 + a, 8 + a⟩ (decide (spur ≤ -450))]
/-- COMPUTE (R104–R106). -/
def Op.calCompute (n : Nat) : Op := Op.dyn fun s =>
  Op.all [Op.each (s.calMask n) fun a => Op.calAdc n a (s.engS n).cal (s.engS n).tone,
    Op.flag (CONV_CAL_STAT n) ⟨18, 18⟩, Op.calEnd n 0]
/-- A calibration step ends: DARK and TONE have overwritten the capture memory of the selected ADCs (R101). -/
def Op.calDone (n : Nat) (m : CalMeas) : Op := Op.dyn fun s =>
  let r := (s.engS n).calRun
  let sums := (List.range 4).map fun a => sliceSums (m.codes.getD a [])
  let keep := Op.each (s.calMask n) fun a =>
    Op.store (cells (capKey n (a * 0x100000)) ((List.range 1048576).map fun i => (m.codes.getD a []).getD i 0#8)) true
  if r == 1 then Op.thn keep (Op.calDark n sums) else if r == 2 then Op.thn keep (Op.calTone n sums)
  else Op.when (r == 3) (Op.calCompute n)

/-! Rows. -/

/-- A write of CONV_SEL (R85). -/
def execConvSelWrite (p : Party) (n : Eng) (v : W) (s : State) :=
  (Op.gate p (CONV_SEL n) true (domEng n) (Op.convSel n v)).next s
/-- A round with a saturated ADC code (R86). -/
def execAdcSaturation (n : Eng) (a : Fin 4) (s : State) := (Op.adcSat n a).next s
/-- Three rounds without a saturated code (R86). -/
def execOverrangeLiveClear (n : Eng) (a : Fin 4) (s : State) := (Op.ovrClear n a).next s
/-- CONV_CAL_CTL.GO with STEP DARK (R102). -/
def execCalDark (p : Party) (n : Eng) (v : W) (s : State) :=
  (Op.gate p (CONV_CAL_CTL n) true (domEng n) (Op.calCtl n (setFld v CONV_CAL_CTL_STEP 1 ||| 0x80000000#32))).next s
/-- CONV_CAL_CTL.GO with STEP TONE (R103). -/
def execCalTone (p : Party) (n : Eng) (v : W) (s : State) :=
  (Op.gate p (CONV_CAL_CTL n) true (domEng n) (Op.calCtl n (setFld v CONV_CAL_CTL_STEP 2 ||| 0x80000000#32))).next s
/-- CONV_CAL_CTL.GO with STEP COMPUTE (R104). -/
def execCalCompute (p : Party) (n : Eng) (v : W) (s : State) :=
  (Op.gate p (CONV_CAL_CTL n) true (domEng n) (Op.calCtl n (setFld v CONV_CAL_CTL_STEP 3 ||| 0x80000000#32))).next s
/-- CONV_CAL_CTL.GO with STEP 0b00 (R107). -/
def execCalNoStep (p : Party) (n : Eng) (v : W) (s : State) :=
  (Op.gate p (CONV_CAL_CTL n) true (domEng n) (Op.calCtl n (setFld v CONV_CAL_CTL_STEP 0 ||| 0x80000000#32))).next s
/-- CONV_CAL_CTL.ABORT (R107). -/
def execCalAbort (p : Party) (n : Eng) (v : W) (s : State) :=
  (Op.gate p (CONV_CAL_CTL n) true (domEng n) (Op.calCtl n (v ||| 0x40000000#32))).next s
/-- A calibration step ends (R109). -/
def execCalStepDone (n : Eng) (m : CalMeas) (s : State) := (Op.calDone n m).next s

end Sys2Proof.Machine
end

