-- ==== Sys2Proof/Machine/Telemetry.lean ====
section
/-! DEFINITION. The monitor chain of an engine, clock by clock: raw values and their validity (R330), the CIC, FIR and median filters
(R331–R333), and fill (R335). The fixed pipeline of 8 clocks (R334) is timing. -/
namespace Sys2Proof.Machine

/-! The filters. -/

/-- One sample through five integrators: each adds the value that the one before it has just taken (R331). -/
def cicInteg (x : BitVec 76) : List (BitVec 76) → List (BitVec 76)
  | [] => []
  | i :: r => (i + x) :: cicInteg (i + x) r
/-- One sample through five combs: the output, and the inputs that the combs keep (R331). -/
def cicComb (x : BitVec 76) : List (BitVec 76) → BitVec 76 × List (BitVec 76)
  | [] => (x, [])
  | d :: r => let t := cicComb (x - d) r; (t.1, x :: t.2)
/-- The normalised output of the decimator (R331). -/
def cicNorm (r : Nat) (y : BitVec 76) : BitVec 20 := BitVec.ofInt 20 (rne y.toInt (5 * r - 4))
/-- The FIR sum rounded, before saturation (R332); `c` newest first. -/
def firSum : List Int → List (BitVec 20) → Int
  | h :: hs, c :: cs => h * c.toInt + firSum hs cs
  | _, _ => 0
def firOut (h : List Int) (c : List (BitVec 20)) : Int := rne (firSum h c) 14
/-- Insert in rising order. -/
def insInt (x : Int) : List Int → List Int
  | [] => [x]
  | y :: r => if x ≤ y then x :: y :: r else y :: insInt x r
/-- The median of the last `m` FIR outputs; those before START count as 0 (R333, R337). -/
def medianOf (m : Nat) (l : List (BitVec 20)) : BitVec 20 :=
  let v := (List.range m).map fun i => (l.getD i 0).toInt
  BitVec.ofInt 20 ((v.foldr insInt []).getD (m / 2) 0)

/-! Configuration. -/

def State.monR (s : State) (n : Nat) : Nat := s.fld (MON_CFG n) MON_CFG_CIC_R
def State.monNT (s : State) (n : Nat) : Nat := s.fld (MON_CFG n) MON_CFG_NT
def State.monD (s : State) (n : Nat) : Nat := 2 ^ s.fld (MON_CFG n) MON_CFG_DEC
def State.monM (s : State) (n : Nat) : Nat := 2 * s.fld (MON_CFG n) MON_CFG_MED + 1
/-- May START be accepted (R337)? -/
def State.monOk (s : State) (n : Nat) : Bool :=
  Nat.ble 6 (s.monR n) && Nat.ble (s.monR n) 12 && s.monNT n != 0 && Nat.ble (s.fld (MON_CFG n) MON_CFG_MED) 4
/-- Tfill in clocks (R335). -/
def State.monFill (s : State) (n : Nat) : Nat :=
  let r := 2 ^ s.monR n
  5 * r + r * s.monNT n + r * s.monD n * s.monM n
/-- GD in half clocks (R334, R344). -/
def State.monGd (s : State) (n : Nat) : Nat :=
  let r : Int := ((2 ^ s.monR n : Nat) : Int)
  uns 20 (16 + 5 * (r - 1) + r * ((s.monNT n : Int) - 1) + r * (s.monD n : Int) * ((s.monM n : Int) - 1))
/-- Is the source of channel `q` valid (R330)? -/
def State.monValid (s : State) (n q : Nat) : Bool :=
  let st := s.rxState n
  if q == 0 then Nat.ble 2 st else if q == 7 then Nat.ble 4 st else st == 7
/-- LIVE_INV (R330, R343). -/
def State.monInv (s : State) (n : Nat) : Nat :=
  (List.range 8).foldl (fun a q => if s.monValid n q then a else a + 2 ^ q) 0
/-- A channel. -/
def Mon.chan (m : Mon) (q : Nat) : MonCh := Tab.get m.ch (fun _ => MonCh.init) q

/-! Raw values (R330). -/

/-- Sum of squares of a word over the four ADCs (R163). -/
def wordPower (w : CapWord) : Nat := w.foldl (fun a l => l.foldl (fun a b => a + (sgn 8 b.toNat).natAbs ^ 2) a) 0
/-- A value held in the 16-bit range. -/
def sat16 (v : Int) : BitVec 16 := BitVec.ofInt 16 (clampI (-32768) 32767 v)
/-- The symbols of the last whole clock whose phase is known: 320 clocks carry 65,536 symbols (log 28). -/
def State.clockSyms (s : State) (n : Nat) : List Nat :=
  let r := (s.engS n).rxp
  let c := r.symN * 320 / 65536
  let lo := ((c - 1) * 65536 + 319) / 320
  let hi := (c * 65536 + 319) / 320
  ((List.range (hi - lo)).map (lo + ·)).filterMap fun i => if Nat.ble (s.lmsDelay n) i then some (i - s.lmsDelay n) else none
/-- The sum of |y - d|² over the symbols of a clock on both polarisations, and their count. -/
def State.clockNoise (s : State) (n : Nat) : Nat × Nat :=
  let r := (s.engS n).rxp
  let l := s.clockSyms n
  (l.foldl (fun a i => a + cNorm (s.lmsErr n r false i) + cNorm (s.lmsErr n r true i)) 0, 2 * l.length)
/-- The centre taps of the four filters. -/
def State.centreTaps (s : State) (n : Nat) : List Cx :=
  let nt := s.nTaps n
  (List.range 4).map fun f => (s.engS n).rxp.tap nt f ((nt - 1) / 2)
/-- The SNR of channel 1. -/
def State.rawSnr (s : State) (n : Nat) : BitVec 16 :=
  let x := s.clockNoise n
  BitVec.ofInt 16 (decibel 256 (2 * 4096 * 4096 * x.2) x.1)

/-! The equaliser's response H(f), at 2M + 1 points of the signal band (R330). -/

/-- A 2 x 2 matrix, by rows, and its determinant. -/
abbrev Mat := (Cx × Cx) × (Cx × Cx)
def cSub (a b : Cx) : Cx := cAdd a (cTimes (-1) b)
def Mat.det (a : Mat) : Cx := cSub (cMul a.1.1 a.2.2) (cMul a.1.2 a.2.1)
/-- Its square norm. -/
def Mat.norm (a : Mat) : Nat := cNorm a.1.1 + cNorm a.1.2 + cNorm a.2.1 + cNorm a.2.2
/-- M, and the points' number. -/
def bandM : Nat := Config.monPoints + 1
def bandN : Nat := 2 * bandM + 1
/-- The response at point `m`, from -M to M, with tap `t` weighted by t^k, times 2^74. -/
def eqResp (taps : List Cx) (k : Nat) (m : Int) : Mat :=
  let h := fun (f : Nat) => (List.range 63).foldl (fun (a : Cx) (t : Nat) => cAdd a (cTimes (((t : Nat) ^ k : Nat) : Int)
    (cMul (taps.getD (63 * f + t) (0, 0)) (unitQ 60 (m * (Config.monBand.val + 1) * t) (262144 * bandM))))) (0, 0)
  ((h 0, h 1), (h 2, h 3))
/-- The responses over the band. -/
def eqBand (taps : List Cx) (k : Nat) : List Mat := (List.range bandN).map fun (i : Nat) => eqResp taps k ((i : Int) - bandM)
/-- Phases unwrapped along the shorter arc. -/
def unwrap (a : Int) : List Int → List Int
  | [] => []
  | p :: l => let b := a + shortArc a p; b :: unwrap b l
/-- The square root of a number of any size, rounded down. -/
def sqrtN (x : Nat) : Nat := isqrtAux x (x.log2 / 2 + 1) 0
/-- The dispersion in ps/nm of the quadratic phase that fits the phase of det(H)^(1/2) best, by least squares beside any constant and any
delay (R148, R330). -/
def residualCd (taps : List Cx) (lam sr : Nat) : BitVec 16 :=
  let u := unwrap 0 ((eqBand taps 0).map fun h => phase h.det)
  let sq := fun (i : Nat) => ((i : Int) - bandM) ^ 2
  let s2 := (List.range bandN).foldl (fun a i => a + sq i) 0
  let w := fun (i : Nat) => (bandN : Int) * sq i - s2
  let num := (List.range bandN).foldl (fun a i => a + w i * u.getD i 0) 0
  let den := (List.range bandN).foldl (fun a i => a + w i * w i) 0
  if lam == 0 then Config.noLog 3 sr 0
  else sat16 (openRound 13 (-num * bandN * 299792458 * (131072 * bandM) ^ 2 * 4096 ^ 2 * 10 ^ 7)
    (den * 2 ^ 32 * (lam ^ 2 * (Config.monBand.val + 1) ^ 2 * sr ^ 2 : Nat)))
/-- The mean difference of the eigen group delays, the real parts of the eigenvalues of j (dH/dω) H^-1, in 0.01 ps (R330): from the weighted
response G they are half a symbol period times those of G H^-1. -/
def dgd (taps : List Cx) (sr : Nat) : BitVec 16 :=
  let at_ := fun (h g : Mat) =>
    -- G times the adjugate of H
    let k : Mat := ((cSub (cMul g.1.1 h.2.2) (cMul g.1.2 h.2.1), cSub (cMul g.1.2 h.1.1) (cMul g.1.1 h.1.2)),
      (cSub (cMul g.2.1 h.2.2) (cMul g.2.2 h.2.1), cSub (cMul g.2.2 h.1.1) (cMul g.2.1 h.1.2)))
    let tr := cAdd k.1.1 k.2.2
    let disc := cSub (cMul tr tr) (cTimes 4 k.det)
    let d := h.det
    let re := (cMul disc (cConj (cMul d d))).1
    sqrtN ((((sqrtN (cNorm disc) * cNorm d : Nat) : Int) + re).toNat * 2 ^ 63) / Nat.max 1 (cNorm d)
  let hs := eqBand taps 0
  let sum := (hs.zip (eqBand taps 1)).foldl (fun a x => a + at_ x.1 x.2) 0
  if hs.any fun h => cNorm h.det == 0 then Config.noLog 4 sr 0 else sat16 (openRound 14 (sum * 204800000) (bandN * 2 ^ 32 * sr))
/-- The mean of 20 log10 of the ratio of the singular values, in 0.01 dB (R330): their squares are (s ± √(s² - 4 |det|²)) / 2. -/
def pdl (taps : List Cx) : BitVec 16 :=
  let hs := eqBand taps 0
  let num := hs.foldl (fun a h => a * (h.norm + sqrtN (h.norm ^ 2 - 4 * cNorm h.det)) ^ 2) 1
  let den := hs.foldl (fun a h => a * (4 * cNorm h.det)) 1
  BitVec.ofInt 16 (decibelMean 100 bandN num den)
/-- A matrix that is a multiple of the unitary part of the centre taps: A |det A| + det A (adj A)^H. -/
def unitaryPart (a : List Cx) : Mat :=
  let m : Mat := ((a.getD 0 (0, 0), a.getD 1 (0, 0)), (a.getD 2 (0, 0), a.getD 3 (0, 0)))
  let d := m.det
  let r : Int := sqrtN (cNorm d * 2 ^ 64)
  let e := cTimes (2 ^ 32) d
  let f := fun (x adjT : Cx) => cAdd (cTimes r x) (cMul e (cConj adjT))
  ((f m.1.1 m.2.2, f m.1.2 (cTimes (-1) m.2.1)), (f m.2.1 (cTimes (-1) m.1.2), f m.2.2 m.1.1))
/-- The rate of the state of polarisation from the centre taps of two clocks 64 apart, in krad/s (R330): 64 clocks are 13,107.2 symbols. -/
def sopRate (a b : List Cx) (sr : Nat) : BitVec 16 :=
  let x := unitaryPart a
  let y := unitaryPart b
  let p := fun (u v : Cx) => cMul (cConj u) v
  let tr := cNorm (cAdd (cAdd (p x.1.1 y.1.1) (p x.1.2 y.1.2)) (cAdd (p x.2.1 y.2.1) (p x.2.2 y.2.2)))
  let ph := phase ((sqrtN (tr * 2 ^ 64) : Nat), (sqrtN ((x.norm * y.norm - tr) * 2 ^ 64) : Nat))
  sat16 (openRound 15 (ph * 4 * piQ * sr * 10 ^ 7) (2 ^ 160 * 131072 * 4096))
/-- The raw value of a channel at the clock of word `w`. -/
def State.rawVal (s : State) (n q : Nat) (w : CapWord) : BitVec 16 :=
  let r := (s.engS n).rxp
  let taps := if r.taps.isEmpty then (List.range 252).map fun i => r.tap (s.nTaps n) (i / 63) (i % 63) else r.taps
  match q with
  | 0 => BitVec.ofInt 16 (decibel 100 (wordPower w) (1024 * 16384))
  | 1 => s.rawSnr n
  | 2 => sat16 ((s.rawSnr n).toInt + decibel 256 (2 * s.engSr n) (25 * 4096) - sgn 16 (s.fld (MON_OSNR_CORR n) MON_OSNR_CORR_CORR))
  | 3 => residualCd taps (s.fld (RX_CD_LAMBDA n + 0x4000) RX_CD_LAMBDA_LAMBDA) (s.engSr n)
  | 4 => dgd taps (s.engSr n)
  | 5 => pdl taps
  | 6 => sopRate (s.centreTaps n) ((s.engS n).mon.sop.getD 63 (s.centreTaps n)) (s.engSr n)
  | _ => sat16 (openRound 12 (s.freqHeld n r * 4000) (2 ^ 44))

/-! The clock. -/

/-- One datapath clock of one channel: the raw value, and the integrators while the chain runs. -/
def monClk (run valid : Bool) (x : BitVec 16) (c : MonCh) : MonCh :=
  let raw := if valid then x else c.raw
  if run then { c with raw := raw, since := if valid then c.since + 1 else 0, integ := cicInteg (raw.signExtend 76) c.integ }
  else { c with raw := raw }
/-- A CIC output of one channel: the combs and the FIR history. -/
def monCic (r : Nat) (c : MonCh) : MonCh :=
  let t := cicComb (c.integ.getD 4 0) c.comb
  { c with comb := t.2, fir := (cicNorm r t.1 :: c.fir).take 63 }
/-- A fine output of one channel: its FIR sum, saturated, joins the median history. -/
def monFine (h : List Int) (c : MonCh) : MonCh :=
  { c with med := (BitVec.ofInt 20 (clampI (-524288) 524287 (firOut h c.fir)) :: c.med).take 9 }
/-- The taps h of the first NT (R332). -/
def State.monTaps (s : State) (n : Nat) : List Int :=
  (List.range (s.monNT n)).map fun t => sgn 16 (s.fld (MON_FIR n t) MON_FIR_TAP)

/-- Change every channel of an engine's monitor. -/
def Op.monCh (n : Nat) (f : Nat → MonCh → MonCh) : Op := Op.eng n fun e => { e with mon := { e.mon with
  ch := (List.range 8).foldl (fun a q => Tab.set a (fun _ => MonCh.init) q (f q (e.mon.chan q))) e.mon.ch } }

/-- A fine output of all channels (R332–R335, R339). -/
def Op.monOutput (n : Nat) : Op := Op.dyn fun s =>
  let h := s.monTaps n
  Op.all [
    Op.when ((List.range 8).any fun q => let y := firOut h ((s.engS n).mon.chan q).fir; y < -524288 ∨ 524287 < y)
      (Op.flag (MON_STAT n) MON_STAT_FIR_SAT),
    Op.monCh n fun _ c => monFine h c,
    Op.dyn fun s => Op.each (List.range 8) fun q =>
      let c := (s.engS n).mon.chan q
      Op.wr (MON_FINE n q) (BitVec.ofNat 32 ((if Nat.ble (s.monFill n) c.since then 0x80000000 else 0)
        + (medianOf (s.monM n) c.med).toNat)),
    Op.dyn fun s => Op.wr (MON_FINE_CNT n) (s.reg (MON_FINE_CNT n) + 1),
    Op.when (s.bit (MON_CFG n) MON_CFG_EV) (Op.event n 8)]

/-- One datapath clock: the chain takes the raw values of the eight channels and, while it runs, moves on (R330–R333). -/
def Op.monClock (n : Nat) (w : CapWord) : Op := Op.dyn fun s =>
  let run := s.bit (MON_STAT n) MON_STAT_RUN
  let m := (s.engS n).mon
  let r := s.monR n
  let cic := run && (m.clk + 1) % 2 ^ r == 0
  Op.all [Op.monCh n fun q c => monClk run (s.monValid n q) (s.rawVal n q w) c,
    Op.eng n (fun e => { e with mon := { e.mon with clk := if run then e.mon.clk + 1 else e.mon.clk, sop := (s.centreTaps n :: e.mon.sop).take 64 } }),
    Op.when cic (Op.thn (Op.monCh n fun _ c => monCic r c)
      (Op.eng n fun e => { e with mon := { e.mon with cic := e.mon.cic + 1 } })),
    Op.when (cic && (m.cic + 1) % s.monD n == 0) (Op.monOutput n)]

end Sys2Proof.Machine
end

