-- ==== Sys2Proof/Machine/Capture.lean ====
section
/-! DEFINITION. What the datapath words of the ADCs bring about (R81): capture (R110–R119), the statistics of receive power (R163) and of
mismatch tracking (R92, R93), the trials of the dispersion scan (R150), and the symbols of the equaliser (R151–R155). A command that
carries words brings those since the engine's last such command. -/
namespace Sys2Proof.Machine

/-! Capture. -/

/-- The record length L and the post-trigger count T (R111). An L above 2^20, which the field can hold, is taken as 2^20, and both are
taken as the registers hold them while the capture runs (DESIGN CHOICE, log 31). -/
def State.capL (s : State) (n : Nat) : Nat :=
  let l := s.fld (CAP_LEN n) CAP_LEN_L
  if l == 0 then 0x100000 else Nat.min 0x100000 (Nat.max 256 (l / 256 * 256))
def State.capT (s : State) (n : Nat) : Nat := Nat.min (s.capL n) (s.fld (CAP_POST n) CAP_POST_T / 256 * 256)
def State.capState (s : State) (n : Nat) : Nat := s.fld (CAP_STAT n) CAP_STAT_STATE

/-- A trigger of an enabled source (R112, R114, R115, R117): 1 pin, 2 time, 3 fault. -/
def Op.capTrig (n src : Nat) : Op := Op.dyn fun s =>
  let st := s.capState n
  let c := (s.engS n).cap
  let i := c.written % s.capL n
  if st == 1 || st == 2 then Op.all [
    Op.setF (CAP_STAT n) CAP_STAT_STATE 3, Op.setF (CAP_STAT n) CAP_STAT_TRIG_SRC src,
    Op.when (st == 1) (Op.flag (CAP_STAT n) CAP_STAT_SHORT_PRE),
    Op.setF (CAP_TRIG_IDX n) CAP_TRIG_IDX_IDX i,
    Op.wr (CAP_TSTAMP_LO n) (BitVec.ofNat 32 s.stamp), Op.wr (CAP_TSTAMP_HI n) (BitVec.ofNat 32 (s.stamp / 2 ^ 32)),
    Op.eng n (fun e => { e with cap := { e.cap with trigAt := e.cap.written } }),
    Op.when (s.bit (CAP_CTL n) CAP_CTL_TRIG_OUT_EN) (Op.thn (Op.mod fun s => { s with trigOut := s.trigOut + 1 })
      (Op.when (s.trigOut == 0) (Op.emit (.trigOut true))))]
  else if st == 3 then
    if c.held.isNone then Op.all [Op.eng n fun e => { e with cap := { e.cap with held := some (BitVec.ofNat 2 src, i) } },
      Op.setF (CAP_STAT n) CAP_STAT_PEND_SRC src, Op.setF (CAP_PEND_IDX n) CAP_PEND_IDX_IDX i]
    else Op.count (CAP_TRIG_OVERRUN n) 1
  else Op.skip

/-- Has stamp time passed CAP_TRIG_TIME: is d of R116 2^47 or more, or is it reached (R115)? -/
def State.capTime (s : State) (n : Nat) : Nat := s.fld (CAP_TRIG_TIME_HI n) CAP_TRIG_TIME_HI_T * 2 ^ 32 + (s.reg (CAP_TRIG_TIME_LO n)).toNat
def State.capPast (s : State) (n : Nat) : Bool := Nat.ble (2 ^ 47) ((s.capTime n + 2 ^ 48 - s.stamp) % 2 ^ 48)
def State.capDue (s : State) (n : Nat) : Bool := s.capPast n || s.capTime n == s.stamp
/-- The time trigger (R115, R116): once in a capture. -/
def Op.capTimed (n : Nat) : Op := Op.dyn fun s =>
  Op.when (s.bit (CAP_CTL n) CAP_CTL_SRC_TIME && s.capArmed n && !(s.engS n).cap.timed)
    (Op.thn (Op.eng n fun e => { e with cap := { e.cap with timed := true } }) (Op.capTrig n 2))
/-- ARM (R112, R116, R118). -/
def Op.capArm (n : Nat) : Op := Op.dyn fun s =>
  let late := s.bit (CAP_CTL n) CAP_CTL_SRC_TIME && s.capPast n
  if s.capArmed n || (s.engS n).calRun != 0 then Op.flag (CAP_STAT n) CAP_STAT_ARM_REFUSED
  else Op.all [
    Op.wr (CAP_STAT n) ((s.reg (CAP_STAT n) &&& 0x00200000#32) ||| 0x20000000#32 ||| (if late then 0x00400000#32 else 0#32)),
    Op.wr (CAP_TRIG_IDX n) 0, Op.wr (CAP_PEND_IDX n) 0, Op.wr (CAP_TSTAMP_LO n) 0, Op.wr (CAP_TSTAMP_HI n) 0,
    Op.eng n fun e => { e with cap := .init }]
/-- DISARM (R112). -/
def Op.capDisarm (n : Nat) : Op :=
  Op.thn (Op.setF (CAP_STAT n) CAP_STAT_STATE 0) (Op.eng n fun e => { e with cap := { e.cap with held := none } })
/-- A write of CAP_CTL (R118): DISARM before ARM. -/
def Op.capCtl (n : Nat) (v : W) : Op :=
  Op.all [Op.when (v.getLsbD 30) (Op.capDisarm n), Op.wr (CAP_CTL n) (v &&& 0x3FFFFFFF#32), Op.when (v.getLsbD 31) (Op.capArm n)]

/-! Datapath words. -/

/-- Store samples of one ADC from a memory index on. -/
def Op.capPut (n a i : Nat) (bs : List Byte) : Op := Op.store (cells (capKey n (a * 0x100000 + i)) bs) true
/-- The code of a corrected sample: rounded half to even and saturated (R118). -/
def corrCode (v : Int) : Byte := BitVec.ofInt 8 (clampI (-128) 127 (rne v 56))
/-- Corrected codes of the samples `j` of the `m`-th datapath word (R91). -/
def State.corrWord (s : State) (n m a : Nat) (js : List Nat) : List Byte :=
  let r := (s.engS n).rxp
  js.map fun j => corrCode ((r.seg (s.segNow n 0) (256 * m + j)).corrected r a (256 * m + j))
/-- The ADCs that a capture records. -/
def State.capMask (s : State) (n : Nat) : List Nat := (List.range 4).filter fun a => (s.fld (CAP_CTL n) CAP_CTL_MASK).testBit a
/-- Write the word that came last for every selected ADC (R112, R118). The filter of a word's last five corrected samples reaches into
the next word: they are written again when it comes (log 28). A late time trigger fires in the first word (R116). The reserved codes 0b10 and
0b11 of POINT act as RAW (DESIGN CHOICE, log 69). -/
def Op.capWord (n : Nat) (w : CapWord) : Op := Op.thn
  (Op.dyn fun s => Op.when (s.bit (CAP_STAT n) CAP_STAT_LATE) (Op.capTimed n))
  (Op.dyn fun s =>
    let c := (s.engS n).cap
    let i := c.written % s.capL n
    let m := (s.engS n).rxp.wordN - 1
    let corr := s.fld (CAP_CTL n) CAP_CTL_POINT == 1
    Op.all [
      Op.each (s.capMask n) fun a => Op.capPut n a i (if corr then s.corrWord n m a (List.range 256)
        else (List.range 256).map fun j => (w.getD a []).getD j 0#8),
      Op.eng n fun e => { e with cap := { e.cap with written := e.cap.written + 256, tail := if corr then some i else none } },
      Op.setF (CAP_STAT n) CAP_STAT_WPTR ((i + 256) % s.capL n)])
/-- Complete the last word of corrected samples. -/
def Op.capTail (n : Nat) : Op := Op.dyn fun s =>
  match (s.engS n).cap.tail with
  | some i => Op.thn (Op.each (s.capMask n) fun a =>
        Op.capPut n a (i + 251) (s.corrWord n ((s.engS n).rxp.wordN - 2) a [251, 252, 253, 254, 255]))
      (Op.eng n fun e => { e with cap := { e.cap with tail := none } })
  | none => Op.skip

/-- Is a period's sum of squares above threshold (R163): 10 log10(sum / (4 · 81,920 · 128²)) ≥ THR, THR signed in 0.01 dB? -/
def aboveThr (thr : Int) (sum : Nat) : Bool :=
  let one := 4 * 81920 * 128 ^ 2
  if 0 ≤ thr then Nat.ble (one ^ 1000 * 10 ^ thr.toNat) (sum ^ 1000) else Nat.ble (one ^ 1000) (sum ^ 1000 * 10 ^ (-thr).toNat)
def State.accThr (s : State) (n : Nat) : Int := sgn 16 (s.fld (RX_ACQ_PWR n) RX_ACQ_PWR_THR)
/-- One word in the statistics of receive power. -/
def RxPath.powerWord (r : RxPath) (thr : Int) (w : CapWord) : RxPath :=
  let r' := { r with psum := r.psum + wordPower w, pcnt := r.pcnt + 1, inSt := r.inSt + 1 }
  if Nat.blt r'.pcnt 320 then r'
  else
    let up := aboveThr thr r'.psum
    { r' with psum := 0, pcnt := 0, power := r'.psum, above := if up then r'.above + 1 else 0, below := if up then 0 else r'.below + 1 }
/-- One round of an ADC in the statistics of tracking: one with a saturated code, and the three after it, are left out (R93). -/
def roundIn (st : Nat × List (List Byte)) (q : List Byte) : Nat × List (List Byte) :=
  if q.any fun b => b == 0x7F#8 || b == 0x80#8 then (3, st.2)
  else if Nat.blt 0 st.1 then (st.1 - 1, st.2)
  else (0, (q :: st.2).take 65536)
/-- One word in the statistics of tracking: four rounds of 64 for each ADC. -/
def RxPath.trackWord (r : RxPath) (w : CapWord) : RxPath :=
  let l := (List.range 4).map fun a => (List.range 4).foldl (fun st i => roundIn st (((w.getD a []).drop (64 * i)).take 64))
    (r.skip.getD a 0, r.stat.getD a [])
  { r with skip := l.map (·.1), stat := l.map (·.2) }
/-- In CD_SCAN, a trial that has had its 524,288 samples is measured (R150). -/
def Op.scanStep (n : Nat) : Op := Op.dyn fun s =>
  let r := (s.engS n).rxp
  let t := s.scanTrial n
  Op.when (s.rxState n == 3 && Nat.blt (r.trials true).length 17 && 256 * r.wordN == r.scan0 + 524288 * (r.scan.length + 1))
    (Op.rxp n fun x => { x with scan := x.scan ++ [(t.1, t.2, s.scanMetric n (r.scan0 + 524288 * r.scan.length) t.2)] })
/-- One datapath word (R81): 16,640 words are kept, which reach over two transform blocks and the compare of a spare (R98). -/
def Op.wordIn (n : Nat) (w : CapWord) : Op := Op.all [
  Op.dyn fun s => Op.rxp n fun r => ({ r with words := w :: r.words.take 16639, wordN := r.wordN + 1 }.powerWord (s.accThr n) w).trackWord w,
  Op.capTail n, Op.dyn fun s => Op.when (s.capArmed n) (Op.capWord n w), Op.scanStep n]
/-- The symbols whose samples have come (R151–R155): the frequency limit is reported as it is reached. -/
def Op.symbols (n : Nat) : Op := Op.dyn fun s =>
  let r := (s.engS n).rxp
  let r' := s.symRun n (256 * r.wordN) r
  let lim := s.freqOver n r'
  Op.when (Nat.ble 4 (s.rxState n)) (Op.thn (Op.rxp n fun _ => r') (Op.when (r'.symN != r.symN)
    (Op.thn (Op.setB (RX_FREQ n) RX_FREQ_LIMIT lim) (Op.setB (RX_STAT n) RX_STAT_FREQ_LIMIT lim))))
/-- The datapath words since the engine's last command that carried words, each one datapath clock; the converters and the monitor chain
run while the engine is in Run. -/
def Op.adcIn (n : Nat) (ws : List CapWord) : Op := Op.dyn fun s =>
  Op.when (s.inRun (domEng n) && !ws.isEmpty) (Op.all [Op.segOpen n (256 * (s.engS n).rxp.wordN), Op.each ws fun w => Op.all [Op.wordIn n w, Op.symbols n, Op.monClock n w]])

/-! What ends a capture. -/

/-- L - T samples have been written (R112). -/
def Op.capFull (n : Nat) (ws : List CapWord) : Op := Op.thn (Op.adcIn n ws) (Op.dyn fun s =>
  Op.when (s.capState n == 1 && Nat.ble (s.capL n - s.capT n) (s.engS n).cap.written) (Op.setF (CAP_STAT n) CAP_STAT_STATE 2))
/-- T samples have been written from the trigger sample on (R112–R114). -/
def Op.capEnd (n : Nat) (ws : List CapWord) : Op := Op.thn (Op.adcIn n ws) (Op.dyn fun s =>
  let c := (s.engS n).cap
  Op.when (s.capState n == 3 && Nat.ble (c.trigAt + s.capT n) c.written) (Op.all [
    Op.setF (CAP_STAT n) CAP_STAT_STATE 4,
    Op.setF (CAP_START n) CAP_START_IDX (if Nat.ble (s.capL n) c.written then c.written % s.capL n else 0),
    Op.setF (CAP_COUNT n) CAP_COUNT_CNT (Nat.min c.written (s.capL n)),
    Op.setB (CAP_STAT n) CAP_STAT_PEND c.held.isSome,
    Op.eng n fun e => { e with cap := { e.cap with held := none } }]))

/-- A TRIG_IN edge (R115, R117): every engine that has the pin and this edge enabled. -/
def Op.capPin (rising : Bool) (ws : List (Eng × List CapWord)) : Op := Op.dyn fun s =>
  Op.each ((List.range 48).filter fun n => s.bit (CAP_CTL n) CAP_CTL_SRC_PIN && s.bit (CAP_CTL n) CAP_CTL_EDGE == !rising) fun n =>
    Op.thn (Op.each (ws.filter fun e => e.1.val == n) fun e => Op.adcIn n e.2) (Op.capTrig n 1)

/-! Rows. -/

/-- CAP_CTL.ARM (R112). -/
def execCapArm (p : Party) (n : Eng) (v : W) (s : State) :=
  (Op.gate p (CAP_CTL n) true (domEng n) (Op.capCtl n (v ||| 0x80000000#32))).next s
/-- CAP_CTL.DISARM (R112). -/
def execCapDisarm (p : Party) (n : Eng) (v : W) (ws : List CapWord) (s : State) :=
  (Op.gate p (CAP_CTL n) true (domEng n) (Op.thn (Op.adcIn n ws) (Op.capCtl n (v ||| 0x40000000#32)))).next s
/-- L - T samples have been written (R112). -/
def execCapPretriggerFull (n : Eng) (ws : List CapWord) (s : State) := (Op.capFull n ws).next s
/-- A TRIG_IN edge (R115). -/
def execCapTriggerPin (rising : Bool) (ws : List (Eng × List CapWord)) (s : State) := (Op.capPin rising ws).next s
/-- Stamp time reaches CAP_TRIG_TIME, or the time was late at ARM (R115, R116). -/
def execCapTriggerTime (n : Eng) (ws : List CapWord) (s : State) :=
  (Op.thn (Op.adcIn n ws) (Op.dyn fun s => Op.when (s.capDue n) (Op.capTimed n))).next s
/-- A TRIG_OUT pulse ends (R117): the pin is the OR of the engines' pulses. -/
def execTrigOutPulseEnd (s : State) :=
  (Op.dyn fun s => Op.thn (Op.when (s.trigOut == 1) (Op.emit (.trigOut false)))
    (Op.mod fun s => { s with trigOut := s.trigOut - 1 })).next s
/-- T samples have been written from the trigger on (R113). -/
def execCapPosttriggerDone (n : Eng) (ws : List CapWord) (s : State) := (Op.capEnd n ws).next s

end Sys2Proof.Machine
end

