-- ==== Sys2Proof/Machine/Demap.lean ====
section
/-! DEFINITION. From the derotated symbols of a superframe to LLRs and overhead bits: phase recovery (R158), tentative decisions and
the Glohiord stage on receive (R159, R186), soft demapping (R160), and the soft values of the overhead field (R59). -/
namespace Sys2Proof.Machine

def RxSf.g (r : RxSf) : Gait := gaitOf r.w0 r.w1 r.w2

/-- A superframe that begins at symbol `u` after phase recovery, with polarisations resolved (R158, R166). -/
def RxSf.recover (r : RxSf) (x : RxPath) (u : Nat) : List Pol :=
  let f := fun (y : Bool) (p : Nat) =>
    let v := fun (k : Int) => x.outAt (y != r.swap) (u + k)
    rotate (-recoverAt r.g r.pr r.epoch y v p) (v p)
  (List.range 65536).map fun p => (f false p, f true p)

/-! Tentative decisions and the Glohiord stage (R159, R186). -/

/-- The recent superframe of a local count whose symbols are known. -/
def findRx (rs : List RxSf) (cnt : Nat) : Option RxSf := rs.find? fun r => r.cnt.toNat == cnt && !r.syms.isEmpty
/-- The tentative decision on a symbol of a superframe (R186). -/
def RxSf.decided (r : RxSf) (y : Bool) (p : Nat) : Cx := decide1 r.g r.epoch y p (polOf y (r.syms.getD p ((0, 0), (0, 0))))
/-- The receive stream of engine `m`: its symbol `i`, counted from local count 0; counts wrap at 2^24. -/
def State.rxStream (s : State) (m : Nat) (i : Int) : Option Pol :=
  (findRx (s.engS m).rxp.sfs (sfOf i 65536)).map fun r => (r.decided false (posOf i 65536), r.decided true (posOf i 65536))
/-- The sources of the receive stage of engine `n` for superframe `r`. -/
def State.rxSrc (s : State) (n : Nat) (r : RxSf) : GloSrc where
  own k := s.rxStream n (65536 * r.cnt.toNat + k)
  nbr j k := match r.glo.nbr.getD j none, neighbour n j with
    | some b, some m => if s.edgeLost m n true (b.1 + k) then none else s.rxStream m (b.1 + k)
    | _, _ => none
/-- A symbol after the stage, and whether a part saturated. -/
def State.rxGloOut (s : State) (n : Nat) (r : RxSf) (y : Bool) (p : Nat) : Cx × Bool :=
  r.glo.apply (s.rxSrc n r) p y (polOf y (r.syms.getD p ((0, 0), (0, 0))))
def State.rxGlo (s : State) (n : Nat) (r : RxSf) (y : Bool) (p : Nat) : Cx := (s.rxGloOut n r y p).1
/-- Does a part of the stage's output saturate in a superframe (R191)? -/
def State.rxSat (s : State) (n : Nat) (r : RxSf) : Bool :=
  !r.syms.isEmpty && (List.range 65536).any fun p => (s.rxGloOut n r false p).2 || (s.rxGloOut n r true p).2

/-! Soft demapping (R160). -/

/-- The noise variance of a polarisation over the pilots of a superframe, as a sum over its 2,040 pilots. -/
def State.rxNoise (s : State) (n : Nat) (r : RxSf) (y : Bool) : Nat :=
  (List.range 2040).foldl (fun a j =>
    let v := s.rxGlo n r y (pilotPos j)
    let k := cTimes 4096 (pilotSym y j)
    a + cNorm (v.1 - k.1, v.2 - k.2)) 0
/-- ln of the likelihood of a level of amplitude index `a` for a part `v`, in 2^-64: the prior's logarithm and the squared distance
over the variance `var / 2040`; none for an index that does not occur. -/
def levelLn (g : Gait) (var : Nat) (tail : Bool) (v : Int) (sg : Bool) (a : Nat) : Option Int :=
  let cnt := [g.n1, g.n3, g.n5, 128 - g.n1 - g.n3 - g.n5].getD a 0
  if tail then (if a == 0 then some (-((v - level sg a * g.scale) ^ 2 * 2 ^ 64 * 2040 / (Nat.max var 1 : Nat))) else none)
  else if cnt == 0 then none
  else some (lnQ cnt - (v - level sg a * g.scale) ^ 2 * 2 ^ 64 * 2040 / (Nat.max var 1 : Nat))
/-- The larger of two logarithms. -/
def maxLn : Option Int → Option Int → Option Int
  | some a, some b => some (max a b)
  | some a, none => some a
  | none, b => b
/-- Bit `i` of the label of a part: the sign, then the amplitude label, most significant first (R47). -/
def partBit (c : Nat) (sg : Bool) (a i : Nat) : Bool :=
  if i == 0 then sg else (gray a).testBit (c - i)
/-- The max-log LLR of bit `i` of a part, scaled, rounded and limited (R160). -/
def partLlr (g : Gait) (scale var : Nat) (tail : Bool) (v : Int) (i : Nat) : Int :=
  let best := fun (b : Bool) => (List.range (2 * ampLevels g.cnst)).foldl (fun m x =>
    if partBit g.cnst (x % 2 == 1) (x / 2) i == b then maxLn m (levelLn g var tail v (x % 2 == 1) (x / 2)) else m) none
  match best false, best true with
  | some a, some b => clampI (-31) 31 (rneDiv ((a - b) * scale) (16 * 2 ^ 64))
  | some _, none => 31
  | none, some _ => -31
  | none, none => 0
/-- The LLRs of a payload symbol, c0 to c(m - 1) (R47, R160). -/
def symLlr (g : Gait) (scale var : Nat) (tail : Bool) (v : Cx) : List Int :=
  [partLlr g scale var tail v.1 0, partLlr g scale var tail v.2 0]
    ++ (List.range g.cnst).map (fun i => partLlr g scale var tail v.1 (i + 1))
    ++ (List.range g.cnst).map (fun i => partLlr g scale var tail v.2 (i + 1))
/-- The LLRs of a superframe in the order of the stream; `prev` is the superframe before it, whose pilots show the noise, or the
superframe itself when none came before (log 28). -/
def State.sfLlr (s : State) (n : Nat) (r prev : RxSf) : List Int :=
  let var := fun y => s.rxNoise n prev y
  (List.range 125456).flatMap fun z =>
    symLlr r.g r.scale (var (z % 2 == 1)) (Nat.ble 62720 (z / 2)) (s.rxGlo n r (z % 2 == 1) (payPos (z / 2)))

/-! The overhead field (R59). -/

/-- Slice bit `j` of a superframe: the eight descrambled soft values are added. -/
def State.sliceBit (s : State) (n : Nat) (r : RxSf) (j : Nat) : Bool :=
  let raw := fun (x : Nat) =>
    let v := s.rxGlo n r (Nat.ble 1024 x) (ohPos (x % 1024 / 2))
    let u := if x % 2 == 0 then v.1 else v.2
    if pilotBit (8160 + x) then -u else u
  decide ((List.range 8).foldl (fun a k => a + raw (j + 256 * k)) 0 < 0)
/-- The 32 bytes of the slice that a superframe carries (R58). -/
def State.sliceBytes (s : State) (n : Nat) (r : RxSf) : List Byte :=
  (List.range 32).map fun b => BitVec.ofNat 8 (bitsVal ((List.range 8).map fun i => s.sliceBit n r (8 * b + i)))

/-! The records of a receiver in LOCKED. -/

/-- Superframes after which the LLRs of one are formed: the decisions of the superframes about it are then all known (log 27). -/
def rxDelay : Nat := 2
/-- The newest superframe begins at symbol `t`; the one before it, now whole, passes phase recovery. While overhead lock is held the far
end's number of it is known, and its LLRs will go to the decoder (R171, R213, R222). -/
def Op.sfFill (n t : Nat) : Op := Op.dyn fun s =>
  let ok := s.bit (RX_STAT n) RX_STAT_OH_LOCK && s.ofsValid n
  Op.rxp n fun r =>
    match r.sfs with
    | a :: b :: l =>
      let b' := match b.t0 with
        | some u => if b.syms.isEmpty && b.lk == r.lk then
            { b with syms := b.recover r u, sn := if ok then some (b.cnt + s.ofs n).toNat else none }
          else b
        | none => b
      { r with sfs := { a with t0 := some t } :: b' :: l }
    | [a] => { r with sfs := [{ a with t0 := some t }] }
    | [] => r
/-- A superframe whose Glohiord stage saturated sets SAT and counts once (R191). -/
def Op.rxSatMark (n : Nat) (r : RxSf) : Op := Op.dyn fun s =>
  Op.when (!r.sat && s.rxSat n r) (Op.all [Op.flag (GLO_STAT n) GLO_STAT_SAT, Op.count (GLO_SAT_CNT n) 1,
    Op.rxp n fun x => { x with sfs := x.sfs.map fun q => if q.cnt == r.cnt then { q with sat := true } else q }])
/-- Form the LLRs of a superframe (R160, R222); `prev` is the one before it. -/
def Op.sfLlrs (n : Nat) (r : RxSf) (prev : Option RxSf) : Op := Op.dyn fun s =>
  let ok := r.sn.isSome && !r.syms.isEmpty
  let q0 := match prev with | some q => if q.syms.isEmpty || q.lk != r.lk then r else q | none => r
  let llr := if ok then s.sfLlr n r q0 else []
  Op.thn (Op.rxSatMark n r)
    (Op.rxp n fun x => { x with sfs := x.sfs.map fun q => if q.cnt == r.cnt then { q with fed := some ok, llr := llr } else q })
/-- The LLRs of the superframe that is old enough. -/
def Op.sfSoft (n : Nat) : Op := Op.dyn fun s =>
  match (s.engS n).rxp.sfs.drop (rxDelay + 1) with
  | r :: l => Op.when r.fed.isNone (Op.sfLlrs n r l.head?)
  | [] => Op.skip
/-- Out of LOCKED, the LLRs of the oldest superframe that waits for them: what was sent under lock is still decoded (R171, R222). -/
def Op.sfDrain (n : Nat) : Op := Op.dyn fun s =>
  let l := (s.engS n).rxp.sfs
  match l.reverse.find? fun r => r.fed.isNone with
  | some r => Op.sfLlrs n r (l.find? fun q => q.cnt + 1 == r.cnt)
  | none => Op.skip

end Sys2Proof.Machine
end

