-- ==== Sys2Proof/Machine/Decoder.lean ====
section
/-! DEFINITION. The decoder of a unit: layered normalised min-sum over the LDPC code (R206–R211, R220), the BCH decoder (R212,
R220, R221), pre-FEC errors (R231), and the codewords of a receiver (R213–R216, R224). -/
namespace Sys2Proof.Machine

/-- What a unit reports of a codeword (R220, R221, R231): nonzero syndrome, bits corrected by BCH, uncorrectable, and pre-FEC errors;
then its information positions in the order of R216. -/
structure CwResult where
  synd  : Bool
  bch   : Nat
  uncor : Bool
  pre   : Nat
  bits  : List Bool
  deriving DecidableEq, Repr

/-! LDPC (R207–R211, R220). -/

/-- The variables of check `i` of block row `b`: information entries, then the parity entries of the staircase. -/
def checkVars (b i : Nat) : List Nat :=
  ((List.range 79).filter (ldpcInfo b)).map (fun c => 384 * c + (i + ldpcShift b c) % 384)
    ++ (if b == 0 then [] else [30336 + 384 * (b - 1) + i]) ++ [30336 + 384 * b + i]
/-- The messages of a check from its variables' values: 0.75 times the least magnitude of the others, with the product of their signs.
The values are multiples of a power of 4 large enough that no message is rounded. -/
def checkMsgs (q : List Int) : List Int :=
  (List.range q.length).map fun i =>
    let o := q.eraseIdx i
    let m : Nat := match o with | [] => 0 | x :: l => l.foldl (fun (a : Nat) (v : Int) => Nat.min a v.natAbs) x.natAbs
    let neg := o.foldl (fun a v => a != decide (v < 0)) false
    3 * (if neg then -(m : Int) else m) / 4
/-- One check of a layer: the posteriors and the check's messages before, and after. -/
def checkStep (b : Nat) (st : List Int × List (List Int)) (i : Nat) : List Int × List (List Int) :=
  let vs := checkVars b i
  let old := st.2.getD (384 * b + i) []
  let q := (List.range vs.length).map fun k => st.1.getD (vs.getD k 0) 0 - old.getD k 0
  let new := checkMsgs q
  ((List.range vs.length).foldl (fun p k => p.set (vs.getD k 0) (q.getD k 0 + new.getD k 0)) st.1, st.2.set (384 * b + i) new)
/-- The posteriors after 12 iterations over block rows 0 to `j` - 1 (R220): 12 `j` layers, so 4^252 suffices as the scale. -/
def minSum (j : Nat) (chan : List Int) : List Int :=
  ((List.range 12).foldl (fun st _ => (List.range j).foldl (fun st b => (List.range 384).foldl (checkStep b) st) st)
    (chan.map fun x => x * 4 ^ 252, List.replicate (384 * j) [])).1
/-- Is the syndrome of rows 0 to `j` - 1 not zero? -/
def ldpcFails (j : Nat) (v : List Bool) : Bool :=
  (List.range j).any fun b => (List.range 384).any fun i => (checkVars b i).foldl (fun a k => a != v.getD k false) false

/-! BCH (R212, R220, R221). -/

/-- The inverse in GF(2^15), as the power 2^15 - 2. -/
def gfInv (a : Nat) : Nat := ((List.range 14).foldl (fun st _ => (gfMul st.1 (gfMul st.2 st.2), gfMul st.2 st.2)) (1, a)).1
/-- The syndrome at α^i of a word, first bit of the highest power. -/
def bchSynd (i : Nat) (u : List Bool) : Nat :=
  let r := gfPow i
  u.foldl (fun a b => gfMul a r ^^^ (if b then 1 else 0)) 0
/-- The error locator from the syndromes at α, α^3 and α^5, lowest coefficient first; none beyond 3 errors. -/
def bchLocator (s1 s3 s5 : Nat) : Option (List Nat) :=
  let c1 := gfMul (gfMul s1 s1) s1
  let d := c1 ^^^ s3
  if s1 == 0 && s3 == 0 && s5 == 0 then some [1]
  else if d == 0 then (if s1 != 0 && s5 == gfMul c1 (gfMul s1 s1) then some [1, s1] else none)
  else
    let x2 := gfMul (gfMul (gfMul s1 s1) s3 ^^^ s5) (gfInv d)
    let x3 := d ^^^ gfMul s1 x2
    if x3 == 0 then some [1, s1, x2] else some [1, s1, x2, x3]
/-- The powers e below 30,045 at whose α^e the locator shows an error. -/
def bchRoots (loc : List Nat) : List Nat :=
  (List.range 30045).filter fun e =>
    let x := gfPow ((32767 - e) % 32767)
    loc.foldr (fun c a => gfMul a x ^^^ c) 0 == 0
/-- The decoded word and the number of bits corrected; none when it is uncorrectable (R221). -/
def bchDecode (u : List Bool) : Option (List Bool × Nat) :=
  match bchLocator (bchSynd 1 u) (bchSynd 3 u) (bchSynd 5 u) with
  | none => none
  | some loc =>
    let es := bchRoots loc
    if es.length + 1 == loc.length then some (es.foldl (fun w e => w.set (30044 - e) (!(w.getD (30044 - e) false))) u, es.length) else none

/-! A codeword (R215, R216, R220, R231). -/

/-- The LLRs of a codeword on the line: those of its parity slots in order, and those of its information positions in order. -/
structure CwLlr where
  par  : List Int
  info : List Int
  deriving DecidableEq, Repr
/-- A codeword symbol's part of them: `k` of its first two LLRs are parity slots, c0 first (R215, R216). -/
def splitLlr (k : Nat) (l : List Int) : CwLlr := ⟨l.take k, l.drop k⟩
/-- The decoder's input (R220): information bits interleaved, BCH parity, shortened positions +31, LDPC parity with 0 for the punctured. -/
def chanLlr (o : Nat) (c : CwLlr) : List Int :=
  let pt := cwSlots o
  (List.range 30000).map (fun i => c.info.getD (interleave i) 0) ++ (List.range 45).map (fun e => c.par.getD (pt - 45 + e) 0)
    ++ List.replicate 291 31 ++ List.replicate (ohPunct o) 0 ++ c.par.take (pt - 45)
    ++ List.replicate (8064 - ohPunct o - (pt - 45)) 0
/-- Decode a codeword of overhead `o` (R220, R221, R231). -/
def decodeCw (o : Nat) (c : CwLlr) : CwResult :=
  let chan := chanLlr o c
  let hard := (minSum (ohRows o) chan).map fun x => decide (x < 0)
  let u := hard.take 30045
  let dec := bchDecode u
  let fin := match dec with | some (w, _) => w ++ hard.drop 30045 | none => hard
  let inLine := fun i => Nat.blt i 30045 || (Nat.ble (30336 + ohPunct o) i && Nat.blt i (30336 + ohPunct o + (cwSlots o - 45)))
  { synd := ldpcFails (ohRows o) hard
    bch := match dec with | some (_, k) => k | none => 0
    uncor := dec.isNone
    -- a sent position counts when its LLR is 0 or its sign is not that of the decided bit
    pre := ((List.range 38400).filter fun i => inLine i &&
      (let x := chan.getD i 0; x == 0 || decide (x < 0) != fin.getD i false)).length
    -- bit u[i] stands at position ι(i); 7,679 is the inverse of 7,919 modulo 30,000 (R216)
    bits := (List.range 30000).map fun q => fin.getD (7679 * q % 30000) false }

/-! The codewords of a receiver (R213, R214, R224). -/

/-- The recent superframe of a far-end number that the decoder was given. -/
def findFed (rs : List RxSf) (sn : Nat) : Option RxSf := rs.find? fun r => r.sn == some sn && r.fed == some true
/-- The superframes that a codeword of length `l` lies in. -/
def cwSns (l w : Nat) : List Nat := (List.range ((w * l + l - 1) / 125456 + 1 - w * l / 125456)).map (· + w * l / 125456)
/-- Does the decoder have a codeword whole, within one run (R214)? Then the superframe of its first symbol. -/
def cwWhole (rs : List RxSf) (l w : Nat) : Option RxSf :=
  match findFed rs (w * l / 125456) with
  | none => none
  | some r =>
    if r.g.cwLen == l && Nat.ble ((w + 1) * l) (125456 * 2 ^ 24)
      && (cwSns l w).all fun sn => match findFed rs sn with | some q => q.r0 == r.r0 | none => false
    then some r else none
/-- The LLRs of a codeword. -/
def cwGather (rs : List RxSf) (g : Gait) (w : Nat) : CwLlr :=
  let l := g.cwLen
  let m := constBits g.cnst
  let parts := (List.range l).map fun j =>
    let z := w * l + j
    match findFed rs (z / 125456) with
    | some r => splitLlr (paritySlots (cwSlots g.oh) l j) ((r.llr.drop (z % 125456 * m)).take m)
    | none => ⟨[], []⟩
  ⟨parts.flatMap (·.par), parts.flatMap (·.info)⟩

end Sys2Proof.Machine
end

