-- ==== Sys2Proof/Machine/Deframe.lean ====
section
/-! DEFINITION. Client blocks and their bits (R128, R239, R250), the dealing of positions (R245, R248), and the deframer (R50, R161, R171,
R216–R218, R221, R249, R250): from the codewords of a superframe to the runs of its contexts. -/
namespace Sys2Proof

/-! Blocks (R239, R250, R252, R282). -/

/-- The block type of a control block. -/
def Blk.ty (b : Blk) : Nat := b.pay.toNat % 256
def Blk.ctl (b : Blk) : Bool := b.hdr == 2#2
def Blk.idle : Blk := ⟨2#2, 0x1E#64⟩
/-- The error block: sync 0b10, type 0x1E, eight error characters 0x1E (R250). -/
def Blk.err : Blk := ⟨2#2, 0x3C78F1E3C78F1E1E#64⟩
/-- The local fault sequence ordered set of IEEE 802.3 (PRESUMED, log 15). -/
def Blk.lf : Blk := ⟨2#2, 0x0100004B#64⟩
/-- The blocks that ingress discards (R239). -/
def Blk.drop (b : Blk) : Bool :=
  b == Blk.idle || (b.ctl && b.ty == 0x4B && (b.pay.toNat / 2 ^ 32 % 16 == 5 || b.pay.toNat / 2 ^ 32 % 16 == 6))
/-- Start and terminate blocks by the block types of IEEE 802.3 (PRESUMED, log 15): the terminate block of `k` bytes. -/
def Blk.start (b : Blk) : Bool := b.ctl && b.ty == 0x78
def Blk.term (b : Blk) : Option Nat :=
  if b.ctl then [0x87, 0x99, 0xAA, 0xB4, 0xCC, 0xD2, 0xE1, 0xFF].findIdx? (· == b.ty) else none
/-- Bytes of a block that belong to the frame. -/
def Blk.bytes (b : Blk) : List Byte :=
  if b.ctl then (match b.term with | some k => (Machine.leBytes 8 b.pay.toNat).extract 1 (1 + k) | none => [])
  else Machine.leBytes 8 b.pay.toNat
/-- The 66 bits of a block, first bit first: header bit 0, header bit 1, then payload bits 0 to 63 (the order of R273; DEDUCED for the
line, log 32). -/
def Blk.bits (b : Blk) : List Bool := b.hdr.getLsbD 0 :: b.hdr.getLsbD 1 :: (List.range 64).map fun i => b.pay.getLsbD i
/-- The block of 66 bits. -/
def Blk.ofBits (l : List Bool) : Blk :=
  let v := fun (a k : Nat) => (List.range k).foldl (fun x i => if l.getD (a + i) false then x + 2 ^ i else x) 0
  ⟨BitVec.ofNat 2 (v 0 2), BitVec.ofNat 64 (v 2 64)⟩

end Sys2Proof
namespace Sys2Proof.Machine

/-! Positions (R245, R246, R248). -/

/-- Positions of a class of `k` entries in superframe `sn` (R245). -/
def posCount (sn k rate : Nat) : Nat :=
  let dq := 66 * (262144 + 176 * rate)
  (sn + 1) * k * 1342177280 / dq - sn * k * 1342177280 / dq
/-- `t` positions dealt to entries in index order, cycling, from share index `p` on: the entries, and the next index. -/
def dealOut (es : List CalEnt) (p t : Nat) : List CalEnt × Nat :=
  let rot := es.filter (fun e => Nat.ble p e.idx) ++ es.filter (fun e => Nat.blt e.idx p)
  match rot with
  | [] => ([], p)
  | e :: _ => ((List.range t).map fun i => rot.getD (i % rot.length) e, (rot.getD (t % rot.length) e).idx)
/-- The sequence block of R248. -/
def seqBlk (q : BitVec 24) : Blk := ⟨2#2, BitVec.ofNat 64 (0x4B + q.toNat * 256 + 6 * 2 ^ 32)⟩
/-- Is a block a sequence block? Then its SEQ. -/
def seqOf (b : Blk) : BitVec 24 := BitVec.ofNat 24 (b.pay.toNat / 256)
/-- Positions given to a class of `k` entries from superframe `r0` up to `sn` (R245). -/
def dealtSince (r0 sn k rate : Nat) : Nat :=
  let dq := 66 * (262144 + 176 * rate)
  sn * k * 1342177280 / dq - r0 * k * 1342177280 / dq
/-- The entry at which a dealing stands that began at the lowest entry of superframe `r0` and has given `t` positions. -/
def dealtTo (es : List CalEnt) (t : Nat) : Nat := match es with | [] => 0 | e :: _ => (es.getD (t % es.length) e).idx

/-! The deframer. -/

/-- The far number of the first superframe of the run, or 0 where the run began before lock. -/
def RxSf.r0n (r : RxSf) : Nat :=
  match r.r0, r.sn with
  | some c, some n => let k := (r.cnt - c).toNat; if Nat.ble k n then n - k else 0
  | _, _ => 0
/-- The superframes and codewords of one lock. -/
def RxPath.of (x : RxPath) (lk : Nat) : RxPath :=
  { x with sfs := x.sfs.filter fun q => q.lk == lk, cws := x.cws.filter fun d => d.lk == lk }
/-- The recent superframe that follows. -/
def RxSf.next (r : RxSf) (rs : List RxSf) : Option RxSf := rs.find? fun q => q.cnt == r.cnt + 1
/-- The number of the first and the last codeword with a symbol in the superframe's payload. -/
def RxSf.cwFirst (r : RxSf) : Nat := 125456 * r.sn.getD 0 / r.g.cwLen
def RxSf.cwLast (r : RxSf) : Nat := (125456 * r.sn.getD 0 + 125455) / r.g.cwLen
/-- A decoded codeword. -/
def findCw (ds : List Decoded) (l w : Nat) : Option Decoded := ds.find? fun d => d.w == w && d.sn == w * l / 125456
/-- May the superframe be deframed: have the LLRs of the next one been formed, unless its lock is `past` and it was the last, and has every
codeword of it that the decoder has whole been decoded? -/
def RxSf.ready (r : RxSf) (past : Bool) (rs : List RxSf) (ds : List Decoded) : Bool :=
  !r.done && r.fed.isSome && (r.fed == some false || ((match r.next rs with | some q => q.fed.isSome | none => past)
    && (List.range (r.cwLast + 1 - r.cwFirst)).all fun i =>
      (cwWhole rs r.g.cwLen (r.cwFirst + i)).isNone || r.dec.isEmpty || (findCw ds r.g.cwLen (r.cwFirst + i)).isSome))
/-- What the deframer knows of a superframe: the interval of sent positions, and its codewords. -/
structure Fram where
  g  : Gait
  sn : Nat
  a  : Nat
  b  : Nat
  ds : List Decoded
/-- The frame of a superframe: its run ends with it when the next superframe is of another run (R214). -/
def RxSf.fram (r : RxSf) (rs : List RxSf) (ds : List Decoded) : Fram :=
  let sn := r.sn.getD 0
  let last := sn == 2 ^ 24 - 1 || (match r.next rs with | some q => q.r0 != r.r0 | none => false)
  ⟨r.g, sn, sentFrom r.g.cwLen r.r0n sn, sentTo r.g.cwLen r.r0n sn last, ds⟩
/-- Information bits `k` from bit `i` on of the codeword symbol at stream position `z` (R216), and whether they are errored (R221): a
codeword that no unit decoded is. Its label bits count as 0, also in the ranking of its DM blocks, whose wrong compositions are counted
as DM errors (DESIGN CHOICE, log 32: R50 speaks of decided sequences only). -/
def Fram.cwBits (f : Fram) (z i k : Nat) : List Bool × Bool :=
  let zz := 125456 * f.sn + z
  let l := f.g.cwLen
  let j := zz % l
  match findCw f.ds l (zz / l) with
  | some d => ((d.bits.drop (constBits f.g.cnst * j - j * cwSlots f.g.oh / l + i)).take k, d.bad)
  | none => (List.replicate k false, true)
/-- Parity slots of the codeword symbol at stream position `z`. -/
def Fram.slots (f : Fram) (z : Nat) : Nat := paritySlots (cwSlots f.g.oh) f.g.cwLen ((125456 * f.sn + z) % f.g.cwLen)
/-- The decided amplitude indices of a symbol, I and Q (R47), and their mark. -/
def Fram.amps (f : Fram) (z : Nat) : List Nat × Bool :=
  let m := constBits f.g.cnst
  let c := f.cwBits z (2 - f.slots z) (m - 2)
  let h := (m - 2) / 2
  ([ungray (bitsVal (c.1.take h)), ungray (bitsVal (c.1.drop h))], c.2)
/-- The k bits of a DM block, its mark, and whether it is a DM error (R50, R161, R221): the rank of its amplitudes. -/
def Fram.dmBlock (f : Fram) (i : Nat) : List (Bool × Bool) × Bool :=
  let ss := (List.range 64).map fun t => f.amps (128 * (i / 2) + i % 2 + 2 * t)
  let bad := ss.any (·.2)
  let v := match dmRank (ss.flatMap (·.1)) [f.g.n1, f.g.n3, f.g.n5, 128 - f.g.n1 - f.g.n3 - f.g.n5] with
    | some v => if Nat.blt v (2 ^ f.g.k) then some v else none
    | none => none
  ((List.range f.g.k).map fun x => ((v.getD 0).testBit (f.g.k - 1 - x), bad || v.isNone), v.isNone)
/-- The DM blocks that hold no idle symbol. -/
def Fram.dms (f : Fram) : List (List (Bool × Bool) × Bool) := ((List.range 1960).filter (dmFull f.a f.b)).map f.dmBlock
/-- The data bits of the superframe with their marks, in the order of R218. -/
def Fram.data (f : Fram) : List (Bool × Bool) :=
  (f.dms.flatMap (·.1)) ++ (List.range (f.b - f.a)).flatMap fun t =>
    let c := f.cwBits (f.a + t) 0 (2 - f.slots (f.a + t))
    c.1.map fun b => (b, c.2)
/-- DM errors of the superframe (R161). -/
def Fram.dmErrs (f : Fram) : Nat := (f.dms.filter (·.2)).length

/-- Blocks as the client mapper gets them: the entry of the position, the block, and its mark (R128, R221, R250); `all` marks every one
(R72). -/
def cutBlocks (all : Bool) (es : List CalEnt) (data : List (Bool × Bool)) : List (CalEnt × Blk × Bool) :=
  (List.range es.length).filterMap fun i => (es[i]?).map fun e =>
    let x := (data.drop (66 * i)).take 66
    (e, Blk.ofBits (x.map (·.1)), all || x.any (·.2))
/-- The run of a context in a superframe (R248, R249). In an elastic run the first block is the sequence block, and idle blocks come last:
what follows one is dropped. Marked blocks with no client block after them may have been idle: they are kept, and counted in `slack`
(DESIGN CHOICE, log 32). -/
def runOf (com : Bool) (c : Nat) (l : List (Blk × Bool)) : Deframed :=
  if com then ⟨true, c, 0, false, l.filter fun b => b.2 || !b.1.drop, 0⟩
  else match l with
    | [] => ⟨false, c, 0, true, [], 0⟩
    | h :: t =>
      let bs := t.takeWhile fun b => b.2 || b.1 != Blk.idle
      ⟨false, c, seqOf h.1, h.2, bs, (bs.reverse.takeWhile (·.2)).length⟩
/-- The runs of a superframe's contexts, committed ones first. -/
def runsOf (bs : List (CalEnt × Blk × Bool)) : List Deframed :=
  let of_ := fun (com : Bool) => let l := bs.filter fun b => b.1.com == com
    (uniq (l.map fun b => b.1.ctx)).map fun c => runOf com c ((l.filter fun b => b.1.ctx == c).map (·.2))
  of_ true ++ of_ false
/-- The dealing positions at a superframe: those that the superframe before it left, or, where that was not deframed, those of a run with
the present entries (DEDUCED, log 32). -/
def RxSf.dealAt (r : RxSf) (x : RxPath) (com ela : List CalEnt) : Deal :=
  match x.sfs.find? fun q => q.cnt + 1 == r.cnt && q.lk == r.lk with
  | some q =>
    if r.r0 == some r.cnt then ⟨0, 0⟩
    else if q.done && q.fed == some true then x.deal
    else ⟨dealtTo com (dealtSince r.r0n (r.sn.getD 0) com.length r.g.rate), dealtTo ela (dealtSince r.r0n (r.sn.getD 0) ela.length r.g.rate)⟩
  | none => ⟨dealtTo com (dealtSince r.r0n (r.sn.getD 0) com.length r.g.rate), dealtTo ela (dealtSince r.r0n (r.sn.getD 0) ela.length r.g.rate)⟩
/-- Deframe a superframe (R161, R171): nothing is delivered of one whose LLRs the decoder was not given, or once its lock has ended. -/
def Op.deframe (n : Nat) (r : RxSf) : Op := Op.dyn fun s =>
  let x := (s.engS n).rxp.of r.lk
  let live := s.rxLocked n && r.lk == (s.engS n).rxp.lk
  let f := r.fram x.sfs x.cws
  let es := r.cal.map fun e => CalEnt.mk n e.1 e.2.1 e.2.2
  let com := es.filter (·.com)
  let ela := es.filter fun e => !e.com
  let data := f.data
  let tc := posCount f.sn com.length f.g.rate
  let te := Nat.min (posCount f.sn ela.length f.g.rate) ((data.length - 66 * tc) / 66)
  let d := r.dealAt x com ela
  let dc := dealOut com d.com tc
  let de := dealOut ela d.ela te
  let ws := (List.range (r.cwLast + 1 - r.cwFirst)).map (· + r.cwFirst)
  let done := fun (l : List RxSf) => l.map fun q => if q.cnt == r.cnt then { q with done := true } else q
  if r.fed == some true then Op.all [
    Op.rxp n fun y => { y with
      sfs := done y.sfs
      deal := ⟨dc.2, de.2⟩
      runs := if live then y.runs ++ runsOf (cutBlocks r.bad (dc.1 ++ de.1) data) else y.runs
      clean := live && ws.all fun w => match findCw x.cws r.g.cwLen w with | some c => !c.bad | none => (cwWhole x.sfs r.g.cwLen w).isNone },
    Op.when (f.dmErrs != 0) (Op.thn (Op.count (RX_DM_ERR_CNT n) f.dmErrs) (Op.countEv 1 n 5 f.dmErrs))]
  else Op.rxp n fun x => { x with sfs := done x.sfs, clean := false }
/-- Deframe the superframes that are ready, oldest first: at most `k`. -/
def Op.deframeAll (n : Nat) : Nat → Op
  | 0 => Op.skip
  | k + 1 => Op.dyn fun s =>
    let x := (s.engS n).rxp
    match x.sfs.reverse.find? fun r => !r.done with
    | some r => Op.when (r.ready (!s.rxLocked n || r.lk != x.lk) (x.of r.lk).sfs (x.of r.lk).cws) (Op.thn (Op.deframe n r) (Op.deframeAll n k))
    | none => Op.skip

end Sys2Proof.Machine
end

