-- ==== Sys2Proof/Machine/Acquire.lean ====
section
/-! DEFINITION. What the samples decide in the receiver's states: power (R163), the end of the dispersion scan (R150), the hunt (R164,
R166, R169), expected positions (R165–R168, R170, R173), tracking updates (R92–R94), snapshots of the taps (R154) and laser feedback
(R156). -/
namespace Sys2Proof.Machine

/-! Power (R163). -/

/-- DWELL in 2^-14 sample of the engine. -/
def State.dwell (s : State) (n : Nat) : Nat := s.fld (RX_ACQ_PWR n) RX_ACQ_PWR_DWELL * 5000 * s.engSr n
/-- Has a power condition that held in the last `k` periods held for DWELL: in every period that ended within it, and at least in the last
one, with the state or group entered at least as long ago? -/
def State.heldDwell (s : State) (n k : Nat) : Bool :=
  let r := (s.engS n).rxp
  let d := s.dwell n
  let since := r.pcnt * 256 * 16384
  let ended := if Nat.blt d since then 0 else (d - since) / (81920 * 16384) + 1
  Nat.ble (Nat.max 1 ended) k && Nat.ble d (r.inSt * 256 * 16384)
/-- Above threshold for DWELL in POWER: the scan starts (R166). -/
def Op.rxPowerUp (n : Nat) : Op := Op.dyn fun s =>
  Op.when (s.rxState n == 2 && s.heldDwell n (s.engS n).rxp.above) (Op.rxTo n 3)
/-- Below threshold for DWELL in CD_SCAN to CANDIDATE: back to POWER with the taps reset, even while FREEZE is 1 (R166; DESIGN CHOICE,
log 69). -/
def Op.rxPowerLow (n : Nat) : Op := Op.dyn fun s =>
  Op.when (Nat.ble 3 (s.rxState n) && Nat.ble (s.rxState n) 6 && s.heldDwell n (s.engS n).rxp.below)
    (Op.thn (Op.rxTo n 2) (Op.tapsReset n))

/-! The hunt (R164, R166). -/

/-- The dwell of CONVERGE in µs, as the registers hold it now (R166, R182). -/
def State.convDwell (s : State) (n : Nat) : Nat :=
  if (s.engS n).acq.rconv then s.fld (RX_ACQ_SYNC n) RX_ACQ_SYNC_RCONV else s.fld (RX_ACQ_TIME n) RX_ACQ_TIME_CONV
/-- The dwell of CONVERGE ends (R166): the hunt begins, with its limit (R169). -/
def Op.converged (n : Nat) : Op := Op.dyn fun s =>
  let q := (s.engS n).acq
  Op.when (s.rxState n == 4 && s.elapsed n q.conv0 (s.convDwell n)) (Op.thn
    (Op.eng n fun e => { e with acq := { e.acq with limit := s.fld (RX_ACQ_TIME n) RX_ACQ_TIME_HUNT_TO, hunt0 := e.rxp.wordN } })
    (Op.rxTo n 5))

/-- The first position found since the hunt began, or since it was searched last. -/
def Op.hunt (n : Nat) : Op := Op.dyn fun s =>
  let r := (s.engS n).rxp
  let t := r.firstHeld r.seen
  Op.when (s.rxState n == 5) (match r.firstHit (s.acqE n) t (r.symN - t) with
    | some (p, o) => Op.thn (Op.eng n fun e => { e with acq := { e.acq with pos := p, out1 := o, count := 1, peak := none, last := p } }) (Op.rxTo n 6)
    | none => Op.rxp n fun r => { r with seen := Nat.max r.seen (r.symN - 255) })

/-! Expected positions (R165–R168, R170, R173). -/

/-- The epoch of the Y form with fewer errors; `d` on a tie. -/
def epochOf (y0 y1 : Nat) (d : Bool) : Bool := if Nat.blt y0 y1 then false else if Nat.blt y1 y0 then true else d
/-- The fault of R73. -/
def Op.epochFault (n : Nat) : Op := Op.dyn fun s =>
  Op.thn (Op.flag (GAIT_STAT n) GAIT_STAT_EPOCH_MISMATCH) (Op.raise (srcEng n 13) 0x0C 3 (s.sfRx n).toNat)
/-- The next boundary is predicted one superframe after the sync word at position `t` (R142). -/
def Op.predict (n t : Nat) : Op := Op.rxp n fun r => { r with bnd := ((r.centre t + 81920 : Nat) + r.tim / 32768).toNat }
/-- Entry to LOCKED (R73, R166): the superframes of the carrier are followed from the next boundary on. -/
def Op.lock (n : Nat) (o : SyncObs) : Op := Op.dyn fun s =>
  let was := s.bit (GAIT_STAT n) GAIT_STAT_EPOCH_RX
  let ep := epochOf o.y0 o.y1 was
  Op.all [Op.rxTo n 7, Op.setB (RX_STAT n) RX_STAT_POL_SWAP (s.engS n).acq.out1, Op.setF (RX_STAT n) RX_STAT_ROT o.rot,
    Op.when (ep != was) (Op.epochFault n), Op.setB (GAIT_STAT n) GAIT_STAT_EPOCH_RX ep,
    Op.eng n (fun e => { e with
      acq := { e.acq with miss := 0, pref := some e.rxp.power, repl := false, epo := some ep, snrs := [] }
      rxp := { e.rxp with lk := e.rxp.lk + 1, clean := false }
      uncSf := 0 })]
/-- The expected position `t` in CANDIDATE (R166). -/
def Op.candidate (n t : Nat) (o : SyncObs) : Op := Op.dyn fun s =>
  if Nat.ble o.errs (s.acqE n) then
    Op.all [Op.eng n fun e => { e with acq := { e.acq with pos := t, count := e.acq.count + 1 } },
      Op.when (Nat.ble 3 (s.engS n).acq.count) (Op.thn (Op.lock n o) (Op.predict n t))]
  else match o.peak with
    | some (p, out, _) => Op.eng n fun e => { e with acq := { e.acq with pos := p, out1 := out, count := 1 } }
    | none => Op.thn (Op.rxTo n 5) (Op.rxp n fun r => { r with seen := t + 1 })
/-- Does a miss fall under the replacement condition (R168)? Powers are sums of squares over a period of 81,920 samples: P and Pref are
those of the last period that had ended, which is not aligned to superframes (DESIGN CHOICE, log 69). -/
def State.replaceCond (s : State) (n : Nat) : Bool :=
  match (s.engS n).acq.pref with
  | some p => Nat.blt (p ^ 100 * 10 ^ s.fld (RX_ACQ_SYNC n) RX_ACQ_SYNC_STEP) ((s.engS n).rxp.power ^ 100)
  | none => false
/-- The superframe that begins at `t` is placed, and those before it move on through scaling, phase recovery, demapper and deframer; `snr`
is that of its sync word (R63, R151). -/
def Op.placed (n t : Nat) (snr : Option (BitVec 16)) : Op :=
  Op.all [Op.rxp n fun r => { r with gain := r.regain (t - 65536) },
    Op.eng n fun e => { e with acq := { e.acq with pos := t, snrs := (snr :: e.acq.snrs).take 8 } },
    Op.predict n t, Op.sfFill n t, Op.sfSoft n, Op.deframeAll n 8]
/-- Leave LOCKED for CONVERGE at the miss at `t` (R166, R170): `repl` tells SIGNAL_REPLACED from LOCK_LOST. SIGNAL_REPLACED resets the
taps even while FREEZE is 1 (DESIGN CHOICE, log 69). The superframe before the miss was still followed (R171). -/
def Op.lockEnd (n t : Nat) (repl : Bool) : Op := Op.dyn fun s =>
  Op.all [Op.placed n t none, Op.flag (RX_STAT n) (if repl then RX_STAT_SIGNAL_REPLACED else RX_STAT_LOCK_LOST),
    Op.count (if repl then RX_REPLACE_CNT n else RX_LOCK_LOSS_CNT n) 1,
    Op.raise (srcEng n 9) (if repl then 0x09 else 0x08) 3 (s.sfRx n).toNat, Op.when repl (Op.tapsReset n),
    Op.eng n (fun e => { e with acq := { e.acq with repl := repl, miss := 0 } }), Op.rxTo n 4]
/-- The expected position `t` in LOCKED (R166–R170, R173). -/
def Op.lockedPos (n t : Nat) (o : SyncObs) : Op := Op.dyn fun s =>
  if Nat.ble o.errs (s.acqE n) then
    Op.all [Op.setF (RX_STAT n) RX_STAT_ROT o.rot,
      Op.wr (RX_SYNCQ_SF n) (BitVec.ofNat 32 (0x80000000 + (s.sfRx n).toNat)),
      Op.eng n (fun e => { e with acq := { e.acq with
        miss := 0, pref := some e.rxp.power, qpwr := s.syncPower n t, qsnr := s.syncSnr n t o } }),
      Op.placed n t (some (s.syncSnr n t o))]
  else if s.replaceCond n then Op.lockEnd n t true
  else if Nat.ble 7 (s.engS n).acq.miss then Op.lockEnd n t false
  else Op.thn (Op.eng n fun e => { e with acq := { e.acq with miss := e.acq.miss + 1 } }) (Op.placed n t none)
/-- The next expected position of a candidate (R165), once the symbols have come that its window and, in LOCKED, the phase recovery of its
sync word need. -/
def Op.expected (n : Nat) : Op := Op.dyn fun s =>
  let st := s.rxState n
  Op.when ((st == 6 || st == 7) && s.syncReady n) (match s.syncObs n with
    | none => Op.skip
    | some o => Op.all [
        Op.setF (RX_STAT n) RX_STAT_SYNC_ERR (Nat.min o.errs 255),
        Op.eng n (fun e => { e with acq := { e.acq with peak := o.peak, last := s.expectPos n } }),
        if st == 6 then Op.candidate n (s.expectPos n) o else Op.lockedPos n (s.expectPos n) o])

/-! Tracking and feedback. -/

/-- An update of physical slice `k` of ADC `a` (R92, R93): held while the selector is not LINE and while the power of the last period is
below threshold; `own` are the samples of a spare in shadow run. -/
def Op.sliceUpdate (n a k : Nat) (own : List Byte) : Op := Op.dyn fun s =>
  let r := (s.engS n).rxp
  let st := r.stat.getD a []
  Op.when (s.fld (CONV_SEL n) ⟨2 * a + 1, 2 * a⟩ == 0 && aboveThr (s.accThr n) r.power && !st.isEmpty)
    (Op.track n a k (Config.mismatch k st own))
/-- The end of a laser-feedback period on the engines that it ends for: messages of a bus go in increasing slot order (R156, R157). -/
def Op.tuneEnd (l : List (Eng × List CapWord)) : Op :=
  Op.thn (Op.each l fun e => Op.adcIn e.1 e.2) (Op.each ((List.range 48).filter fun n => l.any fun e => e.1.val == n) fun n =>
    Op.dyn fun s => Op.when (s.tuneDue n) (Op.tune n))

/-! Rows. -/

/-- Power above threshold for DWELL (R163, R166). -/
def execRxPowerQualified (n : Eng) (ws : List CapWord) (s : State) := (Op.thn (Op.adcIn n ws) (Op.rxPowerUp n)).next s
/-- Power below threshold for DWELL (R163, R166). -/
def execRxPowerLost (n : Eng) (ws : List CapWord) (s : State) := (Op.thn (Op.adcIn n ws) (Op.rxPowerLow n)).next s
/-- The dispersion scan ends (R150). -/
def execCdScanComplete (n : Eng) (ws : List CapWord) (s : State) :=
  (Op.thn (Op.adcIn n ws) (Op.dyn fun s => Op.when (s.rxState n == 3) (Op.scanDone n))).next s
/-- The dwell of CONVERGE elapses (R166, R169): the hunt begins. -/
def execConvergeDwellEnd (n : Eng) (ws : List CapWord) (s : State) :=
  (Op.thn (Op.adcIn n ws) (Op.converged n)).next s
/-- A hit in HUNT (R164, R166). -/
def execSyncHit (n : Eng) (ws : List CapWord) (s : State) := (Op.thn (Op.adcIn n ws) (Op.hunt n)).next s
/-- The hunt limit elapses (R169). -/
def execHuntLimitExpiry (n : Eng) (ws : List CapWord) (s : State) := (Op.thn (Op.adcIn n ws) (Op.huntOver n)).next s
/-- An expected position (R165). -/
def execExpectedPosition (n : Eng) (ws : List CapWord) (s : State) := (Op.thn (Op.adcIn n ws) (Op.expected n)).next s
/-- A laser-feedback period ends (R156). -/
def execTunePeriodEnd (l : List (Eng × List CapWord)) (s : State) := (Op.tuneEnd l).next s
/-- RX_EQ_CTL.SNAP (R154). -/
def execEqSnap (p : Party) (n : Eng) (v : W) (ws : List CapWord) (s : State) :=
  (Op.thn (Op.adcIn n ws) (Op.gate p (RX_EQ_CTL n) true (domEng n) (Op.eqCtl n (v ||| 4#32)))).next s
/-- An update of a slice's tracked values (R92). -/
def execSliceTrackUpdate (n : Eng) (a : Fin 4) (k : Fin 68) (ws : List CapWord) (own : List Byte) (s : State) :=
  (Op.thn (Op.adcIn n ws) (Op.sliceUpdate n a k own)).next s

end Sys2Proof.Machine
end

