-- ==== Sys2Proof/Machine/Chain.lean ====
section
/-! DEFINITION. The transmit chain in the order of R120: a superframe's record is opened as it begins and closed with its data as it
ends; encoder output over the tile link (R219), mapping (Encode), Glohiord (R131, R186–R191), pulse shaping (R132), CD
pre-compensation (R133, R135), pre-emphasis, delay and slice correction (R136), and the DAC codes at the pads (R126). -/
namespace Sys2Proof.Machine

/-- Superframes after which the model gives out the codes of one: the sign bits of the next superframe, the neighbours' symbols and
the overlap of the filters are then all known (DESIGN CHOICE, log 27). -/
def txDelay : Nat := 6

/-! Streams of an engine in one run of its transmitter, as functions of the index. -/

/-- The superframes of run `r` of engine `m`. -/
def State.txRun (s : State) (m r : Nat) : List SfRec := (s.engS m).sfs.filter fun q => q.gen == r
/-- The superframe of a run that holds index `i`, of `len` per superframe. -/
def State.txSf (s : State) (m r : Nat) (i : Int) (len : Nat) : Option SfRec := findSf (s.txRun m r) (sfOf i len)
/-- The mapped symbols of run `r` of engine `m`: the transmit stream of R186. -/
def State.txMapped (s : State) (m r : Nat) (i : Int) : Option Pol :=
  let rs := s.txRun m r
  (s.txSf m r i 65536).map fun q => (q.sym rs false (posOf i 65536), q.sym rs true (posOf i 65536))
/-- The sources of the transmit stage of engine `n` for superframe `r`. -/
def State.txSrc (s : State) (n : Nat) (r : SfRec) : GloSrc where
  own k := s.txMapped n r.gen (65536 * r.sn + k)
  nbr j k := match r.glo.nbr.getD j none, neighbour n j with
    | some b, some m => if s.edgeLost m n false (b.1 + k) then none else s.txMapped m b.2 (b.1 + k)
    | _, _ => none
/-- The symbols after the Glohiord stage, and whether a part saturated (R131, R191). -/
def State.txGlo (s : State) (n r : Nat) (y : Bool) (i : Int) : (Int × Int) × Bool :=
  match s.txSf n r i 65536, s.txMapped n r i with
  | some q, some x => q.glo.apply (s.txSrc n q) (posOf i 65536) y (polOf y x)
  | _, _ => ((0, 0), false)
/-- Does a part of the stage's output saturate in a superframe (R191)? -/
def State.txSat (s : State) (n : Nat) (q : SfRec) : Bool :=
  (List.range 65536).any fun p => (s.txGlo n q.gen false (65536 * q.sn + p : Nat)).2 || (s.txGlo n q.gen true (65536 * q.sn + p : Nat)).2

/-- Overlap-save filtering with `N` points, overlap `v` and a response in 2^-30: block b gives the samples from b(N - v) on
(R132, R133). -/
def overlapSave (N v : Nat) (resp : Nat → Int × Int) (x : Int → Int × Int) (t : Int) : Int × Int :=
  let hop : Int := ((N - v : Nat) : Int)
  let b := t / hop
  let f := dft false N fun (i : Nat) => x (b * hop - v + i)
  openRoundCx 6 (dft true N (fun j => cMul (f j) (resp j)) (v + t % hop)) (N * 2 ^ 150)
/-- The distance of bin `j` of `N` from frequency 0, in bins. -/
def binDist (N j : Nat) : Nat := Nat.min j (N - j)
/-- Bin `j` of `N` as a signed number. -/
def binSgn (N j : Nat) : Int := if Nat.blt j (N / 2) then j else (j : Int) - (N : Int)
/-- The shaped signal at fs (R132): the symbols, five places apart at 4 fs, under the root-raised-cosine response, of which the 4,096 bins
about frequency 0 give samples at fs. It is formed about the symbol of the sample, so that a constant sequence yields its value
(DESIGN CHOICE, log 27). -/
def State.txShaped (s : State) (n r : Nat) (y : Bool) (t : Int) : Int × Int :=
  let roll := ((s.txSf n r t 81920).map (·.roll)).getD 50
  let sym := fun (i : Int) => (s.txGlo n r y i).1
  let c := sym (4 * t / 5)
  let hop : Int := ((4096 - Config.shapeOverlap.val : Nat) : Int)
  let a := 4 * (t / hop * hop - Config.shapeOverlap.val)
  let f := dft false 16384 fun (i : Nat) => if (a + i) % 5 = 0 then cAdd (sym ((a + i) / 5)) (cTimes (-1) c) else (0, 0)
  let z := dft true 4096 (fun j => cTimes (rrc roll (5 * binDist 4096 j) 16384) (f (binSgn 4096 j))) (Config.shapeOverlap.val + t % hop)
  cAdd c (openRoundCx 7 (cTimes 5 z) (16384 * 2 ^ 150))
/-- The signal after CD pre-compensation (R133): BYPASS, ON with the active response, FLAT with a response of 1. -/
def State.txComp (s : State) (n r : Nat) (y : Bool) (t : Int) : Int × Int :=
  match s.txSf n r t 81920 with
  | none => (0, 0)
  | some q =>
    if q.cdpre == 0 then s.txShaped n r y t
    else overlapSave 65536 (1024 * q.ovl)
      (fun j => if q.cdpre == 1 then cTimes 65536 (coefCx (q.cd.getD j 0)) else (2 ^ 30, 0)) (s.txShaped n r y) t

/-! Pre-emphasis, delay and slice correction (R136). The record holds per converter nine taps, gain, delay, 34 slice words and the
slice map. -/

/-- The stream of converter `c`: XI, XQ, YI, YQ. -/
def State.txConv (s : State) (n r c : Nat) (t : Int) : Int :=
  let v := s.txComp n r (Nat.ble 2 c) t
  if c % 2 == 0 then v.1 else v.2
/-- Step 1: pre-emphasis, in units of 2^-14. -/
def State.txPre (s : State) (n r c : Nat) (t : Int) : Int :=
  match s.txSf n r t 81920 with
  | none => 0
  | some q => (List.range 9).foldl (fun a i => a + sgn 16 (getFld ((q.conv.getD c []).getD i 0) TX_PREEMPH_TAP) * s.txConv n r c (t + 4 - i)) 0
/-- Step 2: the delay of INT + FRAC / 256 samples. -/
def State.txDelayed (s : State) (n r c : Nat) (w : W) (t : Int) : Int :=
  let u := t - sgn 8 (getFld w TX_DELAY_INT)
  let fr := getFld w TX_DELAY_FRAC
  if fr == 0 then s.txPre n r c u
  else Config.fracDelay fr ((List.range 33).map fun (i : Nat) => s.txPre n r c (u + i - 16))
/-- The physical slice of logical slice `k` of a DAC (R96). -/
def dacSlice (map : W) (k : Nat) : Nat :=
  if bitFld map CONV_DAC_MAP_EN0 && getFld map CONV_DAC_MAP_SLICE0 == k then 32
  else if bitFld map CONV_DAC_MAP_EN1 && getFld map CONV_DAC_MAP_SLICE1 == k then 33 else k
/-- Step 3: the value at the instant that the slice's skew gives: SKEW / 1,024 ps times fs, in units of 1 / 16,777,216,000 sample. -/
def State.txSkewed (s : State) (n c : Nat) (q : SfRec) (ws : List W) (sl : W) (t : Int) : Int :=
  let d := fun u => s.txDelayed n q.gen c (ws.getD 10 0) u
  let k := sgn 12 (getFld sl TX_SLICE_CORR_SKEW)
  if k == 0 then d t else Config.skewed (5 * k * q.g.sr) ((List.range 5).map fun (i : Nat) => d (t + i - 2))
/-- Steps 4 and 5: the DAC code of sample `t`, and whether it saturated. -/
def State.txCode (s : State) (n r c : Nat) (t : Int) : Int × Bool :=
  match s.txSf n r t 81920 with
  | none => (0, false)
  | some q =>
    if q.hold then (0, false) else
    let ws := q.conv.getD c []
    let sl := ws.getD (11 + dacSlice (ws.getD 45 0) (posOf t 32)) 0
    let w := s.txSkewed n c q ws sl t
    let v := rneDiv (w * (getFld (ws.getD 9 0) TX_GAIN_GAIN : Nat) + sgn 8 (getFld sl TX_SLICE_CORR_OFFSET) * 2 ^ 30) (2 ^ 34)
    (clampI (-128) 127 v, decide (v < -128 ∨ 127 < v))

/-! The record of a superframe. -/

/-- The words of converter `c` that govern a superframe. -/
def State.convWords (s : State) (n c : Nat) : List W :=
  (List.range 9).map (fun t => s.reg (TX_PREEMPH n c t + 0x4000)) ++ [s.reg (TX_GAIN n c + 0x4000), s.reg (TX_DELAY n c + 0x4000)]
    ++ (List.range 34).map (fun k => s.reg (TX_SLICE_CORR n c k + 0x4000)) ++ [s.reg (CONV_DAC_MAP n c + 0x4000)]
/-- The active transmit CD response (R133, R134). -/
def State.cdTxWords (s : State) (n : Nat) : List W :=
  (List.range 65536).map fun j => s.coefWord n (0x140000 + 4 * j)
/-- Open the record of the superframe that begins, with everything that is active at its boundary (R22). -/
def Op.sfOpen (n : Nat) (slice : List Byte) (hw : List Int) : Op := Op.dyn fun s =>
  let i := s.txAct n
  let m := s.reg (TX_MODE n + 0x4000)
  let e := s.engS n
  let r : SfRec := {
    gen := e.txGen, sn := (s.sfTx n).toNat, w0 := s.reg (GAIT_W0 n i), w1 := s.reg (GAIT_W1 n i), w2 := s.reg (GAIT_W2 n i)
    epoch := s.bit (GAIT_STAT n) GAIT_STAT_EPOCH_TX, slice := slice, r0 := e.runSn.toNat, last := false, done := false
    hold := e.hold, lanes := s.fld (POOL_ENC n + 0x4000) POOL_ENC_LANES, data := [], fill := []
    glo := s.gloRec n false (s.nbrNow n false hw), roll := getFld m TX_MODE_ROLLOFF, cdpre := getFld m TX_MODE_CDPRE
    ovl := s.fld (TX_CD_OVL n + 0x4000) TX_CD_OVL_OVL
    cd := if getFld m TX_MODE_CDPRE == 1 then s.cdTxWords n else []
    conv := (List.range 4).map (s.convWords n), sat := false }
  Op.eng n fun e => { e with sfs := r :: e.sfs.take 15 }
/-- A superframe whose Glohiord stage saturated sets SAT and counts once (R191). -/
def Op.txSatMark (n : Nat) (r : SfRec) : Op := Op.dyn fun s =>
  Op.when (!r.sat && s.txSat n r) (Op.all [Op.flag (GLO_STAT n) GLO_STAT_SAT, Op.count (GLO_SAT_CNT n) 1,
    Op.eng n fun e => { e with sfs := e.sfs.map fun q => if q.gen == r.gen && q.sn == r.sn then { q with sat := true } else q }])
/-- Give out the codes of a superframe at the pads: zero differential while the pads are held (R479). -/
def Op.padsOut (n : Nat) (r : SfRec) : Op := Op.dyn fun s =>
  let held := s.bit (PWR_DOM (domEng n)) PWR_DOM_PAD_HOLD
  Op.thn (Op.txSatMark n r) (Op.emit (.pads n r.sn ((List.range 4).map fun c => (List.range 81920).map fun (i : Nat) =>
    if held then 0 else (s.txCode n r.gen c (81920 * r.sn + i)).1)))
/-- Give out what the encoder has sent for a superframe (R219). -/
def Op.linkOut (n : Nat) (r : SfRec) : Op := Op.dyn fun s =>
  Op.emit (.tileLink n r.sn r.dmBits (r.signBits (s.txRun n r.gen)) r.laneOf)
/-- The superframes of the present run. -/
def State.txNow (s : State) (n : Nat) : List SfRec := s.txRun n (s.engS n).txGen
/-- Close the record of the superframe that ends with its data and fill bits. The sign bits of the superframe before it, whose last
codeword may end in this one, are known with it. -/
def Op.sfClose (n : Nat) (data fill : List Bool) (last : Bool) : Op := Op.all [
  Op.eng n fun e => { e with sfs := match e.sfs with
    | r :: l => { r with data := data, fill := fill, last := last, done := true } :: l
    | [] => [] },
  Op.dyn fun s =>
    let l := s.txNow n
    Op.all [Op.each ((l.drop 1).take 1 |>.filter fun r => !r.last) (Op.linkOut n), Op.each (l.take 1 |>.filter fun r => r.last) (Op.linkOut n),
      Op.each ((l.drop txDelay).take 1) (Op.padsOut n)]]
/-- The last superframe has left the pads: what is still to be given out, and every DAC goes to code 0 (R126). The symbols of the run stay
for the neighbours that read them (R186). -/
def Op.sfFlush (n : Nat) : Op := Op.dyn fun s =>
  Op.thn (Op.each ((s.txNow n).take txDelay).reverse (Op.padsOut n)) (Op.emit (.dark n))

/-! Saturation of the Glohiord stages (R191). -/

/-- The command that a part of a stage's output saturates: the first recent superframe whose symbols are known, that saturates and has not
been counted. -/
def Op.gloSat (n : Nat) (rx : Bool) : Op := Op.dyn fun s =>
  if rx then (match (s.engS n).rxp.sfs.find? fun r => !r.sat && s.rxSat n r with
    | some r => Op.rxSatMark n r
    | none => Op.skip)
  else (match (s.engS n).sfs.find? fun r => !r.sat && s.txSat n r with
    | some r => Op.txSatMark n r
    | none => Op.skip)
/-- A part of the stage's output saturates (R191). -/
def execGloOutputSaturation (n : Eng) (rx : Bool) (s : State) := (Op.gloSat n rx).next s

end Sys2Proof.Machine
end

