-- ==== Sys2Proof/Machine/Pool.lean ====
section
/-! DEFINITION. The decoder pool: codewords and their counts (R214, R220–R222, R224, R231), units (R226, R232), the mirror
(R227, R228) and the margin alarm (R232). What a swap does to units is in Swap. -/
namespace Sys2Proof.Machine

/-- The codeword `w` of an engine that its decoder has whole and has not decoded: the superframe of its first symbol. -/
def State.cwDue (s : State) (n w : Nat) : Option RxSf :=
  let y := (s.engS n).rxp
  y.sfs.reverse.findSome? fun q => let x := y.of q.lk; match cwWhole x.sfs q.g.cwLen w with
    | some r => if (findCw x.cws r.g.cwLen w).isNone then some r else none
    | none => none
/-- The unit that decodes it: the assignment in force at its first symbol holds for the whole codeword (R224, R226). -/
def RxSf.unit (r : RxSf) (w : Nat) : Option Nat := r.dec[w % r.dec.length]?

/-- Count in the FEC registers of an engine and in the counters (R231, R237, R492); `nt` are the codeword's bits. -/
def Op.fecCount (n nt : Nat) (r : CwResult) : Op := Op.dyn fun s =>
  Op.all [Op.count (FEC_CW n) 1, Op.countEv 1 n 2 1,
    Op.when r.synd (Op.thn (Op.count (FEC_LDPC_FAIL n) 1) (Op.flag (FEC_STAT n) FEC_STAT_LDPC_FAIL)),
    if r.uncor then Op.all [Op.count (FEC_BCH_UNCORR n) 1, Op.countEv 1 n 4 1,
      Op.when (!s.bit (FEC_STAT n) FEC_STAT_UNCORR)
        (Op.dyn fun t => Op.raise (srcEng n 11) 0x14 3 (t.reg (FEC_CW n)).toNat),
      Op.flag (FEC_STAT n) FEC_STAT_UNCORR, Op.eng n fun e => { e with uncSf := e.uncSf + 1 }]
    else Op.all [Op.count (FEC_BCH_CORR n) r.bch, Op.countEv 1 n 3 r.pre,
      Op.eng n fun e => { e with
        fecErr := (e.fecErr + r.pre) % 2 ^ 64
        fecBit := (e.fecBit + nt) % 2 ^ 64
        ber := match e.ber with | [] => [(r.pre, nt)] | b :: l => (b.1 + r.pre, b.2 + nt) :: l }]]
/-- Did the target begin a codeword whose first symbol lies in superframe `r` after the spare was fed (R227)? -/
def State.mirFed (s : State) (r : RxSf) : Bool :=
  match s.mir.since with
  | some c => Nat.ble 1 (sub24 r.cnt c) && Nat.blt (sub24 r.cnt c) (2 ^ 23)
  | none => true
/-- A codeword that the spare was fed too is compared (R227), as it turns out with `m`, and with outputs alike where the command brings
none: it passes when the outputs are identical, or the target's syndrome is not zero and the spare's is. The spare counts what it decodes
(R492). -/
def Op.mirrorCmp (u : Nat) (r : RxSf) (synd : Bool) (m : Option MirrorCmp) : Op := Op.dyn fun s =>
  let c := m.getD ⟨true, !synd⟩
  Op.when (s.mirFed r && s.fld POOL_MIRROR_STAT POOL_MIRROR_STAT_STATE == 2 && s.mir.target == u
      && Nat.blt (s.fld POOL_MIRROR_STAT POOL_MIRROR_STAT_COMPARED) 4096)
    (Op.all [Op.addF POOL_MIRROR_STAT POOL_MIRROR_STAT_COMPARED 1, Op.countEv 4 s.mir.spare 0 1, Op.when (!c.sOk) (Op.countEv 4 s.mir.spare 1 1),
      Op.when (!(c.same || (synd && c.sOk))) (Op.mod fun s => { s with mir := { s.mir with same := false } })])
/-- A unit completes codeword `w` of an engine (R220, R224, R226, R227): one that has no LLRs, no unit, or is decoded already, is none. -/
def Op.codeword (n w : Nat) (m : Option MirrorCmp) : Op := Op.dyn fun s =>
  match s.cwDue n w with
  | none => Op.skip
  | some r => match r.unit w with
    | none => Op.skip
    | some u =>
      let x := decodeCw r.g.oh (cwGather ((s.engS n).rxp.of r.lk).sfs r.g w)
      Op.all [
        Op.fecCount n (cwBits r.g.oh) x, Op.countEv 4 u 0 1, Op.when x.synd (Op.countEv 4 u 1 1),
        Op.mirrorCmp u r x.synd m,
        Op.rxp n fun y => { y with cws := (⟨r.lk, w, w * r.g.cwLen / 125456, x.bits, x.uncor⟩ :: y.cws).take 512 },
        Op.deframeAll n 8]

/-- The codewords of an engine that units selected by `p` hold, with the superframe of their first symbol: not decoded, and whole or
still growing in the newest superframe that the decoder was given. -/
def State.cwHeld (s : State) (n : Nat) (p : Nat → Bool) : List (Nat × Nat × Nat) :=
  let y := (s.engS n).rxp
  (y.sfs.filter fun q => q.fed == some true && q.sn.isSome).flatMap fun q =>
    let x := y.of q.lk
    let b := 125456 * q.sn.getD 0
    let l := q.g.cwLen
    let w0 := (b + l - 1) / l
    (((List.range ((b + 125455) / l + 1 - w0)).map (· + w0)).filter fun w =>
      (match q.unit w with | some u => p u | none => false) && (findCw x.cws l w).isNone
        && ((cwWhole x.sfs l w).isSome
          || (Nat.blt (b + 125456) ((w + 1) * l) && (match q.next x.sfs with | some r => r.fed.isNone | none => true)))).map
      fun w => (q.lk, w, q.sn.getD 0)
/-- Units drop the codewords they hold, which are passed on as uncorrectable (R443). -/
def Op.dropCws (n : Nat) (p : Nat → Bool) : Op := Op.dyn fun s =>
  Op.thn (Op.each (s.cwHeld n p) fun c => Op.thn (Op.fecCount n 0 ⟨false, 0, true, 0, []⟩)
      (Op.rxp n fun y => { y with cws := (⟨c.1, c.2.1, c.2.2, [], true⟩ :: y.cws).take 512 }))
    (Op.deframeAll n 8)

/-- A removed unit has finished its codewords (R226). -/
def Op.unitDone (u : Nat) : Op := Op.dyn fun s =>
  Op.when (s.fld (POOL_UNIT u) POOL_UNIT_STATE == 5) (Op.thn (Op.setF (POOL_UNIT u) POOL_UNIT_STATE 0) Op.poolWatch)

/-- A unit's check or memory reports an error (R232, R427). -/
def Op.unitError (n u : Nat) : Op := Op.dyn fun s =>
  Op.thn (Op.raise (srcEng n 11) 0x16 2 u)
    (Op.when (s.bit FAR_CFG FAR_CFG_AUTO_UNIT) (Op.farQueue (BitVec.ofNat 32 (0x40000000 + u)) 0))

/-- A read of FEC_ERR_LO or FEC_BITS_LO (R237): `inc` is the increment of an event of the same cycle. -/
def Op.fecRead (p : Party) (n : Nat) (bits : Bool) (inc : Nat) : Op := Op.dyn fun s =>
  let e := s.engS n
  let v := if bits then e.fecBit else e.fecErr
  Op.all [Op.data p (BitVec.ofNat 32 v),
    Op.latch p (if bits then FEC_BITS_HI n else FEC_ERR_HI n) (BitVec.ofNat 32 (v / 2 ^ 32)),
    Op.eng n fun e => if bits then { e with fecBit := inc % 2 ^ 64 } else { e with fecErr := inc % 2 ^ 64 }]

/-- −log10(e / b) × 4,096 to nearest, by its binary digits: the values of R230 show the rounding (DEDUCED, log 33). -/
def berDigits (e b : Nat) : Nat → Nat → Nat
  | 0, r => r
  | k + 1, r =>
    let c := r + 2 ^ k
    berDigits e b k (if Nat.ble (10 ^ (2 * c - 1) * e ^ 8192) (b ^ 8192) then c else r)
/-- FEC_BER_LOG of `e` errors in `b` bits (R231). -/
def berLog (e b : Nat) : Nat := if e == 0 then 0xFFFF else berDigits e b 16 0
/-- FEC_BER_LOG over the last 8 superframes, at the end of a superframe (R231). -/
def Op.berEnd (n : Nat) : Op := Op.dyn fun s =>
  let l := (s.engS n).ber.take 8
  let er := l.foldl (fun a b => a + b.1) 0
  let bi := l.foldl (fun a b => a + b.2) 0
  Op.thn (Op.setF (FEC_BER_LOG n) FEC_BER_LOG_BER_LOG (berLog er bi))
    (Op.eng n fun e => { e with ber := (0, 0) :: e.ber.take 7 })

/-- The margin alarm at the end of a multiframe (R232). -/
def Op.margin (n : Nat) : Op := Op.dyn fun s =>
  let thr := s.fld (FEC_ALARM n) FEC_ALARM_THR
  let v := s.fld (FEC_BER_LOG n) FEC_BER_LOG_BER_LOG
  let low := Nat.blt v thr
  let e := s.engS n
  let lo := if low then e.marLo + 1 else 0
  let hi := if low then 0 else e.marHi + 1
  Op.thn (Op.eng n fun e => { e with marLo := lo, marHi := hi })
    (if Nat.ble 8 lo then Op.all [
        Op.when (!s.bit (FEC_STAT n) FEC_STAT_MARGIN) (Op.condSet (srcEng n 11) 0x15 0 v),
        Op.flag (FEC_STAT n) FEC_STAT_MARGIN_LIVE, Op.flag (FEC_STAT n) FEC_STAT_MARGIN]
     else Op.when (Nat.ble 8 hi)
      (Op.thn (Op.setF (FEC_STAT n) FEC_STAT_MARGIN_LIVE 0) (Op.condClear (srcEng n 11) 0x15 0 v)))

/-! The mirror (R227, R228). -/

/-- The refusal of a GO in the order of R227; 0 none. -/
def State.mirrorRefuse (s : State) (tgt spare : Nat) : Nat :=
  let st := s.fld POOL_MIRROR_STAT POOL_MIRROR_STAT_STATE
  if !(Nat.blt spare 88 && s.fld (POOL_UNIT spare) POOL_UNIT_STATE == 0) then 1
  else if !(Nat.blt tgt 88 && s.fld (POOL_UNIT tgt) POOL_UNIT_STATE == 1) then 2
  else if st == 1 || st == 2 then 3 else 0
/-- The spare of a mirror is fed the codewords that the target begins from now on (R227). -/
def Op.mirrorRun : Op := Op.dyn fun s =>
  let c := ((s.engS s.mir.eng).rxp.sfs.find? fun r => r.fed.isSome).map (·.cnt)
  Op.mod fun s => { s with mir := { s.mir with since := c } }
/-- A mirror starts, or waits for its spare's group to wake (R227): the spare of a mirror that it supersedes returns to FREE. -/
def Op.mirrorStart (tgt spare : Nat) (farr : Bool) : Op := Op.dyn fun s =>
  let own := s.fld (POOL_UNIT tgt) POOL_UNIT_OWNER
  let up := s.inRun (domGrp (spare / 8))
  Op.all [
    Op.when (s.fld (POOL_UNIT s.mir.spare) POOL_UNIT_STATE == 2) (Op.setF (POOL_UNIT s.mir.spare) POOL_UNIT_STATE 0),
    Op.setF (POOL_UNIT spare) POOL_UNIT_STATE 2, Op.setF (POOL_UNIT spare) POOL_UNIT_OWNER own,
    Op.wr POOL_MIRROR_STAT (if up then 0x80000000#32 else 0x40000000#32),
    Op.mod fun s => { s with mir := ⟨own, tgt, spare, true, farr, none⟩ }, Op.mirrorRun,
    Op.when (!up) (Op.pwr fun p => { p with poolW := some (domGrp (spare / 8)) }), Op.poolWatch]
/-- 4,096 codewords have been compared (R227). -/
def Op.mirrorEnd : Op := Op.dyn fun s =>
  Op.when (s.fld POOL_MIRROR_STAT POOL_MIRROR_STAT_STATE == 2 && s.fld POOL_MIRROR_STAT POOL_MIRROR_STAT_COMPARED == 4096)
    (Op.all [Op.setF POOL_MIRROR_STAT POOL_MIRROR_STAT_STATE 3, Op.setB POOL_MIRROR_STAT POOL_MIRROR_STAT_PASS s.mir.same, Op.event 52 12])

/-! Rows. -/

/-- A codeword is decoded (R220). -/
def execCodewordDecoded (n : Eng) (w : Nat) (m : Option MirrorCmp) (s : State) := (Op.codeword n w m).next s
/-- A removed unit becomes FREE (R226). -/
def execUnitFree (u : Fin 88) (s : State) := (Op.unitDone u).next s
/-- A unit's check reports an error (R232). -/
def execDecUnitError (n : Eng) (u : Fin 88) (s : State) := (Op.unitError n u).next s
/-- A read of a LO word of the FEC counters (R237). -/
def execFecCounterRead (p : Party) (n : Eng) (bits : Bool) (inc : Nat) (s : State) := (Op.hub (Op.fecRead p n bits inc)).next s

end Sys2Proof.Machine
end

