-- ==== Sys2Proof/Machine/Clients.lean ====
section
/-! DEFINITION. Client contexts and their ports (R238–R241), the inline editing of PTP messages (R319), acceptance at the ingress (R252),
and the release into superframes (R245–R248). -/
namespace Sys2Proof.Machine

/-! Contexts and their ports. -/
def State.ctxType (s : State) (c : Nat) : Nat := s.fld (CTX_CFG c) CTX_CFG_TYPE
def State.ctxPort (s : State) (c : Nat) : Nat := s.fld (CTX_CFG c) CTX_CFG_PORT
/-- The contexts that are not IDLE. -/
def State.ctxLive (s : State) : List Nat :=
  s.regs.filterMap fun e =>
    if Nat.ble (CTX_STAT 0) e.1 && Nat.blt e.1 (CTX_STAT 4096) && (e.1 - CTX_STAT 0) % 0x20 == 0
      && getFld e.2 CTX_STAT_STATE != 0 then some ((e.1 - CTX_STAT 0) / 0x20) else none
def State.portW (s : State) (l : Nat) : W := s.reg (PORT_CFG (l / 64) (l % 64))
/-- PHYs of the FlexE group whose first PHY is host lane `l` (R275). -/
def State.phys (s : State) (l : Nat) : List Nat :=
  (List.range 64).filter fun q => let w := s.reg (PORT_CFG (l / 64) q)
    bitFld w PORT_CFG_EN && getFld w PORT_CFG_TYPE == 3 && getFld w PORT_CFG_GROUP == l % 64
/-- A PHY of a port as a host lane number: the `k`-th of a FlexE group, else the port itself. -/
def State.phyOf (s : State) (l k : Nat) : Nat :=
  if getFld (s.portW l) PORT_CFG_TYPE == 3 then l / 64 * 64 + (s.phys l).getD (k % Nat.max 1 (s.phys l).length) (l % 64) else l
/-- Do `f` with the port or PHY that takes the next block sent to port `l`: which PHY of a FlexE group, the group's calendar decides, which
the spec leaves to the implementation agreement (free, logs 3 and 17). -/
def Op.onPhy (l : Nat) (f : Nat → Op) : Op := Op.dyn fun s =>
  if getFld (s.portW l) PORT_CFG_TYPE == 3 then Op.free fun w => f (s.phyOf l w.toNat) else f l
/-- Count `k` events of an enabled port or PHY of a harness in Run (R492). -/
def Op.countPort (l ev k : Nat) : Op := Op.dyn fun s =>
  Op.when (bitFld (s.portW l) PORT_CFG_EN && s.inRun (domHrn (l / 64))) (Op.countEv 2 l ev k)
/-- The most slots that a context of a type may hold on the port of host lane `l` (R238): 0 where the port does not exist. A FlexE
client has its own count of the 80 calendar slots of each PHY of the group (log 16). -/
def State.slotLimit (s : State) (type l client : Nat) : Nat :=
  let w := s.portW l
  let t := getFld w PORT_CFG_TYPE
  if !bitFld w PORT_CFG_EN then 0
  else if type == 0 && Nat.blt t 3 then 40 * portLanes w
  else if type == 1 && t == 3 && getFld w PORT_CFG_GROUP == l % 64 then Nat.min (Config.flexSlots l client) (80 * (s.phys l).length)
  else if type == 2 && t == 4 then 40 * portLanes w
  else 0
/-- Does the configuration of a context pass R238, R240 and R320? -/
def State.ctxOk (s : State) (c : Nat) : Bool :=
  let l := s.ctxPort c
  let mx := s.fld (CTX_SLOTS c) CTX_SLOTS_MAX
  let mn := s.fld (CTX_SLOTS c) CTX_SLOTS_MIN
  let b := s.fld (CTX_BOUND c) CTX_BOUND_BOUND
  Nat.ble 1 mx && Nat.ble mx (s.slotLimit (s.ctxType c) l (s.fld (CTX_CFG c) CTX_CFG_CLIENT))
    && (s.ctxCom c || (Nat.ble 1 mn && Nat.ble mn mx && Nat.ble 1000 b && Nat.ble b 4300))
    && !(List.range 4).any fun h => s.bit (TU_TPORT_CFG h) TU_TPORT_CFG_EN && 64 * h + s.tportLane h == l

/-! Inline editing of PTP messages (R318, R319), by the layouts of IEEE 802.3, IP, UDP and IEEE 1588 (PRESUMED, log 14). -/

/-- CRC-32 of IEEE 802.3, without the final complement: differences of two such values are differences of frame checks. -/
def crcEth (f : List Byte) : Nat :=
  f.foldl (fun c b => [0, 1, 2, 3, 4, 5, 6, 7].foldl
    (fun c _ => if c % 2 == 1 then (c / 2) ^^^ 0xEDB88320 else c / 2) (c ^^^ b.toNat)) 0xFFFFFFFF
/-- Put frame bytes back into blocks. -/
def putBytes : List QBlk → List Byte → List QBlk
  | [], _ => []
  | q :: r, f =>
    let k := q.blk.bytes.length
    let old := leBytes 8 q.blk.pay.toNat
    let new := if q.blk.ctl then splice old 1 (f.take k) else f.take k
    { q with blk := { q.blk with pay := BitVec.ofNat 64 (leVal new) } } :: putBytes r (f.drop k)
/-- Is a frame an event message (messageType 0 to 3) of an encapsulation of R318? None while its bytes do not tell. -/
def ptpEvent (f : List Byte) : Option Bool :=
  let n := f.length
  let b := fun i => (f.getD i 0#8).toNat
  let ty := 256 * b 12 + b 13
  let udp := fun (o : Nat) => if Nat.blt n (o + 9) then none
    else some ((256 * b (o + 2) + b (o + 3) == 319 || 256 * b (o + 2) + b (o + 3) == 320) && Nat.blt (b (o + 8) % 16) 4)
  if Nat.blt n 14 then none
  else if ty == 0x88F7 then (if Nat.blt n 15 then none else some (Nat.blt (b 14 % 16) 4))
  else if ty == 0x0800 then (if Nat.blt n 24 then none else if b 23 != 17 then some false else udp (14 + b 14 % 16 * 4))
  else if ty == 0x86DD then (if Nat.blt n 21 then none else if b 20 != 17 then some false else udp 54)
  else some false
/-- The ones' complement sum of the 16-bit words of bytes. -/
def ocSum : List Byte → Nat
  | a :: b :: r => let t := 256 * a.toNat + b.toNat + ocSum r; t % 65536 + t / 65536
  | [a] => 256 * a.toNat
  | [] => 0
/-- The UDP checksum after an edit: 0 on IPv4, updated by the change on IPv6 (R319). -/
def udpFix (old new : List Byte) : List Byte :=
  let ty := beVal (new.extract 12 14)
  if ty == 0x0800 then splice new (14 + (new.getD 14 0#8).toNat % 16 * 4 + 6) [0#8, 0#8]
  else if ty == 0x86DD then
    let c := beVal (old.extract 60 62)
    let d := 65535 - c + (65535 - ocSum (old.drop 62)) + ocSum (new.drop 62)
    let d1 := d % 65536 + d / 65536
    let d2 := d1 % 65536 + d1 / 65536
    splice new 60 (beBytes 2 (if d2 == 65535 then 65535 else 65535 - d2))
  else new
/-- Edit a whole frame: `t` is the stamp of its start block, `out` the egress (R319). -/
def ptpEdit (out : Bool) (t : Nat) (f : List Byte) : List Byte :=
  match ptpAt f with
  | none => f
  | some o =>
    let mid := t / 4096 % 2 ^ 32
    let body := f.take (f.length - 4)
    let fld := beVal (body.extract (o + 16) (o + 20))
    let cf := beVal (body.extract (o + 8) (o + 16))
    let new := if out then
        splice (splice body (o + 8) (beBytes 8 (cf + (mid + 2 ^ 32 - fld) % 2 ^ 32 * 4096))) (o + 16) [0#8, 0#8, 0#8, 0#8]
      else splice body (o + 16) (beBytes 4 mid)
    let fix := udpFix body new
    fix ++ leBytes 4 (leVal (f.drop (f.length - 4)) ^^^ crcEth body ^^^ crcEth fix)
/-- One block through the editor: the blocks that pass on. A frame is held until it is known to be none that is edited, or to
its end; a frame with an errored or another control block passes on unedited. -/
def frmStep (out : Bool) (x : Frm) (q : QBlk) (stamp : Nat) : Frm × List QBlk :=
  if q.blk.start && !q.bad then (⟨[q], false, stamp⟩, x.held)
  else if x.pass then (x, [q])
  else
    let l := x.held ++ [q]
    let f := l.foldr (fun q a => q.blk.bytes ++ a) []
    if q.bad || (q.blk.ctl && q.blk.term.isNone) then (.init, l)
    else if q.blk.term.isSome then
      (.init, if ptpEvent f == some true && Nat.ble 64 f.length then putBytes l (ptpEdit out x.t f) else l)
    else if ptpEvent f == some false then (.init, l)
    else (⟨l, false, x.t⟩, [])
/-- Does the device edit messages of context `c`? -/
def State.ptpCtx (s : State) (c : Nat) : Bool := s.ctxType c == 0 && (s.reg (TU_PTP_CTX (c / 32))).getLsbD (c % 32)

/-! Ingress (R239, R252). -/

/-- Blocks with the numbers of their words, from the `i`-th written on. -/
def keyed (out : Bool) (c i : Nat) (l : List QBlk) : List QBlk := l.mapIdx fun j q => { q with word := bufWord out c (i + j) }
/-- Put a block into the context's queue, through the editor: each block that reaches it is a write of a word of the client buffer (R260,
R410, R413, R415, R418). -/
def Op.queue (c : Nat) (q : QBlk) : Op := Op.dyn fun s =>
  let x := s.ctxS c
  let r := if s.ptpCtx c then frmStep false x.fin q s.stamp else (.init, x.fin.held ++ [q])
  let l := keyed false c x.inN r.2
  Op.thn (Op.each l fun b => Op.wordWritten (bufKey b.word) true true)
    (Op.ctx c fun x => { x with fin := r.1, queue := x.queue ++ l, inN := x.inN + l.length })
/-- Is there credit (R252)? -/
def State.credit (s : State) (c : Nat) : Bool :=
  let d := (s.fld (CTX_LIM c) CTX_LIM_LIM + 2 ^ 24 - s.fld (CTX_ACC c) CTX_ACC_ACC) % 2 ^ 24
  Nat.ble 1 d && Nat.blt d (2 ^ 23)
/-- Accept a block (R252): one whose native header is invalid is marked errored (R281). -/
def Op.accept (c : Nat) (b : Blk) : Op :=
  Op.all [Op.addF (CTX_ACC c) CTX_ACC_ACC 1, Op.queue c ⟨b, b.hdr == 0#2 || b.hdr == 3#2, false, 0⟩, Op.countEv 3 c 0 1]
/-- Refuse a block (R252). -/
def Op.refuse (c : Nat) : Op :=
  Op.all [Op.count (CTX_REFUSED c) 1, Op.flag (CTX_STAT c) CTX_STAT_REFUSED, Op.countEv 3 c 1 1]
/-- RS(544,514) codewords of an Ethernet port or FlexE PHY are counted (R283, R492). -/
def Op.rsCount (l : Nat) (r : RsCount) : Op := Op.dyn fun s =>
  Op.when (Nat.blt (getFld (s.portW l) PORT_CFG_TYPE) 4)
    (Op.all [Op.countPort l 2 r.corr, Op.countPort l 3 r.unc, Op.countPort l 4 r.sym])
/-- Is a block no client block: one that is dropped outside a frame (R239)? Native contexts have no frames. -/
def State.noBlk (s : State) (c : Nat) (b : Blk) : Bool :=
  b.drop && !(s.ctxType c != 2 && ((s.ctxS c).inFrame || b.start))
/-- A block of a context's stream arrives (R239, R252). Native contexts have no frames. -/
def Op.blockIn (c : Nat) (b : Blk) : Op := Op.dyn fun s =>
  let x := s.ctxS c
  let framed := s.ctxType c != 2
  let inF := framed && (x.inFrame || b.start)
  let stop := b.term.isSome
  let now := Op.ctx c fun x => { x with inFrame := inF && !stop, cutting := x.cutting && !stop && !b.start }
  if s.noBlk c b then Op.skip
  else if x.cutting && !b.start then Op.thn (Op.refuse c) now
  else if s.credit c then Op.thn (Op.accept c b) now
  else Op.all [Op.refuse c, now,
    Op.when (inF && !stop) (Op.thn (Op.queue c ⟨Blk.err, false, true, 0⟩) (Op.ctx c fun x => { x with cutting := true }))]

/-! Release (R245–R248, R213–R218). -/

/-- What a release has done so far: contexts, blocks (newest first), counts of RELEASED and IDLE_POS and of blocks lost in the client
buffer, contexts whose sequence block is sent. -/
structure Rel where
  ctx  : Tab CtxSt
  out  : List Blk
  rel  : Tab Nat
  idle : Tab Nat
  err  : Tab Nat
  seqd : List Nat
/-- One position (R247, R248). A block whose buffer word was uncorrectable is sent as the error block (R250). -/
def relPos (a : Rel) (e : CalEnt) : Rel :=
  let x := Tab.get a.ctx (fun _ => CtxSt.init) e.ctx
  let bump := fun (t : Tab Nat) => Tab.set t (fun _ => 0) e.ctx (Tab.get t (fun _ => 0) e.ctx + 1)
  if !e.com && !a.seqd.contains e.ctx then { a with out := seqBlk x.seqTx :: a.out, seqd := e.ctx :: a.seqd }
  else match x.queue with
    | [] => { a with out := Blk.idle :: a.out, idle := bump a.idle }
    | q :: r =>
      let y := { x with queue := r, rd := if q.gen then x.rd else x.rd + 1, seqTx := x.seqTx + 1 }
      { a with ctx := Tab.set a.ctx (fun _ => CtxSt.init) e.ctx y, out := (if q.bad then Blk.err else q.blk) :: a.out
               rel := bump a.rel, err := if q.bad then bump a.err else a.err }
/-- The positions of superframe `sn` of a run that begins at `r0` (R245, R246): entries in order, the dealing after it, and the counts of
data bits and of the fill bits of idle symbols. -/
def State.positions (s : State) (n r0 sn : Nat) (last : Bool) (dl : Deal) : List CalEnt × Deal × Nat × Nat :=
  let g := s.gait n (s.txAct n)
  let es := (s.calAll false false).filter fun e => e.eng == n
  let com := es.filter (·.com)
  let ela := es.filter fun e => !e.com
  let d := dataBits g r0 sn last
  let tc := posCount sn com.length g.rate
  let te := Nat.min (posCount sn ela.length g.rate) ((d.1 - 66 * tc) / 66)
  let dc := dealOut com dl.com tc
  let de := dealOut ela dl.ela te
  (dc.1 ++ de.1, ⟨dc.2, de.2⟩, d)
/-- Take the next block of every position from its context (R247, R250), and count. -/
def Op.takeBlocks (r : Rel) : Op :=
  Op.all [Op.mod fun s => { s with ctx := r.ctx },
    Op.each r.rel fun p => Op.countEv 3 p.1 2 p.2, Op.each r.idle fun p => Op.countEv 3 p.1 3 p.2,
    Op.each r.err fun p => Op.all [Op.count (CTX_ERRORED p.1) p.2, Op.flag (CTX_STAT p.1) CTX_STAT_ERRORED, Op.countEv 3 p.1 5 p.2]]
/-- The words of the blocks that the positions will take are read (R250, R409, R414, R415): `es` are the entries of the positions. -/
def Op.readBlocks (es : List CalEnt) : Op := Op.dyn fun s =>
  let all := uniq (es.map (·.ctx))
  -- an elastic context's first position takes its sequence block
  Op.each all fun c =>
    let k := (es.filter fun e => e.ctx == c).length - (if (es.any fun e => e.ctx == c && !e.com) then 1 else 0)
    Op.each ((s.ctxS c).queue.take k) fun b => Op.eccRead none (bufKey b.word) 0
/-- The blocks of the positions, after their words have been read: the contexts they leave and the blocks in order. -/
def Op.blocksOf (es : List CalEnt) (k : Rel → Op) : Op :=
  Op.thn (Op.readBlocks es) (Op.dyn fun s =>
    let r := es.foldl relPos ⟨s.ctx, [], [], [], [], []⟩
    Op.thn (Op.takeBlocks r) (k r))
/-- The release of the superframe that ends (R245–R248), with its run when `last`: the end of a run is known only then. The blocks and
the fill bits behind them are the superframe's data bits (R128, R246). -/
def Op.release (n : Nat) (last : Bool) : Op := Op.dyn fun s =>
  let e := s.engS n
  let sn := (s.sfTx n).toNat
  let fin := last || sn == 2 ^ 24 - 1
  let x := s.positions n e.runSn.toNat sn fin e.dealTx
  let fl := x.2.2.1 - 66 * x.1.length
  Op.blocksOf x.1 fun r => Op.all [
    Op.eng n (fun e => { e with dealTx := x.2.1, fill := e.fill + fl + x.2.2.2 }),
    Op.sfClose n (r.out.reverse.flatMap Blk.bits ++ fillBits n e.fill fl) (fillBits n (e.fill + fl) x.2.2.2) fin,
    -- a superframe that the pipeline clear of R443 blanks carries nothing
    Op.when (!x.1.isEmpty && !e.hold) (Op.emit (.released n r.out.reverse))]
/-- Superframes `sn` to `sn + k - 1` of which the calendar has been read and that are never sent: their blocks and their fill bits are gone
(R126, R128). -/
def Op.readAhead (n : Nat) : Nat → Nat → Op
  | _, 0 => Op.skip
  | sn, k + 1 => Op.dyn fun s =>
    let x := s.positions n (s.engS n).runSn.toNat sn false (s.engS n).dealTx
    let fl := x.2.2.1 - 66 * x.1.length + x.2.2.2
    Op.blocksOf x.1 fun _ => Op.thn (Op.eng n fun e => { e with dealTx := x.2.1, fill := e.fill + fl }) (Op.readAhead n (sn + 1) k)
/-- A run starts at superframe `sn` (R214, R245). -/
def Op.runStart (n : Nat) (sn : BitVec 24) : Op := Op.eng n fun e => { e with runSn := sn, dealTx := ⟨0, 0⟩ }

/-! Rows. -/

/-- A block arrives for a context (R252) over a port or a PHY of its group, with what the FEC of each has counted since (R283). -/
def execClientBlockArrival (c : Fin 4096) (b : Blk) (phy : Fin 32) (rs : List RsCount) (s : State) :=
  (Op.dyn fun s => Op.all [Op.each ((List.range rs.length).zip rs) fun r => Op.rsCount (s.phyOf (s.ctxPort c) r.1) r.2,
    Op.when (!s.noBlk c b) (Op.countPort (s.phyOf (s.ctxPort c) phy) 0 1), Op.blockIn c b]).next s

end Sys2Proof.Machine
end

