-- ==== Sys2Proof/Machine/Lanes.lean ====
section
/-! DEFINITION. The lanes of the host ports: lane states and alignment (R278–R281, R283), PAM4 symbols and the scrambler (R273, R274),
native block mode in both directions (R280, R281), the test loops (R285), and what a transmitter sends (R277, R287). -/
namespace Sys2Proof.Machine

/-- The enabled port that lane `l` of harness `h` belongs to, by its first lane (R275). -/
def State.portAt (s : State) (h l : Nat) : Option Nat :=
  (List.range 64).find? fun q => let w := s.reg (PORT_CFG h q)
    bitFld w PORT_CFG_EN && Nat.ble q l && Nat.blt l (q + portLanes w)
/-- The port numbers by which a context names the port of first lane `q`, or its FlexE group (R276, R282). -/
def portNames (h q : Nat) (w : W) : List Nat :=
  if getFld w PORT_CFG_TYPE == 3 then [64 * h + q, 64 * h + getFld w PORT_CFG_GROUP] else [64 * h + q]
/-- The contexts, not IDLE, of a port or its group. -/
def State.portCtx (s : State) (h q : Nat) : List Nat :=
  s.ctxLive.filter fun c => (portNames h q (s.reg (PORT_CFG h q))).contains (s.ctxPort c)
/-- Is a context of the lane's port, or of its group, not IDLE (R286, R288)? -/
def State.laneUsed (s : State) (h l : Nat) : Bool :=
  match s.portAt h l with | some q => !(s.portCtx h q).isEmpty | none => false
def State.laneState (s : State) (h l : Nat) : Nat := s.fld (LANE_STAT h l) LANE_STAT_STATE
def State.lanePower (s : State) (h l : Nat) : Nat := s.fld (LANE_STAT h l) LANE_STAT_PSTATE

/-! Alignment (R279, R281, R283). -/

/-- Have all lanes of a native port a marker, and do these lie within 16 blocks of each other (R281)? Markers come every 34 blocks. -/
def marksNear (m : List (Option (Nat × Nat))) : Bool :=
  let ts := m.filterMap fun x => x.map (·.2)
  ts.length == m.length && ts.any fun a => ts.all fun b => Nat.ble ((b + 33 * a) % 34) 16
/-- Is the port of first lane `q` aligned? -/
def State.portAligned (s : State) (h q : Nat) : Bool :=
  let w := s.reg (PORT_CFG h q)
  let ls := (List.range (portLanes w)).map (q + ·)
  bitFld w PORT_CFG_EN && ls.all (fun l => s.laneState h l == 3)
    && (if getFld w PORT_CFG_TYPE == 4 then marksNear (ls.map fun l => (s.laneS (64 * h + l)).marker) else (s.laneS (64 * h + q)).locked)
/-- The lanes of a native port take up the same groups (R281): one whose marker of the latest set is still to come drops what it holds. -/
def Op.deskew (h q : Nat) : Op := Op.dyn fun s =>
  let ls := (List.range (portLanes (s.reg (PORT_CFG h q)))).map (64 * h + q + ·)
  let ts := ls.map fun l => match (s.laneS l).marker with | some m => m.2 | none => 0
  match ts.find? fun a => ts.all fun b => Nat.ble ((b + 33 * a) % 34) 16 with
  | none => Op.skip
  | some a =>
    let at_ := fun b => b - (b + 33 * a) % 34
    let top := ts.foldl (fun m b => Nat.max m (at_ b)) 0
    Op.each (ls.zip ts) fun p => Op.when (Nat.blt (at_ p.2) top) (Op.lane p.1 fun x => { x with wait := true, fifo := [] })
/-- GROUP_UP of the FlexE group that names first lane `g` (PRESUMED, log 17). -/
def Op.groupUp (h g : Nat) : Op := Op.dyn fun t =>
  Op.setB (PORT_STAT h g) PORT_STAT_GROUP_UP (!(t.phys (64 * h + g)).isEmpty
    && (t.phys (64 * h + g)).all fun x => t.bit (PORT_STAT h x) PORT_STAT_ALIGNED)
/-- Bring ALIGNED, GROUP_UP and what follows from them up to date. A FlexE group is shown up while every PHY of it is aligned
(PRESUMED, log 17). -/
def Op.align (h q : Nat) : Op := Op.dyn fun s =>
  let was := s.bit (PORT_STAT h q) PORT_STAT_ALIGNED
  let now := s.portAligned h q
  let src := 0x400 + 64 * h + q
  let g := s.fld (PORT_CFG h q) PORT_CFG_GROUP
  let traffic := (s.portCtx h q).any fun c => s.ctxState c == 1
  Op.all [Op.setB (PORT_STAT h q) PORT_STAT_ALIGNED now, Op.when (was != now) (Op.event (48 + h) 13),
    Op.when (was && !now) (Op.thn (Op.flag (PORT_STAT h q) PORT_STAT_ALIGN_LOST) (Op.condSet src 0x18 (if traffic then 3 else 0) 0)),
    Op.when (!was && now) (Op.all [Op.condClear src 0x18 3 0, Op.condClear src 0x18 0 0,
      Op.when (s.fld (PORT_CFG h q) PORT_CFG_TYPE == 4) (Op.deskew h q)]),
    Op.when (s.fld (PORT_CFG h q) PORT_CFG_TYPE == 3) (Op.groupUp h g)]
def Op.alignLane (h l : Nat) : Op := Op.dyn fun s =>
  match s.portAt h l with | some q => Op.align h q | none => Op.skip

/-- A lane calibration that runs is stopped as ABORTED (R291). -/
def Op.laneCalStop (h l : Nat) : Op := Op.dyn fun s =>
  Op.when (s.bit (LANE_STAT h l) LANE_STAT_CAL_BUSY)
    (Op.thn (Op.setF (LANE_STAT h l) LANE_STAT_CAL_BUSY 0) (Op.setF (LANE_STAT h l) LANE_STAT_CAL_ERR 2))
/-- A lane enters a state (R278, R291, R398 line 12). -/
def Op.laneTo (h l st : Nat) : Op := Op.dyn fun s =>
  let was := s.laneState h l
  Op.when (was != st) (Op.all [
    Op.setF (LANE_STAT h l) LANE_STAT_STATE st, Op.event (48 + h) 12,
    Op.when (was == 3) (Op.flag (LANE_STAT h l) LANE_STAT_LOCK_LOST),
    Op.lane (64 * h + l) (fun x => { x with
      good := if st == 3 then x.good else 0
      marker := if was == 2 && st == 3 then x.marker else none
      rxBits := if Nat.blt was 2 then [] else x.rxBits
      skip := x.skip && Nat.ble 2 was
      cdr := if st == 1 then false else if was == 1 then st == 2 else x.cdr }),
    Op.when (Nat.blt st 2) (Op.laneCalStop h l), Op.alignLane h l])

/-! PAM4 and the scrambler (R273, R274). -/

/-- PAM4 levels of bit pairs under the Gray code, first bit of each pair first. -/
def pamOf : List Bool → List (BitVec 2)
  | a :: b :: r => (if a then (if b then 2#2 else 3#2) else if b then 1#2 else 0#2) :: pamOf r
  | _ => []
/-- The bit pairs of PAM4 levels. -/
def pamBits (l : List (BitVec 2)) : List Bool := l.flatMap fun v => [v == 2#2 || v == 3#2, v == 1#2 || v == 2#2]
/-- Levels inverted by TX_INV or RX_INV: level k becomes 3 - k. -/
def pamInv (inv : Bool) (l : List (BitVec 2)) : List (BitVec 2) := if inv then l.map fun v => 3#2 - v else l
/-- The self-synchronous scrambler x^58 + x^39 + 1: the scrambled bits and the last 58 of them, newest in bit 0. -/
def scramble (z : BitVec 58) : List Bool → List Bool × BitVec 58
  | [] => ([], z)
  | b :: r =>
    let o := Bool.xor b (Bool.xor (z.getLsbD 38) (z.getLsbD 57))
    let t := scramble ((z <<< 1) ||| (if o then 1#58 else 0#58)) r
    (o :: t.1, t.2)
/-- The descrambler: the plain bits and the last 58 scrambled ones. -/
def descramble (z : BitVec 58) : List Bool → List Bool × BitVec 58
  | [] => ([], z)
  | b :: r =>
    let t := descramble ((z <<< 1) ||| (if b then 1#58 else 0#58)) r
    (Bool.xor b (Bool.xor (z.getLsbD 38) (z.getLsbD 57)) :: t.1, t.2)

/-! Native block mode, received (R280, R281). -/

/-- The native lane marker of a lane index (R281). -/
def markBlk (i : Nat) : Blk := ⟨2#2, BitVec.ofNat 64 (0x70000004B + i % 8 * 256)⟩
/-- Is a block a native lane marker? -/
def laneMarker (b : Blk) : Bool := b.hdr == 2#2 && b.pay &&& 0xFFFFFFFFFFFFF8FF#64 == 0x70000004B#64
/-- The lane index of a marker. -/
def markIdx (b : Blk) : Nat := b.pay.toNat / 256 % 8
/-- Lanes of a port in their logical order, by the markers they carry (R274). -/
def State.sorted (s : State) (ls : List Nat) : List Nat :=
  (List.range 8).flatMap fun i => ls.filter fun l => match (s.laneS l).marker with | some m => m.1 == i | none => false
/-- The stream of an aligned native port goes to its contexts (R281): a block from every lane in turn. -/
def Op.merge (h q : Nat) : Op := Op.dyn fun s =>
  let ls := s.sorted ((List.range (portLanes (s.reg (PORT_CFG h q)))).map (64 * h + q + ·))
  let k := ls.foldl (fun a l => Nat.min a (s.laneS l).fifo.length) 64
  let bs := (List.range k).flatMap fun r => ls.map fun l => (s.laneS l).fifo.getD r Blk.idle
  Op.when (s.bit (PORT_STAT h q) PORT_STAT_ALIGNED) (Op.all [
    Op.each ls fun l => Op.lane l fun x => { x with fifo := x.fifo.drop k },
    Op.each bs fun b => Op.thn (Op.when (!b.drop) (Op.countPort (64 * h + q) 0 1)) (Op.each (s.portCtx h q) fun c => Op.blockIn c b)])
/-- The block `b`, still scrambled, at the candidate position of a native lane, at block time `t` (R280, R281). -/
def Op.nativeBlk (h l q : Nat) (b : Blk) (t : Nat) : Op := Op.dyn fun s =>
  let st := s.laneState h l
  let ok := b.hdr == 1#2 || b.hdr == 2#2
  let x := s.laneS (64 * h + l)
  let d := descramble x.rxScr (b.bits.drop 2)
  let c := Blk.ofBits (b.bits.take 2 ++ d.1)
  let mk := laneMarker c
  let place := mk || x.num == 33
  let lost := !ok && st == 2
  let hist := (ok :: x.hist).take 64
  let inv := (hist.filter (!·)).length
  Op.all [
    Op.lane (64 * h + l) (fun x => { x with
      hist := hist
      good := if ok then x.good + 1 else 0
      slips := if lost then x.slips + 1 else x.slips
      skip := lost
      rxScr := d.2
      marker := if mk then some (markIdx c, t) else if lost then none else x.marker
      num := if place then 0 else x.num + 1
      wait := x.wait && !place
      -- while the port is not aligned only the blocks since the last marker are held
      fifo := if place then (if s.bit (PORT_STAT h q) PORT_STAT_ALIGNED then x.fifo else [])
        else if x.wait || x.marker.isNone || lost then [] else x.fifo ++ [c] }),
    Op.setF (LANE_STAT h l) LANE_STAT_INVALID inv,
    Op.when (!ok) (Op.countPort (64 * h + q) 5 1),
    if st == 2 then Op.when (ok && x.good == 63) (Op.laneTo h l 3)
    else Op.when (Nat.ble 16 inv) (Op.laneTo h l 2),
    Op.align h q, Op.merge h q]
/-- PAM4 levels reach the receiver of a lane. An Ethernet lane's bits go to its PCS (R273, R274). On a native lane, with the bits that it holds they fill the block at the candidate position, or not
yet. After an invalid header in HUNT the candidate slips by a bit. -/
def Op.laneRx (h l : Nat) (lv : List (BitVec 2)) (t : Nat) : Op := Op.dyn fun s =>
  match s.portAt h l with
  | none => Op.skip
  | some q =>
    let x := s.laneS (64 * h + l)
    let new := pamBits (pamInv (s.bit (LANE_CFG h l) LANE_CFG_RX_INV) lv)
    let bits := if x.skip then (x.rxBits ++ new).drop 1 else x.rxBits ++ new
    let ty := s.fld (PORT_CFG h q) PORT_CFG_TYPE
    if ty != 4 then Op.lane (64 * h + l) fun x => { x with rxPcs := Config.pcsRecv ty x.rxPcs new }
    else Op.when (Nat.ble 2 (s.laneState h l)) (
      if Nat.blt bits.length 66 then Op.lane (64 * h + l) fun x => { x with rxBits := bits, skip := x.skip && bits.isEmpty && new.isEmpty, now := t }
      else Op.thn (Op.lane (64 * h + l) fun x => { x with rxBits := bits.drop 66, skip := false, now := t })
        (Op.nativeBlk h l q (Blk.ofBits (bits.take 66)) t))

/-! The transmit side (R273, R274, R277, R281, R285, R287). -/

/-- What a lane's transmitter does: 0 sends, 1 electrical idle, 2 off (R287). -/
def State.laneTx (s : State) (h l : Nat) : Nat :=
  if !(s.laneS (64 * h + l)).tx || !s.inRun (domHrn h) then 2 else s.lanePower h l
/-- What shows at the lane's pads: electrical idle while they are held (R479). -/
def State.lanePads (s : State) (h l : Nat) : Nat := if s.padHeld h then 1 else s.laneTx h l
/-- Does a lane send its own data? In loop 3 they are discarded (R285). -/
def State.laneOwn (s : State) (h l : Nat) : Bool := s.laneTx h l == 0 && s.fld (LANE_CTL h l) LANE_CTL_LOOP != 3
/-- A lane that sends its own data sends bits: levels go to the pads, and in loops 1 and 2 to the lane's own receiver too (R273, R274,
R285). -/
def Op.laneOut (h l : Nat) (bits : List Bool) (t : Nat) : Op := Op.dyn fun s =>
  let lv := pamInv (s.bit (LANE_CFG h l) LANE_CFG_TX_INV) (pamOf bits)
  let lp := s.fld (LANE_CTL h l) LANE_CTL_LOOP
  Op.when (s.laneOwn h l) (Op.thn (Op.when (!s.padHeld h) (Op.emit (.lane (64 * h + l) lv)))
    (Op.when (lp == 1 || lp == 2) (Op.laneRx h l lv t)))
/-- A lane of a native port sends a block. -/
def Op.laneSend (h l : Nat) (b : Blk) (t : Nat) : Op := Op.dyn fun s =>
  let z := scramble (s.laneS (64 * h + l)).txScr (b.bits.drop 2)
  Op.thn (Op.when (s.laneOwn h l) (Op.lane (64 * h + l) fun x => { x with txScr := z.2 })) (Op.laneOut h l (b.bits.take 2 ++ z.1) t)
/-- One block period of a native port: the blocks of its stream, dealt to the lanes in index order, with idle blocks where there are
none. After 33 block periods every lane sends its marker (R281). -/
def Op.slot (h q : Nat) (bs : List Blk) : Op := Op.dyn fun s =>
  let ls := List.range (portLanes (s.reg (PORT_CFG h q)))
  let t := ls.foldl (fun a i => Nat.max a (s.laneS (64 * h + q + i)).now) 0
  let num := (s.laneS (64 * h + q)).txNum
  let mark := num == 33
  Op.all [
    Op.when mark (Op.each ls fun i => Op.laneSend h (q + i) (markBlk i) (t + 1)),
    Op.lane (64 * h + q) fun x => { x with txNum := if mark then 1 else num + 1 },
    Op.each ls fun i => Op.laneSend h (q + i) (bs.getD i Blk.idle) (if mark then t + 2 else t + 1)]
/-- One block period of a native port with the stream blocks that wait. -/
def Op.period (h q : Nat) : Op := Op.dyn fun s =>
  Op.thn (Op.lane (64 * h + q) fun x => { x with txq := [] }) (Op.slot h q (s.laneS (64 * h + q)).txq)
/-- The port of host lane `l` sends one block of its stream, or an idle block. On a native port it is the next lane's, and the lanes send
once each has one (R281). The PCS of an Ethernet port or FlexE PHY deals its bits to the lanes, with what IEEE 802.3 adds (log 71). -/
def Op.portSend (l : Nat) (b : Blk) : Op := Op.dyn fun s =>
  let h := l / 64
  let q := l % 64
  let w := s.portW l
  let ty := getFld w PORT_CFG_TYPE
  let x := s.laneS (64 * h + q)
  Op.when (bitFld w PORT_CFG_EN) (
    if ty == 4 then Op.thn (Op.lane (64 * h + q) fun x => { x with txq := x.txq ++ [b] })
      (Op.when (Nat.ble (portLanes w) (x.txq.length + 1)) (Op.period h q))
    else
      let r := Config.pcsSend ty x.txPcs b.bits
      Op.thn (Op.lane (64 * h + q) fun x => { x with txPcs := r.1 })
        (Op.each (List.range (portLanes w)) fun i => Op.laneOut h (q + i) (r.2.getD i []) 0))
/-- Show what a lane's transmitter does after `o`, where that changes it. One that begins to send sends idle blocks at once, of which a block
period is shown; a port whose first lane begins numbers its blocks, or starts its PCS, from there (R277, R281). -/
def Op.txMode (h l : Nat) (o : Op) : Op := Op.dyn fun s =>
  Op.thn o (Op.dyn fun t =>
    Op.thn (Op.when (t.lanePads h l != s.lanePads h l) (Op.emit (.laneTx (64 * h + l) (t.lanePads h l))))
      (Op.when (t.laneTx h l == 0 && s.laneTx h l != 0) (match t.portAt h l with
        | none => Op.skip
        | some q => Op.thn
          (Op.when ((List.range (portLanes (t.reg (PORT_CFG h q)))).all fun i => q + i == l || t.laneTx h (q + i) != 0)
            (Op.lane (64 * h + q) fun x => { x with txNum := 0, txPcs := 0, txq := [] }))
          (if t.fld (PORT_CFG h q) PORT_CFG_TYPE == 4 then Op.period h q else Op.portSend (64 * h + q) Blk.idle))))
/-- Show what the pads of a harness do after `o`, a change of domain `d`, where that changes them. -/
def Op.padShow (d : Nat) (o : Op) : Op := if Nat.ble 48 d && Nat.blt d 52 then Op.dyn fun s =>
    Op.thn o (Op.dyn fun t => Op.each (List.range 64) fun l =>
      Op.when (t.lanePads (d - 48) l != s.lanePads (d - 48) l) (Op.emit (.laneTx (64 * (d - 48) + l) (t.lanePads (d - 48) l))))
  else o

end Sys2Proof.Machine
end

