-- ==== Sys2Proof/Machine/Harness.lean ====
section
/-! DEFINITION. The registers and events of host lanes and ports (R275–R297) and the PCIe management port (R298–R302). -/
namespace Sys2Proof.Machine

/-! Ports (R275, R276). -/

/-- The cases of R276 in which a port word with EN = 1 is bad. -/
def State.portBad (s : State) (h q : Nat) (v : W) : Bool :=
  let n := portLanes v
  let t := getFld v PORT_CFG_TYPE
  let g := getFld v PORT_CFG_GROUP
  let w := s.reg (PORT_CFG h g)
  q % n != 0 || Nat.blt 4 t
    || ((List.range 64).any fun x => let u := s.reg (PORT_CFG h x)
        x != q && bitFld u PORT_CFG_EN && Nat.blt x (q + n) && Nat.blt q (x + portLanes u))
    || (t == 3 && g != q && !(bitFld w PORT_CFG_EN && getFld w PORT_CFG_TYPE == 3 && getFld w PORT_CFG_GROUP == g))
    || (t == 3 && Nat.ble 32 ((s.phys (64 * h + g)).filter (· != q)).length)
/-- A write of PORT_CFG (R276). -/
def Op.portCfg (h q : Nat) (v : W) : Op := Op.dyn fun s =>
  let busy := !(s.portCtx h q).isEmpty
  let bad := v.getLsbD 31 && s.portBad h q v
  Op.all [Op.when busy (Op.flag (HRN_STAT h) HRN_STAT_PORT_BUSY), Op.when bad (Op.flag (HRN_STAT h) HRN_STAT_PORT_BAD),
    Op.when (!busy && !bad) (Op.all [Op.wr (PORT_CFG h q) v, Op.align h q,
      -- the groups that the PHY leaves and joins (R293)
      Op.groupUp h (s.fld (PORT_CFG h q) PORT_CFG_GROUP), Op.groupUp h (getFld v PORT_CFG_GROUP)])]

/-! Lanes (R277, R278, R280, R281). -/

/-- A write of LANE_CFG (R277). A lane whose EN is written 1 while it belongs to no enabled port stays OFF and does not send, also when its
port is enabled later, until LANE_CFG is written again (DESIGN CHOICE, log 69). -/
def Op.laneCfg (h l : Nat) (v : W) : Op := Op.txMode h l (Op.dyn fun s =>
  let en := v.getLsbD 31
  Op.all [Op.wr (LANE_CFG h l) v, Op.lane (64 * h + l) fun x => { x with tx := en && (x.tx || (s.portAt h l).isSome) },
    if !en then Op.laneTo h l 0
    else Op.when (s.laneState h l == 0 && s.lanePower h l == 0 && (s.portAt h l).isSome) (Op.laneTo h l 1)])
/-- A block period at a lane, of levels `lv` at the pads (R280, R285). In loops 1 and 2 the pads are ignored: the port sends what waits, or
idle blocks, and the receiver takes it. In loop 3 the received data go back to the pads. -/
def Op.blockPeriod (h l : Nat) (lv : List (BitVec 2)) (t : Nat) : Op := Op.dyn fun s =>
  match s.portAt h l with
  | none => Op.skip
  | some q =>
    let lp := s.fld (LANE_CTL h l) LANE_CTL_LOOP
    let inv := Bool.xor (s.bit (LANE_CFG h l) LANE_CFG_RX_INV) (s.bit (LANE_CFG h l) LANE_CFG_TX_INV)
    if lp == 1 || lp == 2 then (if s.fld (PORT_CFG h q) PORT_CFG_TYPE == 4 then Op.period h q else Op.portSend (64 * h + q) Blk.idle)
    else Op.thn (Op.when (lp == 3 && s.lanePads h l == 0) (Op.emit (.lane (64 * h + l) (pamInv inv lv)))) (Op.laneRx h l lv t)
/-- Marker lock of an Ethernet lane, and the PCS's deskew and FEC lock of its port (R279), with what its FEC has counted since (R283). -/
def Op.ethLock (h l : Nat) (locked deskewed : Bool) (rs : RsCount) : Op := Op.dyn fun s =>
  let st := s.laneState h l
  match s.portAt h l with
  | none => Op.skip
  | some q => Op.when (s.fld (PORT_CFG h q) PORT_CFG_TYPE != 4) (Op.all [
      Op.rsCount (64 * h + q) rs, Op.lane (64 * h + q) fun x => { x with locked := deskewed },
      Op.when (st == 2 && locked) (Op.laneTo h l 3), Op.when (st == 3 && !locked) (Op.laneTo h l 2), Op.align h q])
/-- No signal for 1 µs (R278): the CDR is out of lock. -/
def Op.sigLoss (h l : Nat) : Op := Op.dyn fun s =>
  Op.thn (Op.lane (64 * h + l) fun x => { x with cdr := false }) (Op.when (Nat.ble 2 (s.laneState h l)) (Op.laneTo h l 1))
/-- The local fault ordered set that an unaligned port writes into its ACTIVE contexts, within credit (R282). -/
def Op.lfInsert (h q : Nat) : Op := Op.dyn fun s =>
  Op.when (s.bit (PORT_CFG h q) PORT_CFG_EN && !s.bit (PORT_STAT h q) PORT_STAT_ALIGNED)
    (Op.each (s.portCtx h q) fun c => Op.dyn fun t => Op.when (t.ctxState c == 1 && t.credit c) (Op.accept c Blk.lf))

/-! Transmit equaliser (R284). -/

/-- The five taps of LANE_TXEQ. -/
def eqTaps (v : W) : List Int :=
  [LANE_TXEQ_C_M3, LANE_TXEQ_C_M2, LANE_TXEQ_C_M1, LANE_TXEQ_C_0, LANE_TXEQ_C_P1].map fun f => sgn 6 (getFld v f)
/-- Where a ramp stands after its `k` steps, as numerators over 16^(e+1). -/
def rampNow (r : List Int × Nat × W × Nat) : List Int × Nat :=
  (List.zipWith (fun a b => a * (16 - (r.2.2.2 : Int)) + b * 16 ^ r.2.1 * (r.2.2.2 : Int)) r.1 (eqTaps r.2.2.1), r.2.1 + 1)
/-- A write of LANE_TXEQ (R284, R297). -/
def Op.txeq (h l : Nat) (v : W) : Op := Op.dyn fun s =>
  let x := s.laneS (64 * h + l)
  let old := match x.ramp with | some r => rampNow r | none => (eqTaps (s.reg (LANE_TXEQ h l)), 0)
  if Nat.blt 32 ((eqTaps v).foldl (fun a t => a + t.natAbs) 0) then Op.flag (LANE_STAT h l) LANE_STAT_TXEQ_BAD
  else Op.thn (Op.wr (LANE_TXEQ h l) v) (Op.lane (64 * h + l) fun x => { x with ramp := some (old.1, old.2, v, 0) })
/-- One step of the ramp. -/
def Op.txeqStep (h l : Nat) : Op := Op.lane (64 * h + l) fun x =>
  { x with ramp := match x.ramp with
      | some r => if Nat.ble 15 r.2.2.2 then none else some (r.1, r.2.1, r.2.2.1, r.2.2.2 + 1)
      | none => none }

/-! LANE_CTL (R285–R291): ABORT, LOOP, POWER and GO are acted on in this order. -/

def Op.laneLoop (h l v : Nat) : Op := Op.dyn fun s =>
  if v != 0 && s.laneUsed h l then Op.flag (LANE_STAT h l) LANE_STAT_CTL_REFUSED
  else Op.when (s.fld (LANE_CTL h l) LANE_CTL_LOOP != v) (Op.all [Op.setF (LANE_CTL h l) LANE_CTL_LOOP v, Op.laneCalStop h l,
    Op.when ((v == 1 || v == 2) && s.laneState h l != 0) (Op.laneTo h l 1)])
def Op.lanePwr (h l v : Nat) : Op := Op.txMode h l (Op.dyn fun s =>
  let was := s.lanePower h l
  if v == 3 || (v != 0 && (s.laneUsed h l || s.bit (LANE_STAT h l) LANE_STAT_CAL_BUSY)) then
    Op.flag (LANE_STAT h l) LANE_STAT_CTL_REFUSED
  else Op.all [Op.setF (LANE_CTL h l) LANE_CTL_POWER v, Op.setF (LANE_STAT h l) LANE_STAT_PSTATE v,
    Op.when (v != 0) (Op.laneTo h l 0),
    Op.when (v == 2) (Op.lane (64 * h + l) fun x => { x with cdr := false }),
    Op.when (v == 0 && was != 0 && s.bit (LANE_CFG h l) LANE_CFG_EN)
      (Op.laneTo h l (if was == 1 && (s.laneS (64 * h + l)).cdr then 2 else 1))])
/-- CAL_GO (R291): while a calibration runs it clears CAL_ERR, and the calibration goes on (DESIGN CHOICE, log 69). -/
def Op.laneCal (h l : Nat) : Op := Op.dyn fun s =>
  if s.lanePower h l != 0 || Nat.blt (s.laneState h l) 2 then
    Op.thn (Op.setF (LANE_STAT h l) LANE_STAT_CAL_ERR 1) (Op.flag (LANE_STAT h l) LANE_STAT_CTL_REFUSED)
  else Op.thn (Op.setF (LANE_STAT h l) LANE_STAT_CAL_ERR 0) (Op.flag (LANE_STAT h l) LANE_STAT_CAL_BUSY)
/-- A write of LANE_CTL. -/
def Op.laneCtl (h l : Nat) (v : W) : Op :=
  Op.all [Op.when (v.getLsbD 30) (Op.laneCalStop h l), Op.laneLoop h l (getFld v LANE_CTL_LOOP),
    Op.lanePwr h l (getFld v LANE_CTL_POWER), Op.when (v.getLsbD 31) (Op.laneCal h l)]
/-- The middle of the places of a list at which a test holds; 0 where there are none. -/
def midIdx {α : Type} (f : α → Bool) (l : List α) : Nat :=
  let is := (l.zipIdx.filter fun x => f x.1).map (·.2)
  (is.headD 0 + is.getLastD 0) / 2
/-- Is a point of the sweep inside the eye: mismatches in 2^20 UI of at most 1e-6 (R290)? -/
def eyeOpen (m : Nat) : Bool := Nat.ble (m * 1000000) 1048576
/-- Height in 0.1 mV and width in mUI of an eye (R290): the open points times the step. Its centre phase is the middle of the phases with an
open point, and its centre threshold the middle of those open at that phase (DESIGN CHOICE, log 71). -/
def eyeSize (e : EyeScan) : BitVec 16 × BitVec 16 :=
  let p := e.getD (midIdx (fun r => r.any eyeOpen) e) []
  let t := midIdx eyeOpen p
  (BitVec.ofNat 16 (5 * (p.filter eyeOpen).length),
   BitVec.ofInt 16 (openRound 17 (1000 * ((e.filter fun r => match r[t]? with | some m => eyeOpen m | none => false).length : Nat) : Int) 64))
/-- A lane calibration ends (R290, R291): height and width per eye. -/
def Op.laneCalEnd (h l : Nat) (eyes : List EyeScan) : Op := Op.dyn fun s =>
  let e := fun i => eyeSize (eyes.getD i [])
  Op.when (s.bit (LANE_STAT h l) LANE_STAT_CAL_BUSY) (Op.all [
    Op.each (List.range 3) fun i => Op.wr (LANE_EYE h l i) ((e i).1 ++ (e i).2),
    Op.setF (LANE_STAT h l) LANE_STAT_CAL_BUSY 0, Op.flag (LANE_STAT h l) LANE_STAT_CAL_DONE,
    Op.when ((List.range 3).any fun i => Nat.blt (e i).1.toNat 60 || Nat.blt (e i).2.toNat 150)
      (Op.flag (LANE_STAT h l) LANE_STAT_EYE_LOW)])

/-! The PCIe port (R298–R302). -/

/-- The constant words of the configuration header (R298): device and vendor, class code and revision, subsystem. -/
def pcieHead (a : Nat) : W :=
  if a == 0x00 then 0x51201F3C#32 else if a == 0x08 then 0x028000B0#32 else if a == 0x2C then 0x51201F3C#32 else 0
/-- Largest payload and read request in bytes (R298), and the lane counts that the port trains to. -/
def pcieMaxPayload : Nat := 512
def pcieMaxReadReq : Nat := 4096
def pcieWidths : List Nat := [1, 2, 4, 8]
/-- Reset the port's configuration space (R301). -/
def Op.pcieReset : Op := Op.mod fun s => { s with pcie := .init }

/-- Reset the port's MSI-X state (R301). -/
def Op.msixReset : Op := Op.wipe (fun a => !(Nat.ble (MSIX_TABLE 0) a && Nat.blt a (MSIX_PBA 8))) (fun _ => true)
/-- The link goes down (R302): DOWN_CNT counts it where it was up. -/
def Op.linkDown : Op := Op.dyn fun s =>
  Op.thn (Op.when (s.bit PCIE_STAT PCIE_STAT_LINK_UP) (Op.addF PCIE_STAT PCIE_STAT_DOWN_CNT 1))
    (Op.setF PCIE_STAT ⟨31, 16⟩ 0)

/-! Rows. -/

/-- A write of PORT_CFG (R276). -/
def execPortCfgWrite (p : Party) (h : Harn) (q : Fin 64) (v : W) (s : State) :=
  (Op.gate p (PORT_CFG h q) true (domHrn h) (Op.portCfg h q v)).next s
/-- A write of LANE_CFG (R277). -/
def execLaneCfgWrite (p : Party) (h : Harn) (l : Fin 64) (v : W) (s : State) :=
  (Op.gate p (LANE_CFG h l) true (domHrn h) (Op.laneCfg h l v)).next s
/-- CTLE, DFE and CDR have converged (R278): the CDR pulls in a difference of at most 300 ppm from the lane's nominal rate (R272). -/
def execLaneAdaptDone (h : Harn) (l : Fin 64) (ppm : Int) (s : State) :=
  (Op.dyn fun s => Op.when (s.laneState h l == 1 && Nat.ble ppm.natAbs 300) (Op.laneTo h l 2)).next s
/-- An Ethernet lane's lock changes (R279). -/
def execEthLaneLockChange (h : Harn) (l : Fin 64) (locked deskewed : Bool) (rs : RsCount) (s : State) :=
  (Op.ethLock h l locked deskewed rs).next s
/-- The 33 PAM4 levels of one block period at a native lane (R273, R280). -/
def execNativeBlockReceive (h : Harn) (l : Fin 64) (levels : List (BitVec 2)) (t : Nat) (s : State) := (Op.blockPeriod h l levels t).next s
/-- No signal (R278). -/
def execLaneSignalLoss (h : Harn) (l : Fin 64) (s : State) := (Op.sigLoss h l).next s
/-- Local fault into the contexts of an unaligned port (R282). -/
def execLocalFaultInsert (h : Harn) (q : Fin 64) (s : State) := (Op.lfInsert h q).next s
/-- A write of LANE_TXEQ (R284). -/
def execLaneTxeqWrite (p : Party) (h : Harn) (l : Fin 64) (v : W) (s : State) :=
  (Op.gate p (LANE_TXEQ h l) true (domHrn h) (Op.txeq h l v)).next s
/-- A step of the equaliser's ramp (R284). -/
def execTxeqStep (h : Harn) (l : Fin 64) (s : State) := (Op.txeqStep h l).next s
/-- LANE_CTL.LOOP written (R286). -/
def execLaneLoopWrite (p : Party) (h : Harn) (l : Fin 64) (v : W) (s : State) :=
  (Op.gate p (LANE_CTL h l) true (domHrn h) (Op.laneCtl h l v)).next s
/-- LANE_CTL.POWER written (R288). -/
def execLanePowerWrite (p : Party) (h : Harn) (l : Fin 64) (v : W) (s : State) :=
  (Op.gate p (LANE_CTL h l) true (domHrn h) (Op.laneCtl h l v)).next s
/-- CAL_GO (R291). -/
def execLaneCalGo (p : Party) (h : Harn) (l : Fin 64) (v : W) (s : State) :=
  (Op.gate p (LANE_CTL h l) true (domHrn h) (Op.laneCtl h l (v ||| 0x80000000#32))).next s
/-- CAL_ABORT (R291). -/
def execLaneCalAbort (p : Party) (h : Harn) (l : Fin 64) (v : W) (s : State) :=
  (Op.gate p (LANE_CTL h l) true (domHrn h) (Op.laneCtl h l (v ||| 0x40000000#32))).next s
/-- A lane calibration ends (R290). -/
def execLaneCalDone (h : Harn) (l : Fin 64) (eyes : List EyeScan) (s : State) := (Op.laneCalEnd h l eyes).next s
/-- PERST_N (R301): the link goes down. -/
def execPciePerst (s : State) := (Op.all [Op.msixReset, Op.pcieReset, Op.linkDown]).next s
/-- A hot reset (R301): the link goes down. -/
def execPcieHotReset (s : State) := (Op.all [Op.msixReset, Op.pcieReset, Op.linkDown]).next s
/-- A Function Level Reset (R301): the link stays up. -/
def execPcieFlr (s : State) := (Op.thn Op.msixReset Op.pcieReset).next s
/-- The link is lost (R301). -/
def execPcieLinkDown (s : State) := (Op.all [Op.msixReset, Op.pcieReset, Op.linkDown]).next s
/-- The link trains to a speed and width of R298 once the always-on domain is ready (R302, R529). -/
def execPcieLinkUp (speed : Fin 7) (width : BitVec 4) (flit : Bool) (s : State) :=
  (Op.hub (Op.dyn fun s => Op.when (s.pwr.ready && Nat.ble 1 speed && pcieWidths.contains width.toNat) <| Op.all [Op.setF PCIE_STAT PCIE_STAT_SPEED speed, Op.setF PCIE_STAT PCIE_STAT_WIDTH width.toNat,
    Op.flag PCIE_STAT PCIE_STAT_LINK_UP, Op.setB PCIE_STAT PCIE_STAT_FLIT flit])).next s

end Sys2Proof.Machine
end

