-- ==== Sys2Proof/Machine/Delivery.lean ====
section
/-! DEFINITION. The egress side of the client contexts: rein blocks (R253), the contexts' commands (R241, R266), windows and credits
(R251–R257), and delivery (R249, R250). -/
namespace Sys2Proof.Machine

/-! Rein blocks (R253). -/

/-- The payload of a rein block. -/
def reinPay (lim c : Nat) (drain closed : Bool) : BitVec 64 :=
  let v := 0x4B + lim % 2 ^ 24 * 2 ^ 8 + 5 * 2 ^ 32 + c % 4096 * 2 ^ 36 + (if drain then 2 ^ 48 else 0)
    + (if closed then 2 ^ 49 else 0)
  let chk := [1, 2, 3, 4, 5, 6].foldl (fun a i => a ^^^ (v / 2 ^ (8 * i) % 256)) 0
  BitVec.ofNat 64 (v + chk * 2 ^ 56)
def Op.rein (c : Nat) (closed : Bool) : Op := Op.dyn fun s =>
  let pay := reinPay (s.fld (CTX_LIM c) CTX_LIM_LIM) c (Nat.ble 2 (s.ctxState c)) closed
  Op.thn (Op.emit (.rein c pay)) (Op.onPhy (s.ctxPort c) fun l => Op.portSend l ⟨2#2, pay⟩)
/-- A block goes out in a context's egress stream, and to its port: a client block is counted (R492). -/
def Op.egress (c : Nat) (client : Bool) (b : Blk) : Op := Op.dyn fun s =>
  Op.thn (Op.emit (.egress c b)) (Op.onPhy (s.ctxPort c) fun l =>
    Op.thn (Op.when client (Op.thn (Op.countEv 3 c 4 1) (Op.countPort l 1 1))) (Op.portSend l b))

/-! Commands (R241, R265, R267). -/

/-- A context enters a state (R398: line 12 of the mapper's drone). -/
def Op.ctxTo (c st : Nat) : Op := Op.thn (Op.setF (CTX_STAT c) CTX_STAT_STATE st) (Op.event 53 12)
/-- Put a context's queue, merge state and counts back to their start (R241, R261). -/
def Op.ctxClear (c : Nat) : Op :=
  Op.all [Op.ctx c fun _ => .init, Op.wr (CTX_LIM c) 0, Op.wr (CTX_ACC c) 0]
/-- Does an active or pending calendar entry name the context? -/
def State.inCalendar (s : State) (c : Nat) : Bool :=
  [(false, 13), (true, 14)].any fun d => (s.calAll d.1 false).any (fun e => e.ctx == c)
    || (s.calAll d.1 true).any (fun e => e.ctx == c && s.pendBlk e.eng d.2)
/-- A write of CLI_CMD (R241, R266). -/
def Op.cliCmd (v : W) : Op := Op.dyn fun s =>
  let c := getFld v CLI_CMD_CTX
  let op := getFld v CLI_CMD_OP
  let st := s.ctxState c
  let err := fun (k : Nat) => Op.setF CLI_CMD_STAT CLI_CMD_STAT_ERR k
  if !v.getLsbD 31 then Op.skip
  else if op == 1 then
    (if st == 3 then Op.thn (Op.ctxTo c 1) (err 0)
     else if st != 0 then err 1
     else if s.ctxOk c then Op.all [Op.ctxClear c, Op.ctxTo c 1, err 0] else err 2)
  else if op == 2 then (if st == 1 then Op.thn (Op.ctxTo c 2) (err 0) else err 1)
  else if op == 3 then
    (if st == 0 then err 1
     else if s.inCalendar c then err 3
     else Op.all [Op.rein c true, Op.ctxClear c, Op.ctxTo c 0, err 0])
  else err 4
/-- The word of CLI_CMD for an operation. -/
def cliWord (op c : Nat) : W := BitVec.ofNat 32 (0x80000000 + op % 8 * 0x10000000 + c % 4096)
/-- A DRAINING context whose queue is empty and whose released blocks have left the framer (R265). -/
def Op.drained (c : Nat) : Op := Op.dyn fun s =>
  Op.when (s.ctxState c == 2 && (s.ctxS c).rd.toNat == s.fld (CTX_ACC c) CTX_ACC_ACC
    && (s.calAll false false).any (fun e => e.ctx == c)) (Op.ctxTo c 3)

/-! Windows and credits (R251, R256, R257). -/

/-- One engine of a context's schedule: slots now and after a change, symbols until the change, SR over 4,096. -/
structure Sched where
  now  : Nat
  thn  : Nat
  till : Nat
  sr   : Nat
/-- The schedule of a context on every engine that it occupies (R257): `el` are the symbols since each engine's last transmit
boundary. A change named in a negotiation counts while it shrinks, and from COMMITTED on in any case. -/
def State.schedule (s : State) (c : Nat) (el : List Nat) : List Sched :=
  let act := (s.calAll false false).filter fun e => e.ctx == c
  let sh := (s.calAll false true).filter fun e => e.ctx == c
  (List.range 48).filterMap fun n =>
    let a := (act.filter fun e => e.eng == n).length
    let b := (sh.filter fun e => e.eng == n).length
    let e := s.engS n
    let till := fun (x : BitVec 24) => s.lead n false x * 65536 - el.getD n 0
    let r := match e.swaps.find? fun p => p.blk == 13 with
      | some p => (b, match p.due with | .next => 65536 - el.getD n 0 | .named x => till x)
      | none => if e.prop.blocks.contains 13 then (Nat.min a b, till e.prop.s) else (a, 0)
    if a == 0 && r.1 == 0 then none else some ⟨a, r.1, r.2, s.engSr n⟩
/-- The part of an interval of `len` in which the context has entries on an engine, `d` of it before the change. -/
def Sched.held (x : Sched) (len d : Nat) : Nat := (if x.now == 0 then 0 else d) + (if x.thn == 0 then 0 else len - d)
/-- The window W (R256). Tq takes the engines that the context occupies now, or, before it occupies any, those of its schedule; an
engine takes a sequence position for each superframe in which the context has entries there. -/
def State.window (s : State) (c : Nat) (el : List Nat) : Nat :=
  let l := s.schedule c el
  let occ := if l.any fun x => x.now != 0 then l.filter fun x => x.now != 0 else l
  let q := l.foldl (fun a x => a * x.sr) 1
  let low := occ.foldl (fun a x => Nat.min a x.sr) (240 * 4096)
  let com := s.ctxCom c
  -- the interval, in ns over q
  let len := if com then 400 * q else s.fld (CTX_BOUND c) CTX_BOUND_BOUND * q - (200 * q + 131072 * 4096 * (q / low))
  let d := fun (x : Sched) => Nat.min len (x.till * 4096 * (q / x.sr))
  let area := l.foldl (fun a x => a + x.now * d x + x.thn * (len - d x)) 0
  let seq := if com then 0 else l.foldl (fun a x => a + (x.held len (d x) * x.sr + q * 268435456 - 1) / (q * 268435456)) 0
  5 * area / (66 * q) - seq
/-- A rein period (R251, R253). -/
def Op.reinPeriod (el : List Nat) : Op := Op.dyn fun s =>
  Op.each s.ctxLive fun c => Op.thn
    (Op.when (s.ctxState c == 1) (
      let v := ((s.ctxS c).rd.toNat + s.window c el) % 2 ^ 24
      Op.when (Nat.blt ((v + 2 ^ 24 - s.fld (CTX_LIM c) CTX_LIM_LIM) % 2 ^ 24) (2 ^ 23)) (Op.setF (CTX_LIM c) CTX_LIM_LIM v)))
    (Op.rein c false)

/-! Egress (R249, R250). -/

/-- A committed context's egress carrier is not READY (R250). -/
def State.carrierDown (s : State) (c : Nat) : Bool :=
  s.ctxState c != 0 && s.ctxCom c
    && (s.calAll true false).any fun e => e.ctx == c && !s.bit (RX_STAT e.eng) RX_STAT_READY
/-- Send blocks at the egress pad, through the editor. -/
def Op.sendOut (c : Nat) (q : QBlk) : Op := Op.dyn fun s =>
  let x := s.ctxS c
  let r := if s.ptpCtx c then frmStep true x.fout q s.stamp else (.init, x.fout.held ++ [q])
  Op.thn (Op.ctx c fun x => { x with fout := r.1 })
    (Op.each r.2 fun q => Op.egress c true (if q.bad then Blk.err else q.blk))
/-- Pass one block on (R250). -/
def Op.deliver (c : Nat) (b : QBlk) : Op :=
  Op.all [Op.when b.bad (Op.all [Op.count (CTX_ERRORED c) 1, Op.flag (CTX_STAT c) CTX_STAT_ERRORED, Op.countEv 3 c 5 1]),
    Op.sendOut c b]
/-- Insert a run in order of its distance from the expected number. -/
def insRun (ex : BitVec 24) (r : Run) : List Run → List Run
  | [] => [r]
  | x :: t => if Nat.blt (sub24 r.seq ex) (sub24 x.seq ex) then r :: x :: t else x :: insRun ex r t
/-- Where a run stands in the merging (R249): 0 its turn, 1 its turn once the last `slack` blocks passed are taken to have been idle
(DESIGN CHOICE, log 32), 2 too late, 3 to be held. -/
def runTurn (q ex : BitVec 24) (slack : Nat) : Nat :=
  if q == ex then 0 else if Nat.ble (sub24 ex q) slack then 1 else if Nat.ble (2 ^ 23) (sub24 q ex) then 2 else 3
/-- Pass on the runs whose turn it is (R249); at most as many as wait. A run that is too late, as an empty one behind another of the same
number, is dropped. -/
def Op.passRuns (c : Nat) : Nat → Op
  | 0 => Op.skip
  | k + 1 => Op.dyn fun s =>
    let x := s.ctxS c
    match x.runs with
    | [] => Op.skip
    | r :: t =>
      let w := runTurn r.seq x.seqRx x.slack
      if w == 3 then Op.skip
      else if w == 2 then Op.thn (Op.ctx c fun x => { x with runs := t }) (Op.passRuns c k)
      else Op.thn (Op.each r.bs fun b => Op.eccRead none (bufKey b.word) 0) (Op.dyn fun u =>
        -- the marks that the reads of its words have left
        let bs := match (u.ctxS c).runs with | r' :: _ => r'.bs | [] => r.bs
        Op.all [
          Op.ctx c fun x => { x with runs := t, seqRx := r.seq + BitVec.ofNat 24 r.bs.length, slack := r.slack },
          Op.each bs (Op.deliver c), Op.passRuns c k])
/-- A run of a context's blocks arrives (R22, R249, R250), of the class that its superframe's share had: a run whose sequence block is
errored counts as missing, and one that comes too late is dropped. One that is held is written into the client buffer (R260). -/
def Op.runIn (d : Deframed) : Op := Op.dyn fun s =>
  let c := d.ctx
  let x := s.ctxS c
  let w := runTurn d.seq x.seqRx x.slack
  let bs := d.bs.map fun b => (⟨b.1, b.2, false, 0⟩ : QBlk)
  let kept := keyed true c x.outN bs
  if s.ctxState c == 0 then Op.skip
  else if d.com then
    (if s.carrierDown c then Op.each bs fun _ => Op.egress c false Blk.lf else Op.each bs (Op.deliver c))
  else if d.bad || w == 2 then Op.skip
  else Op.all [Op.each kept fun b => Op.wordWritten (bufKey b.word) true true, Op.ctx c fun x =>
      let ex := if w == 1 then d.seq else x.seqRx
      { x with seqRx := ex, slack := if w == 1 then 0 else x.slack, outN := x.outN + kept.length
               runs := insRun ex ⟨d.seq, kept, d.slack, s.time.c⟩ x.runs },
    Op.passRuns c (x.runs.length + 1)]
/-- The deframer's first run of a context arrives over engine `n`. -/
def Op.runArrive (c n : Nat) : Op := Op.dyn fun s =>
  match (s.engS n).rxp.runs.find? fun d => d.ctx == c with
  | some d => Op.thn (Op.rxp n fun r => { r with runs := r.runs.erase d }) (Op.runIn d)
  | none => Op.skip
/-- Have 2.0 µs, 2,500 time clocks, passed since a later run arrived (R249)? -/
def State.gapDue (s : State) (c : Nat) : Bool := (s.ctxS c).runs.any fun r => Nat.ble 2500 (s.time.c - r.t)
/-- The expected number has not arrived (R249, R493). -/
def Op.seqGap (c : Nat) : Op := Op.dyn fun s =>
  let x := s.ctxS c
  match x.runs with
  | [] => Op.skip
  | r :: _ => Op.when (s.gapDue c) <|
    let miss := sub24 r.seq x.seqRx
    Op.all [Op.count (CTX_LOST c) miss, Op.flag (CTX_STAT c) CTX_STAT_SEQ_GAP, Op.countEv 3 c 6 miss,
      Op.ctx c fun x => { x with seqRx := r.seq, slack := 0 }, Op.passRuns c x.runs.length]
/-- While a carrier is not READY, the egress sends local fault to the committed contexts of its share (R250): once in a superframe. -/
def Op.carrierFault (n : Nat) : Op := Op.dyn fun s =>
  Op.when (!s.bit (RX_STAT n) RX_STAT_READY)
    (Op.each (uniq (((s.calAll true false).filter fun e => e.eng == n && e.com && s.ctxState e.ctx != 0).map (·.ctx)))
      fun c => Op.egress c false Blk.lf)

/-! Rows. -/

/-- CLI_CMD with ADMIT (R241). -/
def execAdmitCtx (_p : Party) (c : Fin 4096) (s : State) := (Op.hub (Op.cliCmd (cliWord 1 c))).next s
/-- CLI_CMD with DRAIN (R241, R265). -/
def execDrain (_p : Party) (c : Fin 4096) (s : State) := (Op.hub (Op.cliCmd (cliWord 2 c))).next s
/-- CLI_CMD with DELETE (R241, R261). -/
def execDelete (_p : Party) (c : Fin 4096) (s : State) := (Op.hub (Op.cliCmd (cliWord 3 c))).next s
/-- CLI_CMD with another OP (R266, R267). -/
def execCliBadOp (_p : Party) (op : Fin 8) (c : Fin 4096) (s : State) := (Op.hub (Op.cliCmd (cliWord op c))).next s
/-- A DRAINING context is drained (R265). -/
def execCtxDrained (c : Fin 4096) (s : State) := (Op.drained c).next s
/-- A rein period (R251). -/
def execReinPeriod (el : List Nat) (s : State) := (Op.reinPeriod el).next s
/-- A run arrives at the egress (R249). -/
def execSequenceRunArrival (c : Fin 4096) (n : Eng) (s : State) := (Op.runArrive c n).next s
/-- The gap limit of a missing sequence number (R249). -/
def execSeqGapTimeout (c : Fin 4096) (s : State) := (Op.seqGap c).next s

end Sys2Proof.Machine
end

