-- ==== Sys2Proof/Machine/SelfTest.lean ====
section
/-! DEFINITION. Putting a domain back to its start (R457, R476), and self-test: runs, their conditions, results and the
retirements that wait (R453–R463). -/
namespace Sys2Proof.Machine

/-! Domains put back to their start. -/

/-- Every word of a region is written 0 with valid check bits (R457, R476). -/
def Op.regionInit (r : Nat) : Op := Op.dyn fun s =>
  let lo := regionBase r
  let hi := lo + regionWords r * wordSz r
  Op.all [Op.wipe (fun _ => true) (fun k => Nat.blt k lo || Nat.ble hi k),
    Op.mod fun s => { s with poison := s.poison.filter fun k => Nat.blt k lo || Nat.ble hi k },
    Op.each ((List.range 32).filter fun e => s.bit (ECC_LOG_INFO r e) ECC_LOG_INFO_VALID) fun e =>
      Op.flag (ECC_LOG_INFO r e) ECC_LOG_INFO_ARMED,
    Op.when (!(s.wbOf r).isEmpty) (Op.thn (Op.count (FG_CANCEL_CNT r) (s.wbOf r).length) (Op.wbSet r fun _ => [])),
    Op.when (s.ecc.inj.any fun i => i.region == r)
      (Op.thn (Op.injDrop fun i => i.region == r) (Op.flag ECC_FLIP_STAT ECC_FLIP_STAT_LOST))]
/-- The registers from `lo` to below `hi` take their reset values, apart from those that `keep` selects. -/
def Op.regsInit (lo hi : Nat) (keep : Nat → Bool) : Op :=
  Op.wipe (fun a => Nat.blt a lo || Nat.ble hi a || keep a) (fun _ => true)
/-- The conditions of the sources that a test selects end (R438). -/
def Op.condsEnd (f : Nat → Bool) : Op := Op.dyn fun s =>
  Op.each (s.col.conds.filter fun k => f k.src) fun k => Op.condClear k.src k.kind k.cls k.detail.toNat
/-- Words of an engine that its self-test keeps (R457): slice maps and STRIP_MAP, and the controller's own registers, which
show the result (log 18). -/
def engKept (n a : Nat) : Bool :=
  let b := 0x1000000 + 0x80000 * n
  let o := a - b
  (Nat.ble 0x8020 o && Nat.blt o 0x8040) || (Nat.ble 0xC020 o && Nat.blt o 0xC040) || o == 0x60000 || o == 0x64000
    || (Nat.ble 0x60100 o && Nat.blt o 0x60124)
/-- What an engine's start leaves of its state beyond registers: what the hub holds for it. The fill generator runs free from power-up
(R128); FEC counts and margin are the pool's (R231, R232, R237); time transfer is the time unit's (R329); the runs of the transmitter are
counted on. -/
def EngSt.hub (e : EngSt) : EngSt :=
  { EngSt.init with fill := e.fill, fecErr := e.fecErr, fecBit := e.fecBit, ber := e.ber, uncSf := e.uncSf, marLo := e.marLo, marHi := e.marHi,
                    ltt := e.ltt, txGen := e.txGen }
/-- Latched words of the registers from `lo` to below `hi` are at reset again (R394). -/
def Op.latchInit (lo hi : Nat) : Op :=
  Op.mod fun s => { s with latch := s.latch.filter fun e => Nat.blt (e.1 % 0x100000000) lo || Nat.ble hi (e.1 % 0x100000000) }
/-- An engine starts anew: its registers, memories and everything beside them that it holds itself (R457, R476). -/
def Op.engInit (n : Nat) (keep : Bool) : Op :=
  Op.all [Op.regsInit (0x1000000 + 0x80000 * n) (0x1080000 + 0x80000 * n) (fun a => keep && engKept n a),
    Op.latchInit (0x1000000 + 0x80000 * n) (0x1080000 + 0x80000 * n), Op.eng n EngSt.hub, Op.regionInit n, Op.regionInit (0x30 + n),
    Op.condsEnd fun x => Nat.ble (srcEng n 0) x && Nat.blt x (srcEng n 16)]
/-- A harness starts anew. -/
def Op.hrnInit (h : Nat) : Op :=
  Op.all [Op.regsInit (0x3000000 + 0x100000 * h) (0x3100000 + 0x100000 * h) (fun _ => false),
    Op.each (List.range 64) fun l => Op.lane (64 * h + l) fun _ => .init,
    Op.condsEnd fun x => Nat.ble (0x400 + 64 * h) x && Nat.blt x (0x440 + 64 * h)]
/-- A cluster starts anew: cells zero, drones UNLOADED, IDLE_VALID 0. HIVE_DRN_HOV and the mailbox indices, which the hub holds, keep their
values, after Off too (DESIGN CHOICE, log 69). -/
def Op.cluInit (k : Nat) : Op :=
  Op.each ((List.range 8).map (8 * k + ·)) fun d =>
    Op.all [Op.regionInit (0x62 + d), Op.drn d (fun _ => .init), Op.wr (HIVE_DRN_STAT d) 0, Op.wr (HIVE_DRN_BUILD d) 0]

/-! Targets (R453, R455). -/

/-- The registers of controller `c` (R463): engines 0 to 47, then the hub. -/
def stBase (c : Nat) : Nat := if Nat.blt c 48 then EST_CMD c else HST_CMD
def stStat (c : Nat) : Nat := stBase c + 4
/-- The tests that a kind allows, and their pattern counts: REF, LOOP, MEM, LOGIC (R453). -/
def stTests (kind : Nat) : Nat :=
  match kind with
  | 0 => 15 | 1 => 1 | 2 => 1 | 3 => 8 | 8 => 12 | 9 => 12 | 10 => 12 | 11 => 10 | _ => 0
def stCounts (kind : Nat) : List Nat :=
  match kind with
  | 0 => [410, 8192, 5921280, 2228224]
  | 1 => [4, 0, 0, 0]
  | 2 => [4, 0, 0, 0]
  | 3 => [0, 0, 0, 65536]
  | 8 => [0, 0, 30720, 262144]
  | 9 => [0, 0, 245760, 2097152]
  | 10 => [0, 0, 1315840, 1048576]
  | 11 => [0, 65536, 0, 524288]
  | _ => [0, 0, 0, 0]
/-- The expected count of a run (R453, R454). -/
def stExp (kind tests : Nat) : Nat :=
  (List.range 4).foldl (fun a i => if tests.testBit i then a + (stCounts kind).getD i 0 else a) 0
/-- The MISR after words, each repeated (R454). -/
def misr (l : List (Nat × BitVec 64)) : BitVec 64 :=
  l.foldl (fun s p => Nat.repeat (fun x => misrStep x p.2) p.1 s) (BitVec.allOnes 64)
/-- The first `n` of repeated words. -/
def rlTake : Nat → List (Nat × BitVec 64) → List (Nat × BitVec 64)
  | _, [] => []
  | n, (k, w) :: l => if Nat.ble n k then (if n == 0 then [] else [(n, w)]) else (k, w) :: rlTake (n - k) l
/-- How many words there are. -/
def wordCount (l : List (Nat × BitVec 64)) : Nat := l.foldl (fun a p => a + p.1) 0
/-- The index of the first word that is not 0 (R463). -/
def firstBad : List (Nat × BitVec 64) → Option Nat
  | [] => none
  | p :: l => if p.2 != 0 && p.1 != 0 then some 0 else (firstBad l).map (· + p.1)
/-- The word of a measured quantity: 0 within its limit, else the code, zero-extended (R454). -/
def limWord (ok : Bool) (w : Nat) : BitVec 64 := if ok then 0 else BitVec.ofNat 64 w
def offWord (m : Int) : BitVec 64 := limWord (Nat.ble m.natAbs 6) (uns 8 m)
/-- The words of REF (R453): of an engine bandgap, PLL lock and the offsets of its slices; of a slice offset, the codes at REF of either sign
(within 2 % of 96), and noise. -/
def refWords (kind : Nat) (e : StEnd) : List (Nat × BitVec 64) :=
  if kind == 0 then (1, limWord e.bandgap.2 e.bandgap.1.toNat) :: (1, limWord e.pll.2 e.pll.1.toNat) :: e.ref.map fun p => (p.1, offWord p.2)
  else
    let l := (e.ref.flatMap fun p => List.replicate (Nat.min p.1 4) p.2).take 4
    let lvl := fun (v m : Int) => limWord (Nat.ble (100 * (m - v).natAbs) 192) (uns 8 m)
    l.mapIdx fun i m => (1, if i == 0 then offWord m else if i == 1 then lvl 96 m else if i == 2 then lvl (-96) m
      else limWord (decide (m ≤ 16)) m.toNat)
/-- The words of a compare from pattern `i` on (R454): the XOR of the data expected and read. -/
def cmpWords (exp : Nat → BitVec 64) : Nat → List (Nat × Option (BitVec 64)) → List (Nat × BitVec 64)
  | _, [] => []
  | i, (k, none) :: l => (k, 0) :: cmpWords exp (i + k) l
  | i, (_, some d) :: l => (1, exp i ^^^ d) :: cmpWords exp (i + 1) l
/-- What compare word `i` of LOOP expects (R453): 64 bits of the PRBS, each pair of an engine taking it from its start, 2,048 words long
(DESIGN CHOICE, log 18). -/
def loopExp (kind i : Nat) : BitVec 64 := if kind == 0 then BitVec.ofNat 64 (bitsVal (loopBits (64 * (i % 2048)) 64)) else Config.loopWord i
/-- What read `i` of March C- expects (R453): five reads of every word, of 0 and 1 in turn; the coefficient store's words of an engine, which
come first, have 32 bits. -/
def memExp (kind i : Nat) : BitVec 64 :=
  let n := (stCounts kind).getD 2 0 / 5
  if i / n % 2 == 0 then 0 else if kind == 0 && Nat.blt (i % n) 657920 then 0xFFFFFFFF#64 else BitVec.allOnes 64
/-- The words of test `t` of a run. -/
def testWords (kind t : Nat) (e : StEnd) : List (Nat × BitVec 64) :=
  rlTake ((stCounts kind).getD t 0) (match t with
    | 0 => refWords kind e | 1 => cmpWords (loopExp kind) 0 e.loop | 2 => cmpWords (memExp kind) 0 e.mem | _ => e.logic)
/-- The result words of a run (R453): its tests in order; one that does not come to its end is the last. -/
def runWords (kind tests : Nat) (e : StEnd) : List Nat → List (Nat × BitVec 64)
  | [] => []
  | t :: l =>
    if tests.testBit t then
      let w := testWords kind t e
      if wordCount w == (stCounts kind).getD t 0 then w ++ runWords kind tests e l else w
    else runWords kind tests e l
/-- The expected signature (R454): that of a run with LOGIC is in ROM (log 5). -/
def stSig (kind index tests : Nat) : BitVec 64 :=
  if tests.testBit 3 then Config.logicSig kind index tests else misr [(stExp kind tests, 0)]
/-- Is a target of R453 named: kind of this controller, index in range, tests allowed? -/
def stTarget (c kind index tests : Nat) : Bool :=
  tests != 0 && tests &&& stTests kind == tests && (if Nat.blt c 48 then Nat.blt kind 4 else Nat.ble 8 kind)
    && (match kind with
      | 0 => true
      | 1 => Nat.blt index 512 && Nat.blt (index % 128) 68
      | 2 => Nat.blt index 512 && Nat.blt (index % 128) 34
      | 3 => Nat.blt index 32
      | 8 => Nat.blt index 88
      | 9 => Nat.blt index 11
      | 10 => Nat.blt index 7
      | 11 => Nat.blt index 4
      | _ => false)
/-- The domain of a target (R470). -/
def stDom (c kind index : Nat) : Nat :=
  if Nat.blt c 48 then domEng c else if kind == 8 then domGrp (index / 8) else if kind == 9 then domGrp index
  else if kind == 10 then domClu index else domHrn index
/-- The whole-engine conditions of R455, apart from Run. -/
def State.engIdle (s : State) (n : Nat) : Bool :=
  !s.bit (TX_CTL n) TX_CTL_EN && !s.bit (TX_STAT n) TX_STAT_ON && !s.bit (RX_CTL n) RX_CTL_EN && s.capState n == 0
    && (s.engS n).calRun == 0 && !(List.range 15).any (s.pendBlk n)
    && [0, 0x4000].all (fun d => s.fld (POOL_DEC n + d) POOL_DEC_COUNT == 0 && s.fld (POOL_ENC n + d) POOL_ENC_LANES == 0)
    && ! [(false, false), (false, true), (true, false), (true, true)].any (fun p => (s.calAll p.1 p.2).any fun e => e.eng == n)
    && !s.bit (GLO_PAGE_STAT n) GLO_PAGE_STAT_IS_OPEN
/-- Is a slice or strip replaced in the copy of its map at distance `d`? -/
def State.mapped (s : State) (n kind index d : Nat) : Bool :=
  if kind == 1 then (List.range 4).any fun i => let w := s.reg (CONV_ADC_MAP n (index / 128) + d)
    bitFld w ⟨8 * i + 7, 8 * i + 7⟩ && getFld w ⟨8 * i + 5, 8 * i⟩ == index % 128
  else if kind == 2 then (List.range 2).any fun i => let w := s.reg (CONV_DAC_MAP n (index / 128) + d)
    bitFld w ⟨8 * i + 7, 8 * i + 7⟩ && getFld w ⟨8 * i + 4, 8 * i⟩ == index % 128
  else let w := s.reg (STRIP_MAP n + d)
    if index / 16 == 1 then bitFld w STRIP_MAP_RX_EN && getFld w STRIP_MAP_RX_STRIP == index % 16
    else bitFld w STRIP_MAP_TX_EN && getFld w STRIP_MAP_TX_STRIP == index % 16
/-- Is a unit FREE or RETIRED? -/
def State.unitIdle (s : State) (u : Nat) : Bool := [0, 3].contains (s.fld (POOL_UNIT u) POOL_UNIT_STATE)
/-- Does a target meet R455? -/
def State.stMeets (s : State) (c kind index : Nat) : Bool :=
  match kind with
  | 0 => s.inRun (domEng c) && s.engIdle c
  | 8 => s.unitIdle index
  | 9 => s.inRun (domGrp index) && (List.range 8).all fun i => s.unitIdle (8 * index + i)
  | 10 => s.inRun (domClu index) && (List.range 8).all fun i => [0, 3, 4].contains (s.drnHeld (8 * index + i))
  | 11 => s.inRun (domHrn index) && (List.range 64).all fun q => !s.bit (PORT_CFG index q) PORT_CFG_EN
  | _ => s.mapped c kind index 0 && s.mapped c kind index 0x4000

/-! Runs. -/

/-- The units of a target. -/
def stUnits (kind index : Nat) : List Nat :=
  if kind == 8 then [index] else if kind == 9 then (List.range 8).map (8 * index + ·) else []
/-- A run starts (R453, R454, R456). -/
def Op.stStart (c kind index tests : Nat) (retire : Bool) : Op := Op.dyn fun s =>
  let us := stUnits kind index
  let sig := stSig kind index tests
  let err := s.fld (stStat c) HST_STAT_ERR
  Op.all [
    Op.st c (fun x => { x with run := some ⟨kind, index, tests, retire, false, us.map fun u => s.fld (POOL_UNIT u) POOL_UNIT_STATE⟩ }),
    Op.each us fun u => Op.setF (POOL_UNIT u) POOL_UNIT_STATE 4, Op.when (!us.isEmpty) Op.poolWatch,
    -- ERR is that of the last GO
    Op.wr (stStat c) (0x80000000#32 ||| (if retire then BitVec.ofNat 32 (0x08000000 + err * 0x1000000) else 0#32)),
    Op.when (kind == 0 && tests.testBit 1) (Op.emit (.loopCodes c ((loopBits 0 131072).map fun b =>
      if s.bit (PWR_DOM (domEng c)) PWR_DOM_PAD_HOLD then 0 else if b then Config.loopAmp.val else -(Config.loopAmp.val : Int)))),
    Op.wr (stBase c + 0x08) 0, Op.wr (stBase c + 0x0C) (BitVec.ofNat 32 (stExp kind tests)),
    Op.wr (stBase c + 0x10) 0xFFFFFFFF#32, Op.wr (stBase c + 0x14) 0xFFFFFFFF#32,
    Op.wr (stBase c + 0x18) (sig.setWidth 32), Op.wr (stBase c + 0x1C) ((sig >>> 32).setWidth 32), Op.wr (stBase c + 0x20) 0]
/-- GO (R455, R461, R462): the refusal of lowest code. A domain target that is not in Run fails R455; NOT_RUN is for a part of
such a domain (DEDUCED, log 18). -/
def Op.stGo (c : Nat) (v : W) : Op := Op.dyn fun s =>
  let kind := getFld v HST_CMD_KIND
  let tests := getFld v HST_CMD_TESTS
  let index := getFld v HST_CMD_INDEX
  let err := fun (e : Nat) => Op.setF (stStat c) HST_STAT_ERR e
  if (s.stS c).run.isSome || !(s.stS c).wait.isEmpty then err 1
  else if !stTarget c kind index tests then err 2
  else if !s.stMeets c kind index then err 3
  else if !s.inRun (stDom c kind index) then err 4
  else Op.stStart c kind index tests false
/-- The run is cut short (R459): it ends with STRUNDONE. -/
def Op.stCut (c : Nat) : Op := Op.st c fun x => { x with run := match x.run with
  | some r => some { r with cut := true }
  | none => none }
/-- A write of ST_CMD: ABORT before GO. -/
def Op.stCmd (c : Nat) (v : W) : Op := Op.thn (Op.when (v.getLsbD 30) (Op.stCut c)) (Op.when (v.getLsbD 31) (Op.stGo c v))
/-- The result of a domain's retirement (R458, R463). -/
def Op.stResult (dom r : Nat) : Op :=
  if Nat.blt dom 48 then Op.setF (ST_ENG_RES (dom / 16)) ⟨2 * (dom % 16) + 1, 2 * (dom % 16)⟩ r
  else if Nat.blt dom 52 then Op.setF ST_DOM_HI ⟨15 + 2 * (dom - 48), 14 + 2 * (dom - 48)⟩ r
  else if Nat.blt dom 63 then Op.setF ST_DOM_LO ⟨2 * (dom - 52) + 1, 2 * (dom - 52)⟩ r
  else Op.setF ST_DOM_HI ⟨2 * (dom - 64) + 1, 2 * (dom - 64)⟩ r
/-- The source of a target's faults (R460). -/
def stSrc (c kind index : Nat) : Nat :=
  match kind with
  | 0 => srcEng c 14
  | 1 => srcEng c (index / 128)
  | 2 => srcEng c (4 + index / 128)
  | 3 => srcEng c 12
  | 8 => 0x20 + index / 8
  | 9 => 0x20 + index
  | 10 => 0x600 + 8 * index
  | _ => 0x400 + 64 * index
/-- Re-initialise a target (R457). -/
def Op.stInit (c : Nat) (r : StRun) : Op :=
  match r.kind with
  | 0 => Op.engInit c true
  | 10 => Op.cluInit r.index
  | 11 => Op.hrnInit r.index
  | _ => Op.thn (Op.each ((stUnits r.kind r.index).zip r.prior) fun p => Op.setF (POOL_UNIT p.1) POOL_UNIT_STATE p.2)
      (Op.when (!r.prior.isEmpty) Op.poolWatch)
/-- RESULT (R459): 1 PASS, 2 FAIL, 3 ABORTED. -/
def State.stResult (s : State) (c : Nat) (cut : Bool) (ws : List (Nat × BitVec 64)) : Nat :=
  if cut then 3
  else if BitVec.ofNat 32 (wordCount ws) == s.reg (stBase c + 0x0C)
      && misr ws == s.reg (stBase c + 0x1C) ++ s.reg (stBase c + 0x18) then 1
  else 2
/-- The entry of a domain whose turn runs begins, after its retirement test: its pads are latched (R472, R473). -/
def Op.padLatch (d : Nat) : Op := Op.dyn fun s =>
  Op.when (match s.pwr.cmd with | some x => x.turn == some d && Nat.ble 2 x.target | none => false)
    (Op.padShow d (Op.flag (PWR_DOM d) PWR_DOM_PAD_HOLD))
/-- A run ends (R457, R459, R460): DONE tells that it applied all its patterns. -/
def Op.stEnd (c : Nat) (e : StEnd) : Op := Op.dyn fun s =>
  match (s.stS c).run with
  | none => Op.skip
  | some r =>
    let ws := runWords r.kind r.tests e [0, 1, 2, 3]
    let count := BitVec.ofNat 32 (wordCount ws)
    let sig := misr ws
    let done := count == s.reg (stBase c + 0x0C)
    let res := s.stResult c r.cut ws
    let detail := r.kind * 0x10000000 + r.index
    let src := stSrc c r.kind r.index
    Op.all [
      Op.wr (stStat c) (BitVec.ofNat 32 ((if done then 0x40000000 else 0) + res * 0x10000000 + (if r.retire then 0x08000000 else 0)
        + s.fld (stStat c) HST_STAT_ERR * 0x1000000)),
      Op.wr (stBase c + 0x08) count,
      Op.wr (stBase c + 0x10) (sig.setWidth 32), Op.wr (stBase c + 0x14) ((sig >>> 32).setWidth 32),
      match firstBad (runWords r.kind (r.tests % 8) e [0, 1, 2]) with
      | some i => Op.wr (stBase c + 0x20) (BitVec.ofNat 32 (0x80000000 + i % 0x80000000))
      | none => Op.skip,
      Op.when (res == 2) (Op.raiseAlways src 0x60 2 detail), Op.when (res == 3) (Op.raiseAlways src 0x61 0 detail),
      Op.when (r.retire && [0, 9, 10, 11].contains r.kind) (Op.stResult (stDom c r.kind r.index) res),
      Op.when (r.kind == 0 && r.tests.testBit 1) (Op.emit (.dark c)),
      Op.stInit c r, Op.st c fun x => { x with run := none },
      Op.when (r.retire && [0, 9, 10, 11].contains r.kind) (Op.padLatch (stDom c r.kind r.index))]
/-- The first retirement that waits starts (R458), once its part's domain is in Run. -/
def Op.stRetire (c : Nat) : Op := Op.dyn fun s =>
  match (s.stS c).run, (s.stS c).wait with
  | none, p :: l => Op.when (s.inRun (stDom c p.1 p.2))
      (Op.thn (Op.st c fun x => { x with wait := l }) (Op.stStart c p.1 p.2 (stTests p.1) true))
  | _, _ => Op.skip

/-! Rows. -/

/-- ST_CMD.GO (R455). -/
def execStGo (p : Party) (ctl : Fin 49) (v : W) (s : State) :=
  ((if Nat.blt ctl 48 then Op.gate p (stBase ctl) true (domEng ctl) else Op.hub) (Op.stCmd ctl (v ||| 0x80000000#32))).next s
/-- ST_CMD.ABORT (R459). -/
def execStAbort (p : Party) (ctl : Fin 49) (v : W) (s : State) :=
  ((if Nat.blt ctl 48 then Op.gate p (stBase ctl) true (domEng ctl) else Op.hub) (Op.stCmd ctl (v ||| 0x40000000#32))).next s
/-- A retirement's run starts (R458). -/
def execStRetirement (ctl : Fin 49) (s : State) := (Op.stRetire ctl).next s
/-- A run ends (R459). -/
def execStRunDone (ctl : Fin 49) (e : StEnd) (s : State) := (Op.stEnd ctl e).next s

end Sys2Proof.Machine
end

