-- ==== Sys2Proof/Machine/Power.lean ====
section
/-! DEFINITION. Supply feeds and rails (R464–R469), power domains and their commands (R470–R481), temperatures and the
reference monitor (R529, R535). A power-up is in Reset. -/
namespace Sys2Proof.Machine

/-- The source number of the supply supervisor (R436). -/
def srcSup : Nat := 1

/-! Feeds (R464–R468). -/

/-- The class of a feed: 0 GOOD, 1 MARGINAL, 2 FAILED. -/
def State.feedClass (s : State) (b : Bool) : Nat := s.fld SUP_STAT (if b then SUP_STAT_CLASS_B else SUP_STAT_CLASS_A)
def State.feedAct (s : State) : Bool := s.bit SUP_STAT SUP_STAT_ACTIVE
/-- FEED_DOWN and FEED_NONE as the classes and the active feed have them (R467, R468). -/
def Op.feedConds : Op := Op.dyn fun s =>
  Op.thn (Op.each [false, true] fun b =>
      let d := if b then 1 else 0
      if b != s.feedAct && s.feedClass b != 0 then Op.condSet srcSup 0x41 2 d else Op.condClear srcSup 0x41 2 d)
    (if s.feedClass false == 2 && s.feedClass true == 2 then Op.condSet srcSup 0x42 4 0 else Op.condClear srcSup 0x42 4 0)
/-- Start a switch-over to a feed: cause 0 failure, 1 revert, 2 command. -/
def Op.feedGo (b : Bool) (cause : Nat) : Op := Op.mod fun s => { s with sup := { s.sup with going := some (b, cause) } }
/-- The supervisor's record of a feed. -/
def SupSt.feed (x : SupSt) (b : Bool) : FeedSt := if b then x.b else x.a
def Op.feedSt (b : Bool) (f : FeedSt → FeedSt) : Op :=
  Op.mod fun s => { s with sup := if b then { s.sup with b := f s.sup.b } else { s.sup with a := f s.sup.a } }
/-- The active feed, once a feed has been GOOD, has FAILED and the other has not (R465). -/
def Op.feedCheck : Op := Op.dyn fun s =>
  Op.when (s.sup.going.isNone && (s.sup.a.since.isSome || s.sup.b.since.isSome)
    && s.feedClass s.feedAct == 2 && s.feedClass (!s.feedAct) != 2) (Op.feedGo (!s.feedAct) 0)
/-- A feed becomes GOOD at power-up (R465): the first one is the active feed, and of two at one time that of PREF. -/
def Op.feedFirst (b : Bool) : Op := Op.dyn fun s =>
  let o := (s.sup.feed (!b)).since
  Op.when (s.sup.feed b).since.isNone (
    if o.isNone then Op.setB SUP_STAT SUP_STAT_ACTIVE b
    else Op.when (o == some s.time.c && !s.pwr.ready) (Op.setB SUP_STAT SUP_STAT_ACTIVE (s.bit SUP_CFG SUP_CFG_PREF)))
/-- A feed takes a class. -/
def Op.feedChange (b : Bool) (c : Nat) : Op :=
  Op.all [Op.setF SUP_STAT (if b then SUP_STAT_CLASS_B else SUP_STAT_CLASS_A) c, Op.feedCheck, Op.feedConds]
/-- A feed after `k` samples of `mv` millivolts (R464). -/
def FeedSt.sample (x : FeedSt) (k mv : Nat) : FeedSt :=
  { x with
    good := if Nat.ble 10800 mv && Nat.ble mv 13200 then Nat.min (x.good + k) 10000 else 0
    low := if Nat.blt mv 10200 then Nat.min (x.low + k) 20 else 0 }
/-- The class that follows from class `c` (R464): a FAILED feed stays FAILED until it is GOOD. -/
def FeedSt.cls (x : FeedSt) (c mv : Nat) : Nat :=
  if Nat.blt 14000 mv || x.low == 20 then 2 else if x.good == 10000 then 0 else if c == 2 then 2 else 1
/-- The supervisor takes `k` samples, 10 ns apart, of one voltage. -/
def Op.feedRun (b : Bool) (k mv : Nat) : Op := Op.when (k != 0) (Op.dyn fun s =>
  let x := (s.sup.feed b).sample k mv
  let c := x.cls (s.feedClass b) mv
  Op.all [Op.when (c == 0) (Op.feedFirst b), Op.feedSt b (fun _ => if c == 0 && (s.feedClass b != 0 || x.since.isNone) then { x with since := some s.time.c } else x),
    Op.setF (SUP_VIN (if b then 1 else 0)) SUP_VIN_VOLTAGE (mv / 10),
    Op.when (c != s.feedClass b || c == 0) (Op.feedChange b c)])
/-- A switch-over completes (R468). -/
def Op.feedDone : Op := Op.dyn fun s =>
  match s.sup.going with
  | none => Op.skip
  | some (b, cause) => Op.all [
      Op.mod fun s => { s with sup := { s.sup with going := none } }, Op.feedSt (!b) fun x => { x with away := s.time.c },
      Op.setB SUP_STAT SUP_STAT_ACTIVE b, Op.flag SUP_STAT SUP_STAT_SWITCHED, Op.count SUP_SWITCH_CNT 1,
      Op.wr SUP_LAST_TS_LO (BitVec.ofNat 32 s.stamp), Op.wr SUP_LAST_TS_HI (BitVec.ofNat 32 (s.stamp / 2 ^ 32)),
      Op.raise srcSup 0x40 0 ((if b then 1 else 0) + 2 * cause), Op.feedConds, Op.feedCheck]
/-- SUP_CMD.SWITCH (R466). -/
def Op.feedSwitch : Op := Op.dyn fun s =>
  if s.sup.going.isNone && s.feedClass (!s.feedAct) == 0 then Op.feedGo (!s.feedAct) 2
  else Op.flag SUP_STAT SUP_STAT_SWITCH_REFUSED
/-- Has a feed been GOOD for 100 ms, counted from the later of when it became GOOD and the last switch-over away from it (R466)? -/
def State.feedDue (s : State) (b : Bool) : Bool :=
  let x := s.sup.feed b
  s.feedClass b == 0 && (match x.since with | some t => Nat.ble (Nat.max t x.away + 125000000) s.time.c | none => false)
/-- A revert to the preferred feed (R466). -/
def Op.feedRevert : Op := Op.dyn fun s =>
  let b := s.bit SUP_CFG SUP_CFG_PREF
  Op.when (s.bit SUP_CFG SUP_CFG_AUTO_REVERT && b != s.feedAct && s.feedDue b && s.sup.going.isNone) (Op.feedGo b 1)

/-! Domains (R470–R480). -/

/-- The domain codes in entry order (R470, R473). -/
def domAll : List Nat := (List.range 63) ++ [64, 65, 66, 67, 68, 69, 70]
/-- The reason for which a domain may not move to a target (R472): 0 none. -/
def State.domCarry (s : State) (d target : Nat) : Nat :=
  if s.domState d == 5 then (if target == 4 then 0 else 5)
  else if Nat.blt d 48 then (if s.engIdle d then 0 else 1)
  else if Nat.blt d 52 then
    let h := d - 48
    (if (List.range 64).all (fun l => s.lanePower h l != 0)
        && (Nat.blt target 3 || (List.range 64).all fun q => !s.bit (PORT_CFG h q) PORT_CFG_EN) then 0 else 3)
  else if Nat.blt d 63 then (if (List.range 8).all fun i => s.unitIdle (8 * (d - 52) + i) then 0 else 4)
  else (if (List.range 8).all fun i => let x := s.drnHeld (8 * (d - 64) + i); x != 1 && x != 2 then 0 else 2)
/-- The wake steps from a state to a shallower target (R476): 0 regulator, 1 oscillator and PLL, 2 memory, 3 logic. -/
def wakeSteps (old target : Nat) : List Nat :=
  (if Nat.ble 3 old then [0] else []) ++ (if Nat.ble 2 old && Nat.ble target 1 then [1] else [])
    ++ (if Nat.ble 3 old then [2] else []) ++ (if target == 0 then [3] else [])
/-- A domain's kind and index as a self-test target, and its controller (R453). -/
def domTarget (d : Nat) : Nat × Nat × Nat :=
  if Nat.blt d 48 then (d, 0, 0) else if Nat.blt d 52 then (48, 11, d - 48) else if Nat.blt d 63 then (48, 9, d - 52)
  else (48, 10, d - 64)
/-- Does a self-test run concern a domain: it, or a part of it (R459)? -/
def State.domRuns (s : State) (d : Nat) : Bool :=
  match (s.stS (domTarget d).1).run with | some r => stDom (domTarget d).1 r.kind r.index == d | none => false
/-- Does a self-test run, or a retirement of the domain that waits, concern the domain? -/
def State.domTest (s : State) (d : Nat) : Bool :=
  let t := domTarget d
  s.domRuns d || (s.stS t.1).wait.contains (t.2.1, t.2.2)
/-- The memory regions of a domain. -/
def domRegions (d : Nat) : List Nat :=
  if Nat.blt d 48 then [d, 0x30 + d] else if Nat.ble 64 d then (List.range 8).map fun i => 0x62 + 8 * (d - 64) + i else []
/-- After Off, remaps are undone and logs are empty. -/
def Op.regionCold (r : Nat) : Op :=
  Op.all [Op.regsInit (ECC_LOG_ADDR r 0) (ECC_LOG_ADDR r 32) (fun _ => false), Op.regsInit (FG_POS r) (FG_SPARES r + 4) (fun _ => false),
    Op.ecc fun e => { e with used := e.used.filter (fun x => x.1 != r), remap := e.remap.filter (fun x => x.1 != r),
                             pass := Tab.set e.pass (fun _ => 0) r 0 },
    -- rows of the region have spares again (R437)
    Op.dyn fun s => Op.each (s.col.conds.filter fun k => k.src == 5 && k.key % 256 == 1 && k.key / 256 % 256 == r
      && k.key / 256 / 0x10000000 == 1) fun k => Op.condClear k.src k.kind k.cls k.key]
/-- The memory step of a wake from Off (R476): memory 0, registers at reset. -/
def Op.domInit (d : Nat) : Op :=
  Op.thn (Op.each (domRegions d) Op.regionCold) (
    if Nat.blt d 48 then Op.engInit d false else if Nat.blt d 52 then Op.hrnInit (d - 48)
    else if Nat.blt d 63 then Op.skip else Op.cluInit (d - 64))

/-! Retention (R477). How a bank lays out what it holds is not stated: the words stand in the order of their addresses, and the rest of a
domain's retention state after them (DESIGN CHOICE, log 72). -/

/-- The register words that a domain's banks hold. -/
def domRegs (d : Nat) : List Nat :=
  if Nat.blt d 48 then (List.range 0x20000).map fun i => 0x1000000 + 0x80000 * d + 4 * i
  else if Nat.blt d 52 then (List.range 0x40000).map fun i => 0x3000000 + 0x100000 * (d - 48) + 4 * i
  else if Nat.blt d 63 then (List.range 8).map fun i => POOL_UNIT (8 * (d - 52) + i)
  else (List.range 8).flatMap fun i => [HIVE_DRN_STAT (8 * (d - 64) + i), HIVE_DRN_BUILD (8 * (d - 64) + i)]
def trackBytes (t : Track) : List Byte := [t.off, t.gain, t.skew, t.bw].flatMap fun v => leBytes 2 (uns 16 v)
def DrnSt.retained (x : DrnSt) : List Byte :=
  let w := fun (v : W) => leBytes 4 v.toNat
  ((List.range 32).flatMap fun i => w (Tab.get x.g (fun _ => 0) i))
    ++ ((List.range 8).flatMap fun i => let a := Tab.get x.acc (fun _ => (0, 0)) i; leBytes 5 a.1.toNat ++ leBytes 5 a.2.toNat)
    ++ ((List.range 8).flatMap fun i => [x.p, x.pm, x.pb, x.pl, x.amode].flatMap fun l => w (Tab.get l (fun _ => 0) i))
    ++ [x.tpc, x.tcode, x.taddr, x.tentry, x.timer, x.pwinB, x.pwinL, x.cwinB, x.cwinL, x.buildI].flatMap w
    ++ leBytes 2 x.pc.toNat ++ leBytes 2 x.evpend.toNat
/-- The banks of a domain: its registers with what else it retains, and each of its memories. -/
def State.banks (s : State) (d : Nat) : List (List Byte) :=
  ((domRegs d).flatMap (fun a => leBytes 4 (s.reg a).toNat)
      ++ (if Nat.blt d 48 then (List.range 272).flatMap fun i => trackBytes (Tab.get (s.engS d).track (fun _ => Track.init) i)
          else if Nat.blt d 52 then (List.range 64).map fun l => if (s.laneS (64 * (d - 48) + l)).cdr then 1#8 else 0#8
          else if Nat.ble 64 d then (List.range 8).flatMap fun i => (s.drnS (8 * (d - 64) + i)).retained else []))
    :: (domRegions d).map fun r => s.bytes (regionBase r) (regionWords r * wordSz r)
/-- The check words of its banks now, and those stored. -/
def State.bankCrcs (s : State) (d : Nat) : List Nat := (s.banks d).map crc32c
def State.chkOf (s : State) (d : Nat) : List Nat := Tab.get s.pwr.chk (fun _ => []) d
/-- Read a domain's banks through their ECC checkers (R409): words with an injection, or poisoned, are the ones that are not clean. An error
that arises there by itself is told by ECC_READ_ERROR. -/
def Op.bankRead (d : Nat) : Op := Op.dyn fun s =>
  Op.each (uniq ((s.ecc.inj.map (·.word) ++ s.poison).filter fun k => (domRegions d).contains (regionOf k))) fun k => Op.eccRead none k 0
/-- Store the check words (R473, R476, R477). -/
def Op.bankStore (d : Nat) : Op := Op.thn (Op.bankRead d) (Op.dyn fun s =>
  Op.pwr fun p => { p with chk := Tab.set p.chk (fun _ => []) d (s.bankCrcs d) })
/-- What the bits of its banks suffered while they were at retention voltage: a single one in a word is corrected, and in memory counted
(R409), others stand in what is restored. -/
def Op.bankUpset (d : Nat) (ms : List Upset) (rs : List (W × W)) : Op :=
  Op.thn (Op.each (ms.filter fun u => (domRegions d).contains u.region.val) fun u => Op.dyn fun s =>
      let k := keyAt u.region u.addr
      let y := flipSynd u.region u.data.toNat u.check
      if syndSingle u.region y && !s.poisoned k then Op.eccRead none k y
      else Op.each (List.range (wordSz u.region)) fun i => Op.byte (k + i) (s.byte (k + i) ^^^ u.data.extractLsb' (8 * i) 8))
    (Op.each (rs.filter fun r => Nat.blt 1 (popc r.2.toNat 32) && (domRegs d).contains r.1.toNat) fun r => Op.dyn fun s =>
      Op.wr r.1.toNat (s.reg r.1.toNat ^^^ r.2))

/-! The command that runs (R471–R476). -/

/-- Load what is left of a domain's wake; the step in progress starts `after` 10 µs from now. -/
def Op.wakeSet (d after : Nat) (x : List Nat × Nat) : Op := Op.dyn fun s =>
  Op.pwr fun p => { p with
    steps := Tab.set p.steps (fun _ => ([], 0)) d x
    stepT := Tab.set p.stepT (fun _ => 0) d (if x.1.isEmpty then 0 else s.time.c + 12500 * after) }
def State.wakeOf (s : State) (d : Nat) : List Nat × Nat := Tab.get s.pwr.steps (fun _ => ([], 0)) d
/-- A domain starts to wake to a target, `after` 10 µs from now. -/
def Op.wakeDom (d target after : Nat) : Op := Op.dyn fun s =>
  let l := wakeSteps (s.domState d) target
  Op.all [Op.wakeSet d after (l, target), Op.setF (PWR_DOM d) PWR_DOM_READY 0, Op.setF (PWR_DOM d) PWR_DOM_STEP (l.headD 0)]
/-- A wake starts as one power command (R476): its domains begin 10 µs apart, in the reverse of entry order. -/
def Op.wakeStart (doms : List Nat) (target : Nat) (own : Bool) : Op :=
  Op.all [Op.pwr fun p => { p with cmd := some ⟨false, target, [], [], none, none, own, false⟩ },
    Op.flag PWR_CMD_STAT PWR_CMD_STAT_BUSY, Op.each doms.reverse.zipIdx fun d => Op.wakeDom d.1 target d.2]
/-- A domain that a wake to Run can move: neither in Run nor held. -/
def State.canWake (s : State) (d : Nat) : Bool := !s.inRun d && s.domState d != 5
/-- The pool's wake has ended, or none was needed: the mirror runs, or ends ABORTED where the group is held (R227). -/
def Op.poolAwake (d : Nat) : Op := Op.dyn fun s =>
  Op.thn (Op.pwr fun p => { p with poolW := none }) (
    if s.inRun d then Op.when (s.fld POOL_MIRROR_STAT POOL_MIRROR_STAT_STATE == 1)
      (Op.thn (Op.setF POOL_MIRROR_STAT POOL_MIRROR_STAT_STATE 2) Op.mirrorRun)
    else Op.mirrorCut)
/-- Start the wakes of the steward and the pool that wait, while no command runs (R354, R476). -/
def Op.pwrNext : Op := Op.dyn fun s =>
  let ks := (domAll.filter fun d => Nat.ble 64 d && s.canWake d && s.stw.targets.any fun x => x / 8 == d - 64)
  if s.pwr.cmd.isSome || s.pwr.dead then Op.skip
  else if s.stw.waiting && !ks.isEmpty then Op.wakeStart ks 0 true
  else Op.thn (Op.stw fun x => { x with waiting := false }) (match s.pwr.poolW with
    | none => Op.skip
    | some d => if s.canWake d then Op.wakeStart [d] 0 true else Op.poolAwake d)
/-- The command ends when nothing of it is left to do (R474, R481). -/
def Op.pwrEnd : Op := Op.dyn fun s =>
  match s.pwr.cmd with
  | none => Op.skip
  | some c =>
    Op.when (c.todo.isEmpty && c.turn.isNone && s.pwr.steps.isEmpty) (Op.all [
      Op.pwr (fun p => { p with cmd := none, wake := false }), Op.setF PWR_CMD_STAT PWR_CMD_STAT_BUSY 0,
      match c.abort with
      | some (d, r) => Op.all [Op.setF PWR_CMD_STAT PWR_CMD_STAT_ERR 4, Op.setF PWR_CMD_STAT PWR_CMD_STAT_REASON r,
          Op.setF PWR_CMD_STAT PWR_CMD_STAT_REF_DOM d, Op.count PWR_ABORT_CNT 1,
          Op.when (d != 255) (Op.satF (PWR_DOM d) PWR_DOM_REFUSALS), Op.raise srcSup 0x49 0 (d + 256 * r)]
      | none => Op.when c.all (Op.thn (Op.pwr fun p => { p with dead := true }) Op.linkDown),
      Op.pwrNext])
/-- A refusal at a turn: the domains moved wake back, in reverse order (R474, R475). -/
def Op.pwrAbort (c : PwrCmd) (d r : Nat) : Op :=
  Op.all [Op.pwr fun p => { p with cmd := some { c with todo := [], turn := none, abort := some (d, r) }, wake := false },
    Op.each c.moved.zipIdx fun m => Op.wakeDom m.1.1 m.1.2 m.2, Op.pwrEnd]
/-- The next domain's turn (R473, R475, R458): a run that its command cut short must have ended first. -/
def Op.entryTurn : Op := Op.dyn fun s =>
  match s.pwr.cmd with
  | none => Op.skip
  | some c => match c.entry && c.turn.isNone && c.abort.isNone, c.todo with
    | true, d :: l =>
      let r := s.domCarry d c.target
      let t := domTarget d
      let at_ := c.target == 4 && (s.reg ST_CFG).getLsbD t.2.1
      let test := at_ && s.inRun d && s.stMeets t.1 t.2.1 t.2.2
      if s.pwr.wake then Op.pwrAbort c 255 6
      else if s.domTest d then Op.skip
      else if r != 0 then Op.pwrAbort c d r
      else Op.padShow d <| Op.all [
        Op.when test (Op.st t.1 fun x => { x with wait := x.wait ++ [(t.2.1, t.2.2)] }),
        Op.when (at_ && !test) (Op.stResult d 0),
        Op.setF (PWR_DOM d) PWR_DOM_READY 0,
        -- with a retirement test the entry begins when that ends
        Op.when (Nat.ble 2 c.target && !test) (Op.flag (PWR_DOM d) PWR_DOM_PAD_HOLD),
        Op.pwr fun p => { p with cmd := some { c with todo := l, turn := some d } }]
    | _, _ => Op.skip
/-- The domain whose turn runs has entered its state (R473, R478); a retirement test comes first. Off takes its drones' code (R347). -/
def Op.entryDone : Op := Op.dyn fun s =>
  match s.pwr.cmd with
  | none => Op.skip
  | some c => match c.turn with
    | none => Op.skip
    | some d => Op.when (!s.domTest d) (Op.padShow d <| Op.all [
        Op.when (c.target == 4) (Op.thn (Op.setF (PWR_DOM d) PWR_DOM_RET_LOST 0) (Op.condClear srcSup 0x48 2 d)),
        Op.when (c.target == 4 && Nat.ble 64 d) (Op.each (List.range 8) fun i => Op.wr (HIVE_DRN_STAT (8 * (d - 64) + i)) 0),
        Op.when (c.target == 3) (Op.bankStore d),
        Op.setF (PWR_DOM d) PWR_DOM_STATE c.target,
        Op.pwr fun p => { p with cmd := some { c with turn := none, moved := (d, s.domState d) :: c.moved } },
        Op.pwrEnd])
/-- A domain that cannot wake is held (R478). -/
def Op.domHold (d : Nat) : Op := Op.padShow d <|
  Op.all [Op.setF (PWR_DOM d) PWR_DOM_STATE 5, Op.setF (PWR_DOM d) PWR_DOM_READY 0, Op.flag (PWR_DOM d) PWR_DOM_PAD_HOLD,
    Op.setF (PWR_DOM d) PWR_DOM_STEP 0, Op.wakeSet d 0 ([], 0)]
/-- The ready signal of a domain's wake step (R476–R478); the memory step of a wake from Deep sleep restores the banks and compares their
check words. -/
def Op.wakeReady (d : Nat) (ms : List Upset) (rs : List (W × W)) : Op := Op.dyn fun s =>
  let w := s.wakeOf d
  let st := s.domState d
  match w.1 with
  | [] => Op.skip
  | x :: l => Op.thn (Op.when (x == 2 && st == 3) (Op.thn (Op.bankUpset d ms rs) (Op.bankRead d))) (Op.dyn fun u =>
    if x == 2 && st == 3 && u.bankCrcs d != s.chkOf d then
      Op.all [Op.domHold d, Op.flag (PWR_DOM d) PWR_DOM_RET_LOST, Op.condSet srcSup 0x48 2 d, Op.pwrEnd]
    else Op.thn (if x == 2 && st == 4 then Op.domInit d
        -- the monitor chain wakes STOPPED (R340)
        else Op.when (x == 2 && Nat.blt d 48) (Op.setF (MON_STAT d) MON_STAT_RUN 0)) (match l with
      | y :: _ => Op.thn (Op.wakeSet d 0 (l, w.2)) (Op.setF (PWR_DOM d) PWR_DOM_STEP y)
      | [] => Op.padShow d <| Op.all [Op.when (w.2 == 3) (Op.bankStore d), Op.wakeSet d 0 ([], 0), Op.setF (PWR_DOM d) PWR_DOM_STEP 0, Op.setF (PWR_DOM d) PWR_DOM_STATE w.2,
          Op.setB (PWR_DOM d) PWR_DOM_READY (Nat.ble w.2 2),
          -- the forager restarts its pass of the domain's regions (R480)
          Op.when (w.2 == 0) (Op.each (domRegions d) fun r => Op.thn (Op.wr (FG_POS r) 0)
            (Op.ecc fun e => { e with pass := Tab.set e.pass (fun _ => 0) r s.time.c })),
          -- CYCLE counts from the cluster's entry to Run (R381); a pause in progress keeps its length
          Op.when (w.2 == 0 && Nat.ble 64 d) (Op.each ((List.range 8).map fun i => 8 * (d - 64) + i) fun i =>
            Op.drn i fun x => { x with pause := x.pause.map (· - x.cycle), cycle := 0 }),
          Op.pwrEnd]))
/-- The time of a wake step in µs (R476). -/
def stepUs (x : Nat) : Nat := [50, 200, 100, 10].getD x 0
/-- A ready signal has not arrived within four times its step time (R476). -/
def Op.wakeLate (d : Nat) : Op := Op.dyn fun s =>
  match (s.wakeOf d).1 with
  | [] => Op.skip
  | x :: _ => Op.when (Nat.blt (4 * 1250 * stepUs x) (s.time.c - Tab.get s.pwr.stepT (fun _ => 0) d)) <| Op.all [Op.raise srcSup 0x4A 2 (d + 256 * x), Op.domHold d, Op.pwrEnd]

/-! PWR_CMD (R471–R473). -/

/-- The domains that a selector names. -/
def State.pwrSel (s : State) (all : Bool) (w : Nat → Nat) : List Nat :=
  (List.range 96).filter fun d => if all then domAll.contains d else (s.reg (w (d / 32))).getLsbD (d % 32)
/-- A write of PWR_CMD with GO. -/
def Op.pwrGo (v : W) : Op := Op.dyn fun s =>
  let target := getFld v PWR_CMD_TARGET
  let sel := s.pwrSel (v.getLsbD 30) PWR_SEL
  let mv := sel.filter fun d => s.domState d != target
  let live := mv.filter fun d => s.domState d != 5
  let deeper := live.all fun d => Nat.blt (s.domState d) target
  let stat := fun (e r d : Nat) => Op.all [Op.setF PWR_CMD_STAT PWR_CMD_STAT_ERR e, Op.setF PWR_CMD_STAT PWR_CMD_STAT_REASON r,
    Op.setF PWR_CMD_STAT PWR_CMD_STAT_REF_DOM d]
  if s.pwr.cmd.isSome then Op.setF PWR_CMD_STAT PWR_CMD_STAT_ERR 1
  else if Nat.ble 5 target || sel.any (fun d => !domAll.contains d)
      || !(deeper || live.all fun d => Nat.blt target (s.domState d)) then Op.setF PWR_CMD_STAT PWR_CMD_STAT_ERR 2
  else
    let entry := deeper && (target == 4 || !live.isEmpty)
    match mv.find? (fun d => if entry then s.domCarry d target != 0 else s.domState d == 5) with
    | some d => Op.all [stat 3 (s.domCarry d target) d, Op.count PWR_REFUSE_CNT 1, Op.satF (PWR_DOM d) PWR_DOM_REFUSALS]
    | none => Op.thn (stat 0 0 0) (
        if entry then Op.all [
          Op.each (mv.filter s.domRuns) fun d => Op.stCut (domTarget d).1,
          Op.pwr (fun p => { p with
            cmd := some ⟨true, target, mv, [], none, none, false, v.getLsbD 30 && target == 4⟩, wake := false }),
          Op.flag PWR_CMD_STAT PWR_CMD_STAT_BUSY, Op.pwrEnd]
        else Op.thn (Op.wakeStart mv target false) Op.pwrEnd)
/-- WAKE_N is low, the device not off (R475, R481). -/
def Op.wakeN : Op := Op.dyn fun s =>
  match s.pwr.cmd with
  | some c => Op.when (c.entry && c.abort.isNone) (Op.pwr fun p => { p with wake := true })
  | none =>
    let ds := (s.pwrSel false PWR_WAKE_SEL).filter fun d => domAll.contains d && s.canWake d
    Op.when (!ds.isEmpty) (Op.all [Op.setF PWR_CMD_STAT PWR_CMD_STAT_ERR 0, Op.setF PWR_CMD_STAT PWR_CMD_STAT_REASON 0,
      Op.setF PWR_CMD_STAT PWR_CMD_STAT_REF_DOM 0, Op.wakeStart ds 0 false])
/-- The pads of a domain are released, which must be READY (R479). -/
def Op.padRel (v : W) : Op := Op.dyn fun s =>
  let d := getFld v PWR_PAD_REL_DOMAIN
  if domAll.contains d && s.bit (PWR_DOM d) PWR_DOM_READY then Op.padShow d (Op.setF (PWR_DOM d) PWR_DOM_PAD_HOLD 0)
  else Op.flag PWR_STAT PWR_STAT_PAD_REL_REFUSED

/-! Temperatures and the reference (R529, R535). -/

/-- The temperatures of the dies, in 1/16 °C. -/
def Op.therm (temps : List (BitVec 16)) : Op := Op.dyn fun s =>
  let t := fun d => sgn 16 (temps.getD d 0#16).toNat
  let ds := List.range 9
  let hot := ds.foldl (fun b d => if t b < t d then d else b) 0
  let detail := hot + 256 * uns 8 (t hot / 16)
  let cond := fun (kind cls : Nat) (thr : Int) =>
    if ds.any fun d => decide (16 * thr ≤ t d) then Op.condSet srcSup kind cls detail
    else Op.when (ds.all fun d => decide (t d ≤ 16 * (thr - 5))) (Op.condClear srcSup kind cls 0)
  Op.all [Op.each ds fun d => Op.wr (THERM_TEMP d) (0x80000000#32 ||| (temps.getD d 0#16).setWidth 32),
    cond 0x78 0 (s.fld THERM_CFG THERM_CFG_WARN : Nat), cond 0x79 4 110]

/-! Rows. -/

/-- A feed is sampled, as counts of samples and their millivolts, and changes class (R464, R465). -/
def execFeedClassChange (b : Bool) (vs : List (Nat × Nat)) (s : State) := (Op.each vs fun v => Op.feedRun b v.1 v.2).next s
/-- A switch-over completes (R468). -/
def execSwitchoverComplete (s : State) := Op.feedDone.next s
/-- The preferred feed may be taken again (R466). -/
def execFeedRevert (s : State) := Op.feedRevert.next s
/-- SUP_CMD.SWITCH (R466). -/
def execSwitch (_p : Party) (s : State) := (Op.hub Op.feedSwitch).next s
/-- A rail leaves its limits (R469): beyond 6 % it is beyond 3 % as well. -/
def execRailExcursion (r : Fin 36) (hard : Bool) (s : State) :=
  (Op.thn (Op.condSet srcSup 0x44 0 r) (Op.when hard (Op.condSet srcSup 0x45 4 r))).next s
/-- A rail has been within 3 % for 100 µs (R469). -/
def execRailRecover (r : Fin 36) (s : State) :=
  (Op.thn (Op.condClear srcSup 0x44 0 r) (Op.condClear srcSup 0x45 4 r)).next s
/-- PWR_CMD.GO (R471). -/
def execPwrCmdGo (_p : Party) (v : W) (s : State) := (Op.hub (Op.pwrGo v)).next s
/-- The next turn of an entry (R473). -/
def execEntryTurn (s : State) := Op.entryTurn.next s
/-- A domain has entered its state (R473). -/
def execEntryDone (s : State) := Op.entryDone.next s
/-- A wake step is ready (R476). -/
def execWakeStepReady (dom : Fin 71) (mems : List Upset) (regs : List (W × W)) (s : State) := (Op.wakeReady dom mems regs).next s
/-- A wake step is late (R476). -/
def execWakeTimeout (dom : Fin 71) (s : State) := (Op.wakeLate dom).next s
/-- A write of PWR_PAD_REL (R479). -/
def execPwrPadRel (_p : Party) (v : W) (s : State) := (Op.hub (Op.padRel v)).next s
/-- REF_LINE is lost (R529). -/
def execRefLoss (missing : Bool) (s : State) :=
  (Op.dyn fun s => Op.when (s.pwr.ready && !s.pwr.dead) (Op.all [Op.flag REF_STAT REF_STAT_LOST, Op.flag REF_STAT REF_STAT_WAS_LOST,
    Op.condSet srcSup 0x7A 4 (if missing then 1 else 0)])).next s
/-- REF_LINE has been within tolerance for 1 ms (R529). -/
def execRefRecover (s : State) :=
  (Op.thn (Op.setF REF_STAT REF_STAT_LOST 0) (Op.condClear srcSup 0x7A 4 0)).next s
/-- The temperature sensors are read (R534, R535). -/
def execThermSample (temps : List (BitVec 16)) (s : State) := (Op.therm temps).next s

end Sys2Proof.Machine
end

