-- ==== Sys2Proof/Machine/Farrier.lean ====
section
/-! DEFINITION. The farrier: its repairs of rows, slices, strips and units (R420–R427, R431, R432), the mirror that the host or
the farrier runs (R227, R228), and the strip checks (R424, R425). -/
namespace Sys2Proof.Machine

/-! Requests. -/

def FarReq.kind (r : FarReq) : Nat := getFld r.cmd FAR_CMD_KIND
def FarReq.eng (r : FarReq) : Nat := getFld r.cmd FAR_CMD_ENG
def FarReq.conv (r : FarReq) : Nat := getFld r.cmd FAR_CMD_CONV
def FarReq.target (r : FarReq) : Nat := getFld r.cmd FAR_CMD_TARGET
/-- The side of a strip request. -/
def FarReq.rx (r : FarReq) : Bool := r.cmd.getLsbD 8
def FarReq.macro_ (r : FarReq) : Nat := getFld r.arg FAR_ARG_MACRO
def FarReq.row (r : FarReq) : Nat := getFld r.arg FAR_ARG_ROW
/-- Does a request name a target that exists? -/
def FarReq.ok (r : FarReq) : Bool :=
  match r.kind with
  | 1 => Nat.blt r.target 154 && Nat.blt r.macro_ (regionWords r.target * wordSz r.target / macroSz r.target)
      && Nat.blt r.row (macroSz r.target / 256)
  | 2 => Nat.blt r.eng 48 && Nat.blt r.target (if Nat.blt r.conv 4 then 64 else 32)
  | 3 => Nat.blt r.eng 48 && Nat.blt r.target 16
  | _ => Nat.blt r.target 88
/-- Must the request wait: is its domain not in Run, or it or its target under test (R456, R480)? -/
def State.farWaits (s : State) (r : FarReq) : Bool :=
  r.ok && (match r.kind with
    | 1 => !s.regionRun r.target
    | 4 => !s.inRun (domGrp (r.target / 8)) || s.testOn 48 8 r.target || s.testOn 48 9 (r.target / 8)
    | k => !s.inRun (domEng r.eng) || s.testOn r.eng 0 0
      || (if k == 3 then s.testOn r.eng 3 (16 * (if r.rx then 1 else 0) + r.target)
          else if Nat.blt r.conv 4 then s.testOn r.eng 1 (128 * r.conv + r.target) else s.testOn r.eng 2 (128 * (r.conv - 4) + r.target)))
/-- The swap block of a slice or strip request. -/
def FarReq.blk (r : FarReq) : Nat := if r.kind == 2 then 10 else if r.kind == 3 then (if r.rx then 9 else 8) else 12
/-- The side on which its swap takes effect. -/
def FarReq.side (r : FarReq) : Bool := if r.kind == 2 then Nat.blt r.conv 4 else if r.kind == 3 then r.rx else true

/-! Log and end of a repair (R420, R432). -/

/-- One FAR_LOG entry. -/
def Op.farLog (r : FarReq) (outcome spare : Nat) : Op := Op.dyn fun s =>
  let e := s.fld FAR_STAT FAR_STAT_NEXT
  Op.all [Op.wr (FAR_LOG e 0) r.cmd, Op.wr (FAR_LOG e 1) (BitVec.ofNat 32 (outcome * 0x10000000 + spare % 2048)),
    Op.wr (FAR_LOG e 2) (BitVec.ofNat 32 s.stamp), Op.wr (FAR_LOG e 3) (BitVec.ofNat 32 (s.stamp / 2 ^ 32 % 65536)),
    Op.addF FAR_STAT FAR_STAT_NEXT 1, Op.event 55 13]
/-- The NO_SPARE condition of a request (R437), with the fields that name its target: the pool reports that of units itself (R229). -/
def farDetail (r : FarReq) : Nat := r.kind + (r.cmd &&& farMask r.cmd).toNat * 256
def Op.farSpare (r : FarReq) (none_ : Bool) : Op :=
  if r.kind == 4 then Op.skip else if none_ then Op.condSet 5 0x04 2 (farDetail r) else Op.condClear 5 0x04 2 (farDetail r)
/-- The repair in progress ends: 0 DONE, 1 NO_SPARE, 2 COMPARE_FAIL, 3 CLASH, 4 ABORTED. -/
def Op.farEnd (r : FarReq) (outcome spare : Nat) : Op :=
  Op.all [Op.farLog r outcome spare, Op.ecc fun e => { e with job := none }, Op.farStat,
    Op.when (outcome == 1) (Op.farSpare r true), Op.when (outcome == 0) (Op.farSpare r false)]
def Op.farJob (f : FarJob → FarJob) : Op := Op.ecc fun e => { e with job := e.job.map f }

/-! Swap blocks (R421). -/

/-- Write the shadow copy of a block as the active copy. -/
def Op.shadowCopy (n b : Nat) : Op := Op.dyn fun s =>
  Op.each [false, true] fun rx => Op.each (s.blkWords n b rx) fun a =>
    let m := blkMask n b rx a
    Op.wr a ((s.reg a &&& ~~~m) ||| (s.reg (a + viewDist b) &&& m))
/-- The engine of the repair: that of a unit is the one whose mirror runs. -/
def State.farEng (s : State) (r : FarReq) : Nat := if r.kind == 4 then s.mir.eng else r.eng
/-- Restore the shadow copy after a failed repair; while the block is pending the write is discarded and reported (R29). -/
def Op.farRestore (r : FarReq) : Op := Op.dyn fun s =>
  let n := s.farEng r
  if s.pendBlk n r.blk then Op.flag (ENG_SWAP_STAT n) ENG_SWAP_STAT_WRITE_BLOCKED
  else Op.thn (Op.shadowCopy n r.blk) (Op.spareMoved n (s.adcRuns n))
/-- A repair has failed (R421): the shadow copy is restored and the outcome logged, once no swap of the block is pending. -/
def Op.farFail (j : FarJob) (outcome : Nat) : Op := Op.dyn fun s =>
  if s.pendBlk (s.farEng j.req) j.req.blk then Op.farJob fun j => { j with clash := true, stage := .restore outcome }
  else Op.thn (Op.farRestore j.req) (Op.farEnd j.req outcome j.spare)
/-- Put the repair's change into the shadow copy. -/
def Op.farChange (r : FarReq) (sp : Nat) : Op := Op.dyn fun s =>
  let n := s.farEng r
  Op.all [Op.shadowCopy n r.blk,
    if r.kind == 2 then Op.thn (Op.setF (convMap n r.conv) (spareSlice r.conv sp) r.target) (Op.flag (convMap n r.conv) (spareEn sp))
    else if r.kind == 3 then
      (if r.rx then Op.thn (Op.setF (STRIP_MAP n) STRIP_MAP_RX_STRIP r.target) (Op.flag (STRIP_MAP n) STRIP_MAP_RX_EN)
       else Op.thn (Op.setF (STRIP_MAP n) STRIP_MAP_TX_STRIP r.target) (Op.flag (STRIP_MAP n) STRIP_MAP_TX_EN))
    else Op.each [POOL_DEC_UNIT0, POOL_DEC_UNIT1, POOL_DEC_UNIT2] fun f =>
      Op.when (s.fld (POOL_DEC n + 0x4000) f == r.target) (Op.setF (POOL_DEC n) f sp),
    Op.spareMoved n (s.adcRuns n)]
/-- Has the change taken effect in the active copy? -/
def State.farActive (s : State) (r : FarReq) (sp : Nat) : Bool :=
  let n := s.farEng r
  if r.kind == 2 then s.bit (convMap n r.conv + 0x4000) (spareEn sp)
    && s.fld (convMap n r.conv + 0x4000) (spareSlice r.conv sp) == r.target
  else if r.kind == 3 then
    (if r.rx then s.bit (STRIP_MAP n + 0x4000) STRIP_MAP_RX_EN && s.fld (STRIP_MAP n + 0x4000) STRIP_MAP_RX_STRIP == r.target
     else s.bit (STRIP_MAP n + 0x4000) STRIP_MAP_TX_EN && s.fld (STRIP_MAP n + 0x4000) STRIP_MAP_TX_STRIP == r.target)
  else (decUnits (s.reg (POOL_DEC n + 0x4000))).contains sp
/-- Has the spare passed its compare, and for a slice every newly enabled spare of the engine (R99)? -/
def State.farPass (s : State) (r : FarReq) (sp : Nat) : Bool :=
  if r.kind == 2 then s.sparePass r.eng r.conv sp && (List.range 8).all fun c => (List.range 4).all fun x =>
    !s.spareRun r.eng c x || s.sparePass r.eng c x
  else if r.kind == 3 then s.bit (STRIP_SPARE_STAT r.eng) (if r.rx then STRIP_SPARE_STAT_RX_PASS else STRIP_SPARE_STAT_TX_PASS)
  else s.bit POOL_MIRROR_STAT POOL_MIRROR_STAT_PASS
/-- A request for the swap: refused because a swap of the block is pending, it waits, up to RETRY times. -/
def Op.farClash (j : FarJob) : Op := Op.dyn fun s =>
  if Nat.blt j.tries (s.fld FAR_CFG FAR_CFG_RETRY) then Op.farJob fun j => { j with tries := j.tries + 1, clash := true, stage := .shadow }
  else Op.farFail j 3
/-- Request the next-boundary swap (R99, R228, R421, R425). -/
def Op.farSwap (j : FarJob) : Op := Op.dyn fun s =>
  let n := s.farEng j.req
  let pend := s.pendBlk n j.req.blk
  Op.swapReq n 0 [j.req.blk] 0 fun code =>
    if code == 0 then Op.farJob fun j => { j with stage := .swap, clash := false }
    else if pend then Op.farClash j
    else Op.farFail j 3
/-- Put the change into the shadow copy, or wait while a swap of the block is pending. -/
def Op.farShadow (j : FarJob) : Op := Op.dyn fun s =>
  if s.pendBlk (s.farEng j.req) j.req.blk then Op.farClash j
  else Op.all [Op.farJob fun j => { j with stage := .shadow, clash := false }, Op.farChange j.req j.spare,
    Op.when (s.farPass j.req j.spare) (Op.farSwap j)]

/-! Choosing a spare (R422, R425–R427). -/

/-- Is a spare row unused? -/
def State.rowSpare (s : State) (r m : Nat) : Option Nat :=
  (List.range (if Nat.ble 0x62 r then 4 else 8)).find? fun i => !s.ecc.used.contains (r, m, i)
/-- A spare that a slice repair may try. -/
def State.sliceSpare (s : State) (r : FarReq) (tried : List Nat) : Option Nat :=
  (List.range (sparesOf r.conv)).find? fun i => !tried.contains i
    && !s.bit (convMap r.eng r.conv) (spareEn i) && !s.bit (convMap r.eng r.conv + 0x4000) (spareEn i)
/-- A unit that a repair may try. -/
def State.unitSpare (s : State) (tried : List Nat) : Option Nat :=
  let l := (List.range 88).filter fun u => !tried.contains u && s.fld (POOL_UNIT u) POOL_UNIT_STATE == 0
  match l.find? fun u => s.inRun (domGrp (u / 8)) with
  | some u => some u
  | none => l.head?
/-- Is a strip's spare in use in a copy of the map? -/
def State.stripUsed (s : State) (r : FarReq) : Bool :=
  let f := if r.rx then STRIP_MAP_RX_EN else STRIP_MAP_TX_EN
  s.bit (STRIP_MAP r.eng) f || s.bit (STRIP_MAP r.eng + 0x4000) f
/-- The next spare of the repair in progress. -/
def Op.farNext (r : FarReq) (tried : List Nat) : Op := Op.dyn fun s =>
  let job := fun (st : FarStage) (sp : Nat) => Op.ecc fun e => { e with job := some ⟨r, st, sp, (match e.job with | some j => j.tries | none => 0), false, tried⟩ }
  if !r.ok then Op.farEnd r 4 0
  else if r.kind == 1 then match s.rowSpare r.target r.macro_ with
    | none => Op.farEnd r 1 0
    | some i => Op.all [job .copy i, Op.ecc (fun e => { e with used := e.used ++ [(r.target, r.macro_, i)] }),
        Op.setF (FG_SPARES r.target) FG_SPARES_SPARES_LEFT (s.fld (FG_SPARES r.target) FG_SPARES_SPARES_LEFT - 1)]
  else if r.kind == 2 then match s.sliceSpare r tried with
    | none => Op.farEnd r 1 0
    | some i => Op.thn (job .shadow i) (Op.farShadow ⟨r, .shadow, i, 0, false, tried⟩)
  else if r.kind == 3 then
    (if s.stripUsed r then Op.farEnd r 1 0 else Op.thn (job .shadow 0) (Op.farShadow ⟨r, .shadow, 0, 0, false, tried⟩))
  else if s.fld (POOL_UNIT r.target) POOL_UNIT_STATE != 1 then Op.farEnd r 4 0
  else match s.unitSpare tried with
    | none => Op.farEnd r 1 0
    | some u =>
      if s.mirrorRefuse r.target u == 3 then Op.thn (job .shadow u) (Op.farJob fun j => { j with clash := true })
      else Op.all [job .shadow u, Op.mirrorStart r.target u true, Op.pwrNext]
/-- The first request that need not wait is taken up (R420). -/
def Op.farStart : Op := Op.dyn fun s =>
  match s.ecc.job, s.ecc.queue.find? fun r => !s.farWaits r with
  | none, some r => Op.all [Op.ecc (fun e => { e with queue := e.queue.erase r, job := some ⟨r, .shadow, 0, 0, false, []⟩ }),
      Op.farNext r [], Op.farStat]
  | _, _ => Op.skip

/-! Progress. -/

/-- The compare of a slice or strip has ended. A slice repair whose spare has passed waits while another newly enabled spare of the
engine does not show PASS (R99). -/
def Op.farCompared (kind n c sp : Nat) : Op := Op.dyn fun s =>
  match s.ecc.job with
  | some j => Op.when (j.stage == .shadow && !j.clash && j.req.kind == kind && j.req.eng == n) (
      if kind == 2 then
        if s.farPass j.req j.spare then Op.farSwap j
        else Op.when (j.req.conv == c && j.spare == sp && !s.sparePass n c sp)
          (Op.thn (Op.farRestore j.req) (Op.farNext j.req (j.tried ++ [sp])))
      else Op.when (j.req.rx == (c == 1))
        (if s.farPass j.req sp then Op.farSwap j else Op.farFail j 2))
  | none => Op.skip
/-- The mirror of a unit repair has ended (R427): a failed or aborted one is logged, and the next unit is tried. -/
def Op.farMirrored : Op := Op.dyn fun s =>
  match s.ecc.job with
  | some j => Op.when (j.req.kind == 4 && j.stage == .shadow && !j.clash && s.mir.spare == j.spare
        && s.fld POOL_MIRROR_STAT POOL_MIRROR_STAT_STATE == 3) (
      if s.farPass j.req j.spare then Op.farShadow j
      else Op.all [Op.farLog j.req (if s.bit POOL_MIRROR_STAT POOL_MIRROR_STAT_ABORTED then 4 else 2) j.spare,
        Op.when (s.fld (POOL_UNIT j.spare) POOL_UNIT_STATE == 2) (Op.thn (Op.setF (POOL_UNIT j.spare) POOL_UNIT_STATE 0) Op.poolWatch),
        Op.farNext j.req (j.tried ++ [j.spare])])
  | none => Op.skip
/-- After swaps of engine `n` have taken effect: a repair whose change stands in the active copy is DONE, one that has failed restores the
shadow copy of the engine, and a slice or a strip whose spare is free again has a spare. -/
def Op.farHook (n : Nat) : Op := Op.dyn fun s =>
  Op.thn (match s.ecc.job with
    | some j => match j.stage with
      | .restore o => Op.when (s.farEng j.req == n && !s.pendBlk n j.req.blk) (Op.farFail j o)
      | _ => Op.when (j.req.kind != 1 && j.stage == .swap && s.farActive j.req j.spare) (Op.farEnd j.req 0 j.spare)
    | none => Op.skip)
    (Op.each (s.col.conds.filter fun k => k.src == 5 && k.kind == 4) fun k =>
      let r : FarReq := ⟨BitVec.ofNat 32 (k.key / 256), 0⟩
      Op.when ((r.kind == 2 && (s.sliceSpare r []).isSome) || (r.kind == 3 && !s.stripUsed r)) (Op.farSpare r false))
/-- The farrier tries again (R421): after the swap that stood in its way, after its own swap was cancelled, after a mirror that
was in its way or that was aborted. -/
def Op.farRetry : Op := Op.dyn fun s =>
  match s.ecc.job with
  | none => Op.skip
  | some j =>
    let pend := s.pendBlk (s.farEng j.req) j.req.blk
    match j.stage with
    | .restore _ => Op.farHook (s.farEng j.req)
    | _ =>
    if j.req.kind == 1 then Op.skip
    else if j.stage == .swap then
      (if s.farActive j.req j.spare then Op.farHook (s.farEng j.req) else Op.when (!pend) (Op.farShadow j))
    else if j.req.kind == 4 && j.clash && !(s.mir.spare == j.spare && s.bit POOL_MIRROR_STAT POOL_MIRROR_STAT_PASS) then
      Op.when (s.mirrorRefuse j.req.target j.spare != 3) (Op.farNext j.req j.tried)
    else if j.clash then Op.when (!pend) (Op.farShadow j)
    else if j.req.kind == 4 then Op.farMirrored
    else Op.when (j.req.kind == 2 && s.farPass j.req j.spare) (Op.farSwap j)
/-- The block reset of the farrier (R443). -/
def Op.farReset : Op := Op.dyn fun s =>
  Op.all [match s.ecc.job with
    | some j => Op.thn (Op.when (Nat.ble 2 j.req.kind) (Op.farRestore j.req)) (Op.farEnd j.req 4 j.spare)
    | none => Op.skip,
    Op.ecc fun e => { e with queue := [] }, Op.farStat]
/-- The steps of a row repair (R422). -/
def Op.rowCopied : Op := Op.dyn fun s =>
  match s.ecc.job with
  | some j => Op.when (j.req.kind == 1 && j.stage == .copy) (Op.farJob fun j => { j with stage := .compare })
  | none => Op.skip
def Op.rowCompared (good : Bool) : Op := Op.dyn fun s =>
  match s.ecc.job with
  | some j => Op.when (j.req.kind == 1 && j.stage == .compare) (
      if good then Op.farJob fun j => { j with stage := .switch } else Op.farNext j.req (j.tried ++ [j.spare]))
  | none => Op.skip
def Op.rowSwitched : Op := Op.dyn fun s =>
  match s.ecc.job with
  | some j =>
    let r := j.req.target
    Op.when (j.req.kind == 1 && j.stage == .switch) (Op.all [
      Op.ecc (fun e => { e with remap := (r, j.req.macro_, j.req.row, j.spare)
        :: (e.remap.filter fun x => !(x.1 == r && x.2.1 == j.req.macro_ && x.2.2.1 == j.req.row)) }),
      Op.each ((List.range 32).filter fun e => s.bit (ECC_LOG_INFO r e) ECC_LOG_INFO_VALID
          && s.fld (ECC_LOG_ADDR r e) FAR_ARG_MACRO == j.req.macro_ && s.fld (ECC_LOG_ADDR r e) FAR_ARG_ROW == j.req.row) fun e =>
        Op.flag (ECC_LOG_INFO r e) ECC_LOG_INFO_REMAPPED,
      Op.farEnd j.req 0 j.spare])
  | none => Op.skip

/-! Strips (R424, R425). -/

/-- A residue check fails. -/
def Op.stripBad (n : Nat) (rx : Bool) (strip : Nat) : Op := Op.dyn fun s =>
  let side := if rx then 1 else 0
  Op.thn (Op.raise (srcEng n 12) 0x27 2 (16 * side + strip))
    (Op.when (s.bit FAR_CFG FAR_CFG_AUTO_STRIP)
      (Op.farQueue (BitVec.ofNat 32 (0x30000000 + n * 0x10000 + side * 0x100 + strip)) 0))
/-- The compare of a spare strip in shadow run ends. -/
def Op.stripDone (n : Nat) (rx good : Bool) : Op := Op.dyn fun s =>
  let en := if rx then STRIP_MAP_RX_EN else STRIP_MAP_TX_EN
  Op.when (s.bit (STRIP_MAP n) en && !s.bit (STRIP_MAP n + 0x4000) en) (Op.all [
    Op.flag (STRIP_SPARE_STAT n) (if rx then STRIP_SPARE_STAT_RX_DONE else STRIP_SPARE_STAT_TX_DONE),
    Op.setB (STRIP_SPARE_STAT n) (if rx then STRIP_SPARE_STAT_RX_PASS else STRIP_SPARE_STAT_TX_PASS) good,
    Op.farCompared 3 n (if rx then 1 else 0) 0])

/-! The mirror (R227). -/

/-- A write of POOL_MIRROR_CTL: ABORT before GO. -/
def Op.mirrorCtl (v : W) : Op := Op.all [
  Op.wr POOL_MIRROR_CTL (v &&& 0x3FFFFFFF#32),
  Op.when (v.getLsbD 30) Op.mirrorCut,
  Op.when (v.getLsbD 31) (Op.dyn fun s =>
    let t := getFld v POOL_MIRROR_CTL_TARGET
    let sp := getFld v POOL_MIRROR_CTL_SPARE
    let r := s.mirrorRefuse t sp
    if r != 0 then Op.setF POOL_MIRROR_STAT POOL_MIRROR_STAT_ERR r
    else Op.thn (Op.mirrorStart t sp false) Op.pwrNext)]

/-! Rows. -/

/-- A repair starts (R420). -/
def execRepairStart (s : State) := Op.farStart.next s
/-- The row has been copied to its spare (R422). -/
def execRowCopyDone (s : State) := Op.rowCopied.next s
/-- Both rows have been compared (R422). -/
def execRowCompareDone (good : Bool) (s : State) := (Op.rowCompared good).next s
/-- The row is redirected (R422, R423). -/
def execRowSwitch (s : State) := Op.rowSwitched.next s
/-- The farrier tries again (R421). -/
def execFarrierRetry (s : State) := Op.farRetry.next s
/-- A strip's residue check fails (R424). -/
def execStripCheck (n : Eng) (rx : Bool) (strip : Fin 16) (s : State) := (Op.stripBad n rx strip).next s
/-- The compare of a spare strip ends (R425). -/
def execStripCompareDone (n : Eng) (rx : Bool) (good : Bool) (s : State) := (Op.stripDone n rx good).next s
/-- The compare of a spare slice ends (R98). -/
def execSpareCompareDone (n : Eng) (c : Fin 8) (sp : Fin 4) (ws : List CapWord) (own act : List Byte) (s : State) :=
  (Op.thn (Op.adcIn n ws) (Op.dyn fun s =>
    Op.when (s.spareRun n c sp) (Op.thn (Op.spareDone n c sp own act) (Op.farCompared 2 n c sp)))).next s
/-- POOL_MIRROR_CTL.GO (R227). -/
def execMirrorGo (_p : Party) (v : W) (s : State) := (Op.hub (Op.mirrorCtl (v ||| 0x80000000#32))).next s
/-- POOL_MIRROR_CTL.ABORT (R228). -/
def execMirrorAbort (_p : Party) (v : W) (s : State) := (Op.hub (Op.mirrorCtl (v ||| 0x40000000#32))).next s
/-- 4,096 codewords have been compared (R227). -/
def execMirrorDone (s : State) := (Op.thn Op.mirrorEnd Op.farMirrored).next s

end Sys2Proof.Machine
end

