-- ==== Sys2Proof/Machine/Overhead.lean ====
section
/-! DEFINITION. The overhead channel: the frame that each transmit multiframe carries (R58–R64), and the receiver of frames with
what is done on a frame that is acted on (R62, R63, R67–R71). -/
namespace Sys2Proof.Machine

/-! Sending. -/

/-- Is MSN before S in the sense of R27? -/
def beforeS (msn sw : BitVec 24) : Bool := let d := sub24 sw msn; Nat.ble 1 d && Nat.blt d (2 ^ 23)
/-- The 32 bytes of the GAIT field of the frame of multiframe `msn` (R64, R66–R70). -/
def State.gaitField (s : State) (n : Nat) (msn : BitVec 24) : List Byte :=
  let p := (s.engS n).prop
  let r := (s.engS n).resp
  let prop := fun (msg tid : Nat) (sw : BitVec 24) =>
    [BitVec.ofNat 8 msg, BitVec.ofNat 8 tid, BitVec.ofNat 8 p.idx.toNat] ++ beBytes 3 sw.toNat ++ beBytes 2 p.check.toNat
  let first := if p.st == 1 then prop 1 (s.negTid n) p.s
    else if p.st == 2 && beforeS msn p.s then prop 2 (s.negTid n) p.s
    else match p.abandon with
      | some (t, sw) => if beforeS msn sw then prop 3 t.toNat sw else List.replicate 8 0#8
      | none => List.replicate 8 0#8
  let ans := fun (a : Answer) => [if a.ack then 1#8 else 2#8, a.tid, a.reason] ++ beBytes 3 a.s.toNat
  let second := match r.busy, r.answer with
    | some a, _ => ans a
    | none, some a => ans a
    | none, none => List.replicate 6 0#8
  first ++ second ++ List.replicate 18 0#8
/-- The mean SNR over the last 8 superframes: that of their sync words under R173 (DEDUCED, log 34); none while none was latched. -/
def State.meanSnr (s : State) (n : Nat) : Option (BitVec 16) :=
  let l := (s.engS n).acq.snrs.filterMap id
  if l.isEmpty then none else some (BitVec.ofInt 16 (openRound 16 (l.foldl (fun a x => a + x.toNat) 0 : Nat) l.length))
/-- The 32 bytes of the QUALITY field (R63): `snr` is the mean SNR, `at_` the recipient's number of the last superframe measured. -/
def State.qualField (s : State) (n : Nat) (o : TxSide) (snr : BitVec 16) (at_ : Nat) : List Byte :=
  beBytes 2 snr.toNat ++ beBytes 2 (s.fld (FEC_BER_LOG n) FEC_BER_LOG_BER_LOG) ++ beBytes 4 (s.engS n).uncSf
    ++ beBytes 2 (s.engS n).oh.bad.toNat
    ++ [o.reqGait &&& 0x8F#8, BitVec.ofNat 8 ((if s.rxLocked n then 1 else 0) + (if s.bit (RX_STAT n) RX_STAT_OH_LOCK then 2 else 0))]
    ++ beBytes 3 at_ ++ List.replicate 17 0#8
/-- The overhead frame of the multiframe that begins now (R60). -/
def State.ohFrame (s : State) (n : Nat) (o : TxSide) (snr : BitVec 16) (at_ : Nat) : List Byte :=
  let msn := s.sfTx n
  let oam := o.oam.take 133
  let body := [1#8, if s.bit (GAIT_STAT n) GAIT_STAT_EPOCH_TX then 1#8 else 0#8] ++ beBytes 3 msn.toNat
    ++ [BitVec.ofNat 8 (s.txAct n), 0#8, 0#8] ++ s.timeField n msn ++ s.gaitField n msn ++ s.qualField n o snr at_ ++ s.hintField n
    ++ [BitVec.ofNat 8 oam.length] ++ oam ++ List.replicate (133 - oam.length) 0#8
  body ++ beBytes 2 (crc16 body)
/-- Send the frame, which the eight superframes of the multiframe carry in slices (R58): AT is left open while OFS is not valid, and SNR
while none was measured (log 3). On the line it is sent only while the pads are not held (R479). -/
def Op.ohSend (n : Nat) (o : TxSide) : Op := Op.dyn fun s =>
  let put := fun (snr : BitVec 16) (at_ : Nat) => let f := s.ohFrame n o snr at_
    Op.thn (Op.eng n fun e => { e with frame := f }) (Op.when (!s.bit (PWR_DOM (domEng n)) PWR_DOM_PAD_HOLD) (Op.emit (.overhead n f)))
  let withAt := fun (snr : BitVec 16) =>
    if s.ofsValid n then put snr (s.sfRx n + s.ofs n - 1).toNat else Op.free fun w => put snr (w.toNat % 2 ^ 24)
  match s.meanSnr n with
  | some x => withAt x
  | none => Op.free fun w => withAt (w.setWidth 16)

/-! Receiving. -/

/-- The gait message of a frame that is acted on (R67–R71). -/
def Op.gaitMsg (n : Nat) (f : List Byte) : Op := Op.dyn fun s =>
  let b := fun i => (f.getD i 0#8).toNat
  let sw := fun i => BitVec.ofNat 24 (beVal (f.extract i (i + 3)))
  let mine := (s.engS n).prop.st == 1 && b 49 == s.negTid n && sw 51 == (s.engS n).prop.s
  Op.all [
    Op.when (b 48 == 1 && mine) (Op.negAcked n), Op.when (b 48 == 2 && mine) (Op.negNaked n (b 50)),
    Op.negNakEnd n (b 40 == 1) (b 41),
    if b 40 == 1 then Op.negPropose n (b 41) (b 42 % 16) (sw 43) (beVal (f.extract 46 48))
    else if b 40 == 2 then Op.negCommit n (b 41) (sw 43)
    else if b 40 == 3 then Op.negAbandoned n (b 41)
    else Op.skip]
/-- A frame is acted on (R62). -/
def Op.ohAct (n : Nat) (f : List Byte) : Op :=
  let len := (f.getD 120 0#8).toNat
  Op.all [
    Op.eng n (fun e => { e with oh := { e.oh with
      gait := BitVec.ofNat 4 (f.getD 5 0#8).toNat
      qual := f.extract 72 104
      oam := if Nat.ble len 133 then f.extract 121 (121 + len) else e.oh.oam
      oamBad := if Nat.ble len 133 then e.oh.oamBad else e.oh.oamBad + 1 } }),
    Op.lttFrame n f, Op.gaitMsg n f, Op.hintRx n f]
/-- The good frame that the hunt holds for the phase of local count `l0`, and the frames it holds with that one replaced. -/
def Overhead.at_ (x : Overhead) (l0 : BitVec 24) : Option (BitVec 24 × BitVec 24) := x.good.find? fun g => (l0 - g.2).toNat % 8 == 0
def Overhead.put (x : Overhead) (l0 : BitVec 24) (g : List (BitVec 24 × BitVec 24)) : List (BitVec 24 × BitVec 24) :=
  g ++ x.good.filter fun g => (l0 - g.2).toNat % 8 != 0
/-- A frame of 256 bytes whose first slice came in the superframe of local count `l0`, all of it under the present lock (R62). The spec
does not say whether a frame that fails the CRC, or one of another FORMAT, between two frames of another OFS breaks "two such frames in
succession": only a frame that agrees with OFS does (DESIGN CHOICE, log 34). -/
def Op.ohFrameIn (n : Nat) (f : List Byte) (l0 : BitVec 24) : Op := Op.dyn fun s =>
  let oh := (s.engS n).oh
  let msn := BitVec.ofNat 24 (beVal (f.extract 2 5))
  let held := s.bit (RX_STAT n) RX_STAT_OH_LOCK
  let good := crc16 f == 0
  let set := fun (g : Overhead → Overhead) => Op.eng n fun e => { e with oh := g e.oh }
  if held then
    if (l0 + s.ofs n).toNat % 8 != 0 then Op.skip
    else Op.thn (if !good then Op.thn (set fun x => { x with bad := x.bad + 1, fails := x.fails + 1 })
      (Op.when (Nat.ble 3 oh.fails) (Op.ohDrop n))
    else if (f.getD 0 0#8) != 1#8 then set fun x => { x with fails := 0, format := x.format + 1 }
    else if msn - l0 != s.ofs n then Op.thn (set fun x => { x with fails := 0, other := x.other + 1 })
      (Op.when (Nat.ble 1 oh.other) (Op.ohDrop n))
    else Op.thn (set fun x => { x with fails := 0, other := 0 }) (Op.ohAct n f)) (Op.lttTick n)
  else if !good then set fun x => { x with good := x.put l0 [] }
  else if (f.getD 0 0#8) != 1#8 then set fun x => { x with format := x.format + 1 }
  else if (match oh.at_ l0 with | some g => l0 - g.2 == 8#24 && msn - g.1 == 8#24 | none => false) then
    Op.all [set fun x => { x with good := [], fails := 0, other := 0, bad := 0 },
      Op.setF (RX_STAT n) RX_STAT_OH_LOCK 1, Op.wr (ENG_SF_OFS n) (BitVec.ofNat 32 (0x80000000 + (msn - l0).toNat)), Op.ohAct n f, Op.lttTick n]
  else set fun x => { x with good := x.put l0 [(msn, l0)] }
/-- The newest eight superframes whose symbols have passed the Glohiord stage, oldest first, when they follow each other. All are of
the present lock. -/
def State.ohSlices (s : State) (n : Nat) : Option (List RxSf) :=
  let l := ((s.engS n).rxp.sfs.dropWhile fun r => r.fed.isNone).take 8
  let ok := l.length == 8 && l.all (fun r => !r.syms.isEmpty && r.lk == (s.engS n).rxp.lk) && (List.range 7).all fun i =>
    (match l[i]?, l[i + 1]? with | some a, some b => a.cnt == b.cnt + 1 | _, _ => false)
  if ok then some l.reverse else none
/-- A whole overhead frame has been received (R58, R59, R62): the slices of eight superframes in a row. -/
def Op.ohReceive (n : Nat) : Op := Op.dyn fun s =>
  match s.ohSlices n with
  | some (r :: l) => Op.when (s.rxLocked n) (Op.ohFrameIn n ((r :: l).flatMap (s.sliceBytes n)) r.cnt)
  | _ => Op.skip

/-- A whole overhead frame is received (R62). -/
def execOverheadFrameReceive (n : Eng) (s : State) := (Op.ohReceive n).next s

end Sys2Proof.Machine
end

