-- ==== Sys2Proof/Machine/Boundary.lean ====
section
/-! DEFINITION. Superframe boundaries: switching on and off of the transmitter (R125, R126), what a transmit boundary does (R20–R23, R38,
R41, R58, R66–R68, R128, R137, R187, R191, R214, R325) and what a receive boundary does (R30, R39, R41, R71–R73, R142, R155, R171,
R172, R187, R213, R214, R231, R232, R250, R325). -/
namespace Sys2Proof.Machine

/-- Is a swap of block `b` of a side due at boundary `cnt`? -/
def State.dueBlk (s : State) (n b : Nat) (rx : Bool) (cnt : BitVec 24) : Bool :=
  (s.engS n).swaps.any fun p => p.blk == b && dueNow rx cnt p

/-! Transmit. -/

/-- The end of superframe `s.sfTx n` at the pads: its blocks, unless EN = 0 has taken them (R126), and the status bits that last for a
superframe. -/
def Op.sfTxEnd (n : Nat) (last : Bool) : Op := Op.dyn fun s =>
  Op.all [Op.when (match (s.engS n).sfs with | r :: _ => !r.done | [] => true) (Op.release n last),
    Op.nbrGone n false, Op.clipEnd n]

/-- The swaps that are due at transmit boundary `cnt` take effect; a GAIT_TX swap toggles the epoch and starts a run
(R23, R41, R214). -/
def Op.txSwaps (n : Nat) (cnt : BitVec 24) : Op := Op.dyn fun s =>
  let g := s.dueBlk n 0 false cnt
  Op.all [Op.swapsDue n false cnt,
    Op.when g (Op.setB (GAIT_STAT n) GAIT_STAT_EPOCH_TX (!s.bit (GAIT_STAT n) GAIT_STAT_EPOCH_TX)),
    Op.when (g || cnt == 0) (Op.runStart n cnt), Op.farHook n]

/-- The proposer at transmit boundary `cnt` (R67, R68): DONE at S, an ABANDON is sent until S, and the reply limit. -/
def Op.txNeg (n : Nat) (cnt : BitVec 24) : Op := Op.dyn fun s =>
  let p := (s.engS n).prop
  Op.all [Op.when (p.st == 2 && p.s == cnt) (Op.negTxState n 3 0),
    Op.when (match p.abandon with | some a => a.2 == cnt | none => false)
      (Op.eng n fun e => { e with prop := { e.prop with abandon := none } }),
    Op.dyn fun s => Op.when (s.replyOver n) (Op.negAbandon n 0x10)]

/-- The pipeline clear of R443 ends at the first boundary that is TOTAL clocks or more later. -/
def Op.holdStep (n : Nat) : Op := Op.eng n fun e =>
  if e.hold then { e with hold := Nat.blt 1 e.holdN, holdN := e.holdN - 1 } else e

/-- What begins with superframe `cnt`: the frame and the departure stamp of a multiframe (R58, R325), the matches of the neighbours
(R187), and the superframe itself, with slice `cnt` mod 8 of the frame. -/
def Op.sfTxBegin (n : Nat) (cnt : BitVec 24) (o : TxSide) : Op := Op.dyn fun s =>
  Op.all [Op.when (cnt.toNat % 8 == 0 && !(s.engS n).hold) (Op.thn (Op.ohSend n o) (Op.lttDepart n cnt)),
    Op.matches_ n false o.hw,
    Op.dyn fun t => Op.sfOpen n (((t.engS n).frame.drop (32 * (cnt.toNat % 8))).take 32) o.hw]

/-- The last superframe has left the pads (R30, R126). -/
def Op.txOff (n : Nat) : Op := Op.dyn fun s =>
  Op.when ((s.engS n).tx == .stopping) (Op.all [
    Op.sfTxEnd n true, Op.setF (TX_STAT n) TX_STAT_ON 0, Op.cancelTx n, Op.negTxOff n, Op.sfFlush n,
    Op.eng n fun e => { e with tx := .off, hold := false, holdN := 0 }])

/-- The first sample of superframe 0 reaches the pads (R30, R38, R41, R126). -/
def Op.txOn (n : Nat) (o : TxSide) : Op := Op.dyn fun s =>
  Op.when ((s.engS n).tx == .starting) (Op.all [
    Op.eng n (fun e => { e with tx := .on, txGen := e.txGen + 1 }), Op.flag (TX_STAT n) TX_STAT_ON, Op.setF (ENG_SF_TX n) ENG_SF_TX_SN 0,
    Op.setF (GAIT_STAT n) GAIT_STAT_EPOCH_TX 0, Op.txSwaps n 0,
    Op.sfTxBegin n 0 o, Op.countEv 1 n 0 1])

/-- A transmit boundary (R38). -/
def Op.txBoundary (n : Nat) (o : TxSide) : Op := Op.dyn fun s =>
  let cnt := s.sfTx n + 1
  if (s.engS n).tx == .stopping then Op.txOff n
  else Op.when ((s.engS n).tx == .on) (Op.all [
    Op.sfTxEnd n (s.dueBlk n 0 false cnt), Op.setF (ENG_SF_TX n) ENG_SF_TX_SN cnt.toNat,
    Op.txSwaps n cnt, Op.txNeg n cnt, Op.holdStep n, Op.sfTxBegin n cnt o, Op.countEv 1 n 0 1])

/-- Superframes whose calendar read has begun and that are not at the pads yet (R123, R126): the read of a superframe leads it by TOTAL
clocks, so that it is one of two counts while the transmitter sends; before that it is at least 1, since superframe 0 is read at once.
`read` is the count that the command tells. -/
def State.readBegun (s : State) (n : Nat) (read : Nat) : Nat :=
  let k := txTotal (s.reg (TX_MODE n + 0x4000)) / 320
  if s.bit (TX_STAT n) TX_STAT_ON then Nat.max k (Nat.min read (k + 1)) else Nat.max 1 (Nat.min read (k + 1))
/-- EN written 0 (R126): the superframe at the pads is the last, and those already read are lost with their blocks. -/
def Op.txStop (n : Nat) (read : Nat) : Op := Op.dyn fun s =>
  let on := s.bit (TX_STAT n) TX_STAT_ON
  Op.all [Op.setF (TX_CTL n) TX_CTL_EN 0, Op.cancelTx n, Op.negTxOff n,
    Op.when on (Op.release n true),
    Op.readAhead n (if on then (s.sfTx n).toNat + 1 else 0) (s.readBegun n read),
    Op.eng n fun e => { e with tx := if on then .stopping else .off }]
/-- A write of TX_CTL (R125, R126). Which of the two counts of read superframes holds is left open where the command does not tell it
(log 3). -/
def Op.txCtl (n : Nat) (v : W) (read : Option Nat) : Op := Op.dyn fun s =>
  let was := s.bit (TX_CTL n) TX_CTL_EN
  if v.getLsbD 0 then
    Op.when (!was) (if s.txMayStart n then
        Op.all [Op.flag (TX_CTL n) TX_CTL_EN, Op.runStart n 0, Op.eng n fun e => { e with tx := .starting }]
      else Op.flag (TX_STAT n) TX_STAT_ON_REFUSED)
  else Op.when was (match read with
    | some k => Op.txStop n k
    | none => Op.free fun w => Op.txStop n w.toNat)

/-! Receive. -/

/-- The mean frequency offset of the superframe that ends (R155), when one was estimated. -/
def Op.freq (n : Nat) : Op := Op.dyn fun s =>
  let r := (s.engS n).rxp
  Op.when (r.fcnt != 0) (Op.thn (Op.setF (RX_FREQ n) RX_FREQ_OFFSET (uns 16 (openRound 5 (r.fsum * 1000) (r.fcnt * 2 ^ 44))))
    (Op.rxp n fun r => { r with fsum := 0, fcnt := 0 }))

/-- The swaps that are due at receive boundary `cnt` (R30, R41). -/
def Op.rxSwaps (n : Nat) (cnt : BitVec 24) : Op := Op.dyn fun s =>
  let g := s.dueBlk n 1 true cnt
  let any := (s.engS n).swaps.any (dueNow true cnt)
  Op.all [Op.swapsDue n true cnt,
    Op.when (any && !s.rxLocked n) (Op.flag (ENG_SWAP_STAT n) ENG_SWAP_STAT_FLYWHEEL),
    Op.when g (Op.setB (GAIT_STAT n) GAIT_STAT_EPOCH_RX (!s.bit (GAIT_STAT n) GAIT_STAT_EPOCH_RX)), Op.farHook n]

/-- The epoch observed at a boundary in LOCKED (R73, R166): `r72` tells that the toggle is a case of R72, `g` that a GAIT_RX swap
took effect there. -/
def Op.rxEpoch (n : Nat) (e : Option Bool) (g r72 : Bool) : Op := Op.dyn fun s =>
  match e with
  | none => Op.skip
  | some x => Op.thn
      (Op.when ((s.engS n).acq.epo == some (!x) && !g && !r72) (Op.epochFault n))
      (Op.eng n fun e => { e with acq := { e.acq with epo := some x } })

/-- READY (R172). -/
def Op.rxReady (n : Nat) : Op := Op.dyn fun s =>
  Op.when (s.rxLocked n && s.bit (RX_STAT n) RX_STAT_OH_LOCK && (s.engS n).rxp.clean
    && s.fld (POOL_DEC n + 0x4000) POOL_DEC_COUNT != 0) (Op.flag (RX_STAT n) RX_STAT_READY)
/-- The boundary marker (R22, R142, R143): the stages up to the equaliser change at the predicted sample, and the next boundary is
predicted at the nominal spacing until a sync word is seen. -/
def Op.marker (n : Nat) : Op := Op.dyn fun s =>
  Op.thn (Op.segOpen n (s.engS n).rxp.bnd) (Op.rxp n fun r => { r with bnd := r.bnd + 81920 })
/-- The record of the superframe that begins in LOCKED, with all that is in force at its start; `g` tells that a GAIT_RX swap took effect
(R214, R224). While the receiver is not in LOCKED no superframe is followed (R171), and what was received under the last lock drains
through the demapper (R222). -/
def Op.sfRxOpen (n : Nat) (g : Bool) (hw : List Int) : Op := Op.dyn fun s =>
  let i := s.rxAct n
  let x := (s.engS n).rxp
  let r : RxSf := {
    lk := x.lk, cnt := s.sfRx n, t0 := none, sn := none, r0 := if g then some (s.sfRx n) else x.run
    w0 := s.reg (GAIT_W0 n i), w1 := s.reg (GAIT_W1 n i), w2 := s.reg (GAIT_W2 n i)
    epoch := (s.epochObs n).getD (s.bit (GAIT_STAT n) GAIT_STAT_EPOCH_RX), swap := s.bit (RX_STAT n) RX_STAT_POL_SWAP
    pr := s.reg (RX_PR_CFG n + 0x4000), scale := s.fld (RX_LLR_CFG n + 0x4000) RX_LLR_CFG_SCALE
    glo := s.gloRec n true (s.nbrNow n true hw), dec := decUnits (s.reg (POOL_DEC n + 0x4000))
    cal := ((s.calAll true false).filter fun e => e.eng == n).map fun e => (e.idx, e.com, e.ctx)
    syms := [], llr := [], fed := none, bad := (s.engS n).resp.catchUp, done := false, sat := false }
  if s.rxLocked n then Op.rxp n fun x => { x with run := r.r0, sfs := r :: x.sfs.take 23 }
  else Op.all [Op.rxp n fun x => { x with run := none, clean := false }, Op.sfDrain n, Op.deframeAll n 8]

/-- A receive boundary (R39, R142): the swaps of the boundary, the negotiation, the epoch, and the superframe that ends. -/
def Op.rxBoundary (n : Nat) (o : RxObs) : Op := Op.thn (Op.adcIn n o.ws) (Op.dyn fun s =>
  let cnt := s.sfRx n + 1
  let locked := s.rxLocked n
  let g := s.dueBlk n 1 true cnt
  let r72 := s.negRxState n == 2 && (s.engS n).resp.lt == cnt && !(s.engS n).resp.catchUp
  let mf := locked && s.ofsValid n && (cnt + s.ofs n).toNat % 8 == 0
  Op.all [Op.setF (ENG_SF_RX n) ENG_SF_RX_COUNT cnt.toNat, Op.nbrGone n true,
    Op.rxSwaps n cnt, Op.freq n, Op.marker n, Op.symbols n, Op.negCatchUp n cnt,
    Op.dyn fun t =>
      let epoch := if locked then t.epochObs n else none
      Op.thn (Op.negAtLt n cnt epoch) (Op.rxEpoch n epoch g r72),
    Op.sfRxOpen n g o.hw, Op.matches_ n true o.hw, Op.berEnd n,
    Op.when mf (Op.thn (Op.margin n) (Op.lttArrive n (cnt + s.ofs n))),
    Op.rxReady n, Op.carrierFault n, Op.when locked (Op.countEv 1 n 1 1)])

/-! Rows. -/

/-- TX_CTL.EN written 1 (R126). -/
def execTxEnable (p : Party) (n : Eng) (v : W) (s : State) :=
  (Op.gate p (TX_CTL n) true (domEng n) (Op.txCtl n (v ||| 1#32) none)).next s
/-- TX_CTL.EN written 0 (R126). -/
def execTxDisable (p : Party) (n : Eng) (v : W) (read : Nat) (s : State) :=
  (Op.gate p (TX_CTL n) true (domEng n) (Op.txCtl n (v &&& ~~~1#32) (some read))).next s
/-- TX_STAT.ON is set (R126). -/
def execTxOn (n : Eng) (o : TxSide) (s : State) := (Op.txOn n o).next s
/-- TX_STAT.ON clears (R126). -/
def execTxOffComplete (n : Eng) (s : State) := (Op.txOff n).next s
/-- A transmit boundary (R38). -/
def execTransmitBoundary (n : Eng) (o : TxSide) (s : State) := (Op.txBoundary n o).next s
/-- A receive boundary (R142). -/
def execReceiveBoundary (n : Eng) (o : RxObs) (s : State) := (Op.rxBoundary n o).next s
/-- The transmit boundary S of a committed negotiation (R68). -/
def execNegSwitchSuperframe (n : Eng) (o : TxSide) (s : State) :=
  (Op.dyn fun s => Op.when ((s.engS n).prop.st == 2 && (s.engS n).prop.s == s.sfTx n + 1) (Op.txBoundary n o)).next s
/-- The receive boundary Lt of a transaction that is ACKED or ARMED (R71, R72). -/
def execNegLocalTarget (n : Eng) (o : RxObs) (s : State) :=
  (Op.dyn fun s => Op.when ((s.negRxState n == 2 || s.negRxState n == 3) && (s.engS n).resp.lt == s.sfRx n + 1)
    (Op.rxBoundary n o)).next s
/-- The receive boundary after Lt at which a lost COMMIT is made good (R72). -/
def execGaitCatchUp (n : Eng) (o : RxObs) (s : State) :=
  (Op.dyn fun s => Op.when (s.engS n).resp.catchUp (Op.rxBoundary n o)).next s

end Sys2Proof.Machine
end

