-- ==== Sys2Proof/Machine/Monitor.lean ====
section
/-! DEFINITION. The monitor chain of an engine: running, its configuration, and reading (R336–R341). -/
namespace Sys2Proof.Machine

/-! Running. -/

/-- START (R337). -/
def Op.monStart (n : Nat) : Op := Op.dyn fun s =>
  if s.monOk n then Op.thn (Op.flag (MON_STAT n) MON_STAT_RUN) (Op.monRestart n)
  else Op.flag (MON_STAT n) MON_STAT_CFG_REFUSED
/-- A write of MON_CTL: STOP before START. -/
def Op.monCtl (n : Nat) (v : W) : Op :=
  Op.thn (Op.when (v.getLsbD 30) (Op.setF (MON_STAT n) MON_STAT_RUN 0)) (Op.when (v.getLsbD 31) (Op.monStart n))

/-- A configuration write (R338): OSNR_CORR in either state, the others while STOPPED. -/
def Op.monCfg (n a : Nat) (v : W) : Op := Op.dyn fun s =>
  if a == MON_OSNR_CORR n then Op.wr a v
  else if a == MON_CFG n || (Nat.ble (MON_FIR n 0) a && Nat.ble a (MON_FIR n 62)) then
    (if s.bit (MON_STAT n) MON_STAT_RUN then Op.flag (MON_STAT n) MON_STAT_CFG_REFUSED else Op.wr a v)
  else Op.skip

/-- A read of MON_FINE[0] (R339). -/
def Op.monFineRead (p : Party) (n : Nat) : Op := Op.dyn fun s =>
  Op.all [Op.data p (s.reg (MON_FINE n 0)), Op.each (List.range 7) fun q => Op.latch p (MON_FINE n (q + 1)) (s.reg (MON_FINE n (q + 1))),
    Op.latch p (MON_FINE_CNT n) (s.reg (MON_FINE_CNT n))]

/-- The coarse word of a channel (R336). -/
def State.monCoarse (s : State) (n q : Nat) : W :=
  BitVec.ofNat 32 ((if s.monValid n q then 0x80000000 else 0) + ((s.engS n).mon.chan q).raw.toNat)
/-- A read of MON_COARSE[0] (R336, R339). -/
def Op.monCoarseRead (p : Party) (n : Nat) : Op := Op.dyn fun s => Op.thn (Op.data p (s.monCoarse n 0))
  (Op.each (List.range 7) fun q => Op.latch p (MON_COARSE n (q + 1)) (s.monCoarse n (q + 1)))

/-! Rows. -/

/-- MON_CTL.START (R337). -/
def execMonStart (p : Party) (n : Eng) (v : W) (s : State) :=
  (Op.gate p (MON_CTL n) true (domEng n) (Op.monCtl n (v ||| 0x80000000#32))).next s
/-- MON_CTL.STOP (R337). -/
def execMonStop (p : Party) (n : Eng) (v : W) (s : State) :=
  (Op.gate p (MON_CTL n) true (domEng n) (Op.monCtl n (v ||| 0x40000000#32))).next s
/-- A write of a monitor configuration register (R338). -/
def execMonConfigWrite (p : Party) (n : Eng) (a : W) (v : W) (s : State) :=
  (Op.gate p a.toNat true (domEng n) (Op.monCfg n a.toNat v)).next s
/-- The datapath words up to the next fine output: each is one clock of the chain (R330–R335). -/
def execMonFineOutput (n : Eng) (ws : List CapWord) (s : State) := (Op.adcIn n ws).next s
/-- A read of MON_FINE[0] (R339). -/
def execMonFineRead (p : Party) (n : Eng) (ws : List CapWord) (s : State) :=
  (Op.thn (Op.adcIn n ws) (Op.gate p (MON_FINE n 0) false (domEng n) (Op.monFineRead p n))).next s
/-- A read of MON_COARSE[0] (R339). -/
def execMonCoarseRead (p : Party) (n : Eng) (ws : List CapWord) (s : State) :=
  (Op.thn (Op.adcIn n ws) (Op.gate p (MON_COARSE n 0) false (domEng n) (Op.monCoarseRead p n))).next s

end Sys2Proof.Machine
end

