-- ==== Sys2Proof/Machine/Crypto.lean ====
section
/-! DEFINITION. What R352 and R357 name without giving it: SHA-384 (FIPS 180-4) and the verification of ECDSA over P-384 (FIPS
186-5), taken from those standards (PRESUMED, log 20). -/
namespace Sys2Proof.Machine

/-! SHA-384. -/

/-- The largest integer whose cube is at most `x`, by `n` binary digits. -/
def icbrtAux (x : Nat) : Nat → Nat → Nat
  | 0, r => r
  | n + 1, r => let c := r + 2 ^ n; icbrtAux x n (if Nat.ble (c * c * c) x then c else r)
/-- The first `n` primes above a list of the primes found so far, from `k` on, with fuel. -/
def primesAux : Nat → Nat → List Nat → List Nat
  | 0, _, l => l.reverse
  | f + 1, k, l => primesAux f (k + 1) (if l.all (fun p => k % p != 0) then k :: l else l)
/-- The first 80 primes: those up to 409. -/
def primes80 : List Nat := primesAux 408 2 []
/-- The 80 round constants: fractions of cube roots. -/
def shaK : List (BitVec 64) := primes80.map fun p => BitVec.ofNat 64 (icbrtAux (p * 2 ^ 192) 70 0)
/-- The initial hash value: fractions of the square roots of the 9th to the 16th prime. -/
def shaH0 : List (BitVec 64) := ((primes80.drop 8).take 8).map fun p => BitVec.ofNat 64 (isqrt (p * 2 ^ 128))
def shaCh (x y z : BitVec 64) : BitVec 64 := (x &&& y) ^^^ (~~~x &&& z)
def shaMaj (x y z : BitVec 64) : BitVec 64 := (x &&& y) ^^^ (x &&& z) ^^^ (y &&& z)
def shaS0 (x : BitVec 64) : BitVec 64 := x.rotateRight 28 ^^^ x.rotateRight 34 ^^^ x.rotateRight 39
def shaS1 (x : BitVec 64) : BitVec 64 := x.rotateRight 14 ^^^ x.rotateRight 18 ^^^ x.rotateRight 41
def shaG0 (x : BitVec 64) : BitVec 64 := x.rotateRight 1 ^^^ x.rotateRight 8 ^^^ (x >>> 7)
def shaG1 (x : BitVec 64) : BitVec 64 := x.rotateRight 19 ^^^ x.rotateRight 61 ^^^ (x >>> 6)
/-- Extend the message schedule, newest word first. -/
def shaW : Nat → List (BitVec 64) → List (BitVec 64)
  | 0, l => l
  | n + 1, l => shaW n ((shaG1 (l.getD 1 0) + l.getD 6 0 + shaG0 (l.getD 14 0) + l.getD 15 0) :: l)
/-- One round on the working variables a to h. -/
def shaRound (v : List (BitVec 64)) (kw : BitVec 64 × BitVec 64) : List (BitVec 64) :=
  match v with
  | [a, b, c, d, e, f, g, h] =>
    let t1 := h + shaS1 e + shaCh e f g + kw.1 + kw.2
    [t1 + shaS0 a + shaMaj a b c, a, b, c, d + t1, e, f, g]
  | v => v
/-- The 64-bit words of bytes, big-endian. -/
def beWords : Nat → List Byte → List (BitVec 64)
  | 0, _ => []
  | n + 1, l => BitVec.ofNat 64 (beVal (l.take 8)) :: beWords n (l.drop 8)
/-- One block of 128 bytes. -/
def shaBlock (h : List (BitVec 64)) (b : List Byte) : List (BitVec 64) :=
  let w := (shaW 64 (beWords 16 b).reverse).reverse
  List.zipWith (· + ·) h ((shaK.zip w).foldl shaRound h)
/-- The blocks of a padded message. -/
def shaBlocks : Nat → List (BitVec 64) → List Byte → List (BitVec 64)
  | 0, h, _ => h
  | n + 1, h, m => shaBlocks n (shaBlock h (m.take 128)) (m.drop 128)
/-- SHA-384 of bytes, as a number. -/
def sha384 (m : List Byte) : Nat :=
  let pad := (239 - m.length % 128) % 128
  let p := m ++ [0x80#8] ++ List.replicate pad 0#8 ++ beBytes 16 (8 * m.length)
  ((shaBlocks (p.length / 128) shaH0 p).take 6).foldl (fun a w => a * 2 ^ 64 + w.toNat) 0

/-! P-384. -/

def ecP : Nat := 2 ^ 384 - 2 ^ 128 - 2 ^ 96 + 2 ^ 32 - 1
def ecN : Nat := 0xFFFFFFFFFFFFFFFFFFFFFFFFFFFFFFFFFFFFFFFFFFFFFFFFC7634D81F4372DDF581A0DB248B0A77AECEC196ACCC52973
def ecB : Nat := 0xB3312FA7E23EE7E4988E056BE3F82D19181D9C6EFE8141120314088F5013875AC656398D8A2ED19D2A85C8EDD3EC2AEF
def ecG : Nat × Nat :=
  (0xAA87CA22BE8B05378EB1C71EF320AD746E1D3B628BA79B9859F741E082542A385502F25DBF55296C3A545E3872760AB7,
   0x3617DE4A96262C6F5D9E98BF9292DC29F8F41DBD289A147CE9DA3113B5F0B8C00A60B1CE1D7E819D7A431D7C90EA0E5F)
/-- `b` to the power of the low `n` bits of `e`, modulo `m`. -/
def powMod (m b e : Nat) : Nat → Nat
  | 0 => 1 % m
  | n + 1 => let r := powMod m b (e / 2) n; let q := r * r % m; if e % 2 == 1 then q * b % m else q
/-- The inverse modulo a prime of 384 bits. -/
def invMod (m x : Nat) : Nat := powMod m x (m - 2) 384
/-- Sum of points; none is the point at infinity. -/
def ecAdd (u v : Option (Nat × Nat)) : Option (Nat × Nat) :=
  match u, v with
  | none, v => v
  | u, none => u
  | some (x, y), some (z, w) =>
    if x == z && (y + w) % ecP == 0 then none
    else
      let l := if x == z then (3 * x * x + (ecP - 3)) * invMod ecP (2 * y % ecP) % ecP
        else (w + ecP - y) * invMod ecP ((z + ecP - x) % ecP) % ecP
      let r := (l * l + 2 * ecP - x - z) % ecP
      some (r, (l * (x + ecP - r) + ecP - y) % ecP)
/-- The low `n` bits of `k` times a point. -/
def ecMul (g : Option (Nat × Nat)) (k : Nat) : Nat → Option (Nat × Nat)
  | 0 => none
  | n + 1 => let h := ecMul g (k / 2) n; let d := ecAdd h h; if k % 2 == 1 then ecAdd d g else d
/-- Does a point lie on the curve? -/
def ecOn (x y : Nat) : Bool :=
  Nat.blt x ecP && Nat.blt y ecP && y * y % ecP == (x * x * x + (ecP - 3) * x + ecB) % ecP
/-- ECDSA verification of digest `z` with key (x, y) and signature (r, s). -/
def ecVerify (x y z r s : Nat) : Bool :=
  ecOn x y && Nat.ble 1 r && Nat.blt r ecN && Nat.ble 1 s && Nat.blt s ecN
    && (let w := invMod ecN s
        match ecAdd (ecMul (some ecG) (z * w % ecN) 384) (ecMul (some (x, y)) (r * w % ecN) 384) with
        | some (u, _) => u % ecN == r
        | none => false)

end Sys2Proof.Machine
end

