-- ==== Sys2Proof/Machine/Steward.lean ====
section
/-! DEFINITION. The steward: images and their checks (R352, R355–R357), loading (R353, R354, R365), the fuses (R358), and the
calibration vault (R369–R373). -/
namespace Sys2Proof.Machine

/-! The vault (R369–R373). -/

/-- A record found in the vault: TYPE, KEY, LENGTH, SEQ, its offset and its bytes up to the CRC. -/
structure VRec where
  typ : Nat
  key : Nat
  len : Nat
  seq : Nat
  off : Nat
  bs  : List Byte
  deriving DecidableEq, Repr
/-- Are TYPE and LENGTH valid (R370)? -/
def vrecOk (typ len : Nat) : Bool := typ != 0 && typ != 0xFFFF && len % 4 == 0 && Nat.ble len 16384
/-- A multiple of 16. -/
def up16 (n : Nat) : Nat := (n + 15) / 16 * 16
/-- The bytes that a record takes (R370). -/
def VRec.size (r : VRec) : Nat := up16 (36 + r.len)
/-- The record at the head of the rest of a sector: one whose CRC is correct (R370, R371). -/
def vrecAt (o : Nat) (bs : List Byte) : Option VRec :=
  let typ := leVal (bs.take 2)
  let len := leVal (bs.extract 4 8)
  if vrecOk typ len && Nat.ble (up16 (36 + len)) bs.length
      && crc32c (bs.take (32 + len)) == leVal (bs.extract (32 + len) (36 + len)) then
    some ⟨typ, leVal (bs.extract 2 4), len, leVal (bs.extract 8 12), o, bs.take (36 + len)⟩
  else none
/-- The records in a sector, 16 bytes at a time where there is none. -/
def vaultWalk : Nat → Nat → List Byte → List VRec
  | 0, _, _ => []
  | n + 1, o, bs => match bs with
    | [] => []
    | _ => match vrecAt o bs with
      | some r => r :: vaultWalk n (o + r.size) (bs.drop r.size)
      | none => vaultWalk n (o + 16) (bs.drop 16)
/-- Offsets of the bytes of a sector that are not erased. -/
def State.vaultUsed (s : State) (x : Nat) : List Nat :=
  s.mem.filterMap fun e => if Nat.ble vaultKey e.1 && (e.1 - vaultKey) / 65536 == x then some ((e.1 - vaultKey) % 65536) else none
/-- The records of a sector, and of the vault. -/
def State.vaultSec (s : State) (x : Nat) : List VRec :=
  if (s.vaultUsed x).isEmpty then [] else vaultWalk 4096 (65536 * x) (s.bytes (vaultKey + 65536 * x) 65536)
def State.vaultRecs (s : State) : List VRec := ((List.range 16).map s.vaultSec).flatten
/-- The first offset of the erased space at the end of a sector, and its size. -/
def State.vaultTail (s : State) (x : Nat) : Nat := (s.vaultUsed x).foldl (fun a o => Nat.max a (up16 (o + 1))) 0
def State.vaultFree (s : State) (x : Nat) : Nat := 65536 - s.vaultTail x
/-- The erased sector that the steward keeps (R373). -/
def State.vaultKept (s : State) : Option Nat := ((List.range 16).filter fun x => (s.vaultUsed x).isEmpty).getLast?
def State.vaultOthers (s : State) : List Nat := (List.range 16).filter fun x => s.vaultKept != some x
/-- Erased space without the kept sector. -/
def State.vaultErased (s : State) : Nat := s.vaultOthers.foldl (fun a x => a + s.vaultFree x) 0
/-- STW_VAULT_STAT (R378). -/
def State.vaultStat (s : State) : W :=
  let mx := (List.range 16).foldl (fun a x => Nat.max a (Tab.get s.stw.erase (fun _ => 0) x)) 0
  BitVec.ofNat 32 (s.vaultErased / 1024 * 65536 + Nat.min mx 65535)
/-- Is a record current among the records (R371)? -/
def vaultCur (l : List VRec) (r : VRec) : Bool := !l.any fun x => x.typ == r.typ && x.key == r.key && Nat.blt r.seq x.seq
/-- Bytes of the live records (R372), each pair once, without the pair of a record that is to replace it. -/
def vaultLive (l : List VRec) (typ key : Nat) : Nat :=
  ((l.filter fun r => vaultCur l r && r.len != 0 && !(r.typ == typ && r.key == key)).foldl
    (fun (a : List (Nat × Nat) × Nat) r =>
      if a.1.contains (r.typ, r.key) then a else ((r.typ, r.key) :: a.1, a.2 + r.size)) ([], 0)).2

/-- Program bytes at a vault offset: programming needs no ECC word. -/
def Op.vaultPut (o : Nat) (bs : List Byte) : Op := Op.bytes (vaultKey + o) bs
/-- Erase a sector. -/
def Op.vaultErase (x : Nat) : Op :=
  Op.thn (Op.wipe (fun _ => true) (fun k => Nat.blt k (vaultKey + 65536 * x) || Nat.ble (vaultKey + 65536 * (x + 1)) k))
    (Op.stw fun w => { w with erase := Tab.set w.erase (fun _ => 0) x (Tab.get w.erase (fun _ => 0) x + 1) })
/-- Copy records one after another from a vault offset. -/
def Op.vaultCopy : Nat → List VRec → Op
  | _, [] => Op.skip
  | o, r :: l => Op.thn (Op.vaultPut o r.bs) (Op.vaultCopy (o + r.size) l)
/-- The records of a sector that a reclaim copies. -/
def State.vaultKeep (s : State) (x : Nat) : List VRec := (s.vaultSec x).filter (vaultCur s.vaultRecs)
/-- The sector to reclaim: that of the lowest SEQ, one without a valid record first, outside `done`. -/
def State.vaultOldest (s : State) (done : List Nat) : Option Nat :=
  let l := (List.range 16).filterMap fun x => if (s.vaultUsed x).isEmpty || done.contains x then none
    else some (x, ((s.vaultSec x).map (·.seq)).foldl (fun (a : Option Nat) q => some (match a with | some b => Nat.min b q | none => q)) none)
  (l.foldl (fun (a : Option (Nat × Nat)) e =>
    let k := match e.2 with | some q => q + 1 | none => 0
    match a with | some b => if Nat.blt k b.2 then some (e.1, k) else a | none => some (e.1, k)) none).map (·.1)
/-- Is there room for `n` bytes that leaves other erased space (R373)? -/
def State.vaultRoom (s : State) (n : Nat) : Bool :=
  s.vaultOthers.any (fun x => Nat.ble n (s.vaultFree x)) && Nat.blt n s.vaultErased
/-- Reclaim sectors until there is room, each at most once (R373). -/
def Op.vaultReclaim : Nat → Nat → List Nat → Op
  | 0, _, _ => Op.skip
  | f + 1, n, done => Op.dyn fun s =>
    if s.vaultRoom n then Op.skip
    else match s.vaultOldest done, s.vaultKept with
      | some x, some k => Op.all [Op.vaultCopy (65536 * k) (s.vaultKeep x), Op.vaultErase x, Op.vaultReclaim f n (x :: k :: done)]
      | _, _ => Op.skip
/-- The sector that an interrupted reclaim has left superfluous: every current record in it has a second copy, of the same SEQ, in another
sector (R371, R373). -/
def State.vaultDouble (s : State) : Option Nat := (List.range 16).find? fun x => (s.vaultKeep x).all fun r =>
  (List.range 16).any fun y => y != x && (s.vaultSec y).any fun q => q.typ == r.typ && q.key == r.key && q.seq == r.seq
/-- The steward starts: where a reclaim was cut and no sector is erased, the superfluous one is (R373; DESIGN CHOICE, log 22). -/
def Op.vaultMend : Op := Op.dyn fun s => if s.vaultKept.isSome then Op.skip else match s.vaultDouble with
  | some x => Op.vaultErase x
  | none => Op.skip
/-- STW_VAULT_SEQ and STW_VAULT_LAST from the contents, when the steward starts. -/
def Op.vaultLast : Op := Op.dyn fun s =>
  match s.vaultRecs.foldl (fun (a : Option VRec) r => match a with | some b => if Nat.blt b.seq r.seq then some r else a | none => some r) none with
  | some r => Op.thn (Op.wr STW_VAULT_SEQ (BitVec.ofNat 32 r.seq)) (Op.wr STW_VAULT_LAST (BitVec.ofNat 32 r.off))
  | none => Op.thn (Op.wr STW_VAULT_SEQ 0) (Op.wr STW_VAULT_LAST 0)

/-- The steward starts. -/
def Op.vaultScan : Op := Op.thn Op.vaultMend Op.vaultLast

/-- The staged record with SEQ, TIME and CRC as the device gives them (R370, R372). -/
def State.vaultRec (s : State) : List Byte :=
  let st := s.bytes s.stw.addr s.stw.len
  let len := leVal (st.extract 4 8)
  let b := st.take 8 ++ leBytes 4 (s.reg STW_VAULT_SEQ + 1).toNat ++ st.extract 12 16
    ++ leBytes 6 (if s.fld TU_STAT TU_STAT_STAMP_ST == 0 then 0 else (s.nowSet false).2.1) ++ List.replicate 10 0#8 ++ st.extract 32 (32 + len)
  b ++ leBytes 4 (crc32c b)
/-- The refusal of a staged record (R372): 0 none. -/
def State.vaultRefuse (s : State) (addr len : Nat) : Nat :=
  let typ := leVal (s.bytes addr 2)
  let n := leVal (s.bytes (addr + 4) 4)
  if Nat.blt 0x2000000 (addr + len) then 4
  else if !vrecOk typ n || len != 36 + n then 13
  else if n != 0 && Nat.blt (896 * 1024) (vaultLive s.vaultRecs typ (leVal (s.bytes (addr + 2) 2)) + up16 len) then 14
  else 0
/-! Commands (R375, R376). -/

def State.stwState (s : State) : Nat := s.fld STW_CMD_STAT STW_CMD_STAT_STATE
/-- A command ends: its message is posted (R362). -/
def Op.stwEnd (op err : Nat) (body : List Byte) : Op :=
  Op.all [Op.setF STW_CMD_STAT STW_CMD_STAT_BUSY 0, Op.setF STW_CMD_STAT STW_CMD_STAT_ERR err,
    Op.stw fun x => { x with op := none, targets := [], waiting := false }, Op.stwPost op (BitVec.ofNat 8 err :: body)]
/-- The end of a VAULT_COMMIT: the body names the record of STW_VAULT_SEQ when it succeeds, else zeros. -/
def Op.vaultEnd (err : Nat) : Op := Op.dyn fun s =>
  Op.stwEnd 3 err (List.replicate 3 0#8 ++ (if err == 0 then leBytes 4 (s.reg STW_VAULT_SEQ).toNat ++ leBytes 4 (s.reg STW_VAULT_LAST).toNat
    else List.replicate 8 0#8))
/-- An image command fails (R352): a failed UPDATE leaves the firmware RUNNING (log 21). -/
def Op.imgFail (err : Nat) : Op := Op.dyn fun s =>
  let op := s.stw.op.getD 1
  Op.thn (Op.setF STW_CMD_STAT STW_CMD_STAT_STATE (if op == 2 then 3 else 4)) (Op.stwEnd op err [])
/-- A command starts to run: BUSY, with its range held (R351). -/
def Op.stwStart (op : Nat) : Op := Op.dyn fun s =>
  Op.all [Op.stw fun x => { x with op := some op, addr := (s.reg STW_ARG_ADDR).toNat, len := (s.reg STW_ARG_LEN).toNat },
    Op.flag STW_CMD_STAT STW_CMD_STAT_BUSY, Op.setF STW_CMD_STAT STW_CMD_STAT_ERR 0]

/-- The fuses of the key slots and MIN_SVN as burned (R358). -/
def State.keyRevoked (s : State) : BitVec 4 := Config.fuseKeyRevoked ||| s.stw.revoked
def State.minSvn (s : State) : Nat := (match s.stw.minSvn with | some v => v | none => Config.fuseMinSvn).toNat
/-- STW_FUSE (R378). -/
def State.stwFuse (s : State) : W :=
  BitVec.ofNat 32 ((if Config.fuseSecure then 0x80000000 else 0) + Config.fuseKeyPresent.toNat * 0x1000000
    + s.keyRevoked.toNat * 0x100000 + s.minSvn)
/-- A fuse command is refused (R358). -/
def State.fuseRefused (s : State) : Bool := s.stwState != 3 || s.stw.unsig
/-- REVOKE_KEY. -/
def Op.revoke (slot : Nat) : Op := Op.dyn fun s =>
  if s.fuseRefused || Config.fuseKeyPresent &&& ~~~(s.keyRevoked ||| (1#4 <<< slot)) == 0#4 then Op.stwEnd 4 16 []
  else Op.thn (Op.stw fun x => { x with revoked := x.revoked ||| (1#4 <<< slot) }) (Op.stwEnd 4 0 [])
/-- RAISE_SVN: it never lowers MIN_SVN. -/
def Op.raiseSvn : Op := Op.dyn fun s =>
  if s.fuseRefused then Op.stwEnd 5 16 []
  else Op.thn (Op.stw fun x => { x with minSvn := some (BitVec.ofNat 7 (Nat.max s.minSvn (Nat.min s.stw.svn 64))) }) (Op.stwEnd 5 0 [])

/-! The test port's instructions (R537), in the model's numbering, for the spec gives no codes (log 23). -/
def tapExtest : Nat := 0
def tapIdcode : Nat := 1
def tapSample : Nat := 2
def tapClamp : Nat := 3
def tapHighz : Nat := 4
def tapPulse : Nat := 5
def tapTrain : Nat := 6
def tapBypass : Nat := 15
/-- Does an instruction take control of the pins? -/
def tapPins (ir : Nat) : Bool := [tapExtest, tapClamp, tapHighz, tapPulse, tapTrain].contains ir
/-- How the port drives the pins: 0 not, 1 by the cells (EXTEST, CLAMP), 2 high impedance, 3 and 4 the pulse and train of IEEE 1149.6. -/
def TapSt.drive (x : TapSt) : Nat × List Bool :=
  if x.ir == tapExtest || x.ir == tapClamp then (1, x.cells) else if x.ir == tapHighz then (2, [])
  else if x.ir == tapPulse then (3, x.cells) else if x.ir == tapTrain then (4, x.cells) else (0, [])
/-- A change of the test port: what it does to the pins goes out. -/
def Op.tapSet (f : TapSt → TapSt) : Op := Op.dyn fun s =>
  Op.thn (Op.mod fun s => { s with tap := f s.tap })
    (Op.when ((f s.tap).drive != s.tap.drive) (Op.emit (.testPins (f s.tap).drive.1 (f s.tap).drive.2)))
/-- The steward leaves WAIT_IMAGE or FAILED: an instruction that holds the pins ends (R538). -/
def Op.tapEnd : Op := Op.tapSet fun x => { x with ir := if tapPins x.ir then tapBypass else x.ir }

/-- GO of STW_CMD (R352, R365, R372, R375, R376): a GO that check 1 refuses leaves STATE unchanged (log 21). -/
def Op.stwGo (op slot : Nat) : Op := Op.dyn fun s =>
  let st := s.stwState
  let addr := (s.reg STW_ARG_ADDR).toNat
  let len := (s.reg STW_ARG_LEN).toNat
  let auth := Op.all [Op.stwStart op, Op.setF STW_CMD_STAT STW_CMD_STAT_STATE 1, Op.tapEnd]
  if s.stw.op.isSome then Op.setF STW_CMD_STAT STW_CMD_STAT_ERR 3
  else Op.thn (Op.setF STW_CMD_STAT STW_CMD_STAT_LAST_OP op) (
    if op == 1 then (if st == 0 || st == 4 then auth else Op.stwEnd 1 2 [])
    else if op == 2 then (if st == 3 then auth else Op.stwEnd 2 2 [])
    else if op == 3 then
      (if s.vaultRefuse addr len != 0 then Op.vaultEnd (s.vaultRefuse addr len) else Op.stwStart 3)
    else if op == 4 then Op.revoke slot
    else if op == 5 then Op.raiseSvn
    else Op.stwEnd op 1 [])
/-- A write of STW_CMD (R375). -/
def Op.stwCmd (v : W) : Op := Op.when (v.getLsbD 31) (Op.stwGo (getFld v STW_CMD_OP) (getFld v STW_CMD_SLOT))

/-! Images (R355–R357). -/

/-- A segment descriptor. -/
structure Seg where
  first  : Nat
  last   : Nat
  region : Nat
  dest   : Nat
  len    : Nat
  src    : Nat
  deriving DecidableEq, Repr
/-- `n` bytes of the image at an offset, as a number. -/
def State.img (s : State) (o n : Nat) : Nat := leVal (s.bytes (s.stw.addr + o) n)
def State.imgSigned (s : State) : Bool := s.img 6 2 % 2 == 1
def State.imgLen (s : State) : Nat := s.img 16 4
/-- Descriptor `i`. -/
def State.imgSeg (s : State) (i : Nat) : Seg :=
  let o := 128 + 16 * i
  ⟨s.img o 1, s.img (o + 1) 1, s.img (o + 2) 1, s.img (o + 4) 4, s.img (o + 8) 4, s.img (o + 12) 4⟩
def State.imgSegs (s : State) : List Seg := (List.range (Nat.min (s.img 20 4) 256)).map s.imgSeg
/-- The drones that a segment is written into. -/
def Seg.drones (g : Seg) : List Nat := if g.region == 2 then [] else (List.range 56).filter fun d => Nat.ble g.first d && Nat.ble d g.last
/-- Do two segments overlap in a drone, or in comb (R356)? -/
def segClash (a b : Seg) : Bool :=
  a.region == b.region && Nat.blt a.dest (b.dest + b.len) && Nat.blt b.dest (a.dest + a.len)
    && (a.region == 2 || (Nat.ble a.first b.last && Nat.ble b.first a.last))
def segsClash : List Seg → Bool
  | [] => false
  | g :: r => r.any (segClash g) || segsClash r
/-- Is a descriptor valid (R355, R356)? -/
def State.segOk (s : State) (update : Bool) (n : Nat) (g : Seg) : Bool :=
  Nat.ble g.first g.last && Nat.ble g.last 55 && Nat.ble g.region 2
    && g.len % 8 == 0 && g.len != 0 && g.src % 64 == 0
    && Nat.ble (128 + 16 * n) g.src && Nat.ble (g.src + g.len) s.imgLen
    && (if g.region == 0 then Nat.ble (g.dest + g.len) 0x10000
        else if g.region == 1 then Nat.ble (g.dest + g.len) 0x20000 && !update
        else Nat.ble 0x80000 g.dest && Nat.ble (g.dest + g.len) 0x2000000
          && (Nat.ble (g.dest + g.len) s.stw.addr || Nat.ble (s.stw.addr + s.stw.len) g.dest))
/-- The target drones: those that receive code or data. -/
def State.imgTargets (s : State) : List Nat := uniq ((s.imgSegs.map Seg.drones).flatten)
/-- The signature of a signed image verifies (R357). -/
def State.sigOk (s : State) : Bool :=
  let b := fun (o n : Nat) => beVal (s.bytes (s.stw.addr + s.imgLen + o) n)
  b 0 1 == 4 && ecVerify (b 1 48) (b 49 48) (sha384 (s.bytes s.stw.addr s.imgLen)) (b 112 48) (b 160 48)
/-- The first check of R352 from 2 on that fails, with the TARGET check of R365; 0 none. -/
def State.imgCheck (s : State) : Nat :=
  let a := s.stw.addr
  let n := s.img 20 4
  let up := s.stw.op == some 2
  let slot := s.img 11 1
  if !(a % 64 == 0 && Nat.ble 0x80000 a && Nat.ble (a + s.stw.len) 0x2000000 && Nat.ble s.stw.len 0x1000000) then 4
  else if !(s.img 0 4 == 0x4B445649 && s.img 4 2 == 1 && (s.img 6 2).testBit 1 == up
      && s.stw.len == s.imgLen + (if s.imgSigned then 256 else 0)) then 5
  else if !(s.img 8 2 == s.fld ID_DEVICE ID_DEVICE_PART && s.img 10 1 == s.fld ID_DEVICE ID_DEVICE_STEP) then 6
  else if !(Nat.ble 1 n && Nat.ble n 256 && s.imgLen % 64 == 0 && s.imgSegs.all (s.segOk up n) && !segsClash s.imgSegs) then 7
  else if !s.imgSigned && Config.fuseSecure then 8
  else if s.imgSigned && !(Nat.ble slot 3 && Config.fuseKeyPresent.getLsbD slot && !s.keyRevoked.getLsbD slot
      && sha384 (s.bytes (a + s.imgLen) 97) == (Config.fuseKeyHash slot).toNat) then 9
  else if Nat.blt (s.img 12 4) s.minSvn then 10
  else if s.imgSigned && !s.sigOk then 11
  else if up && s.imgTargets.any (fun d => s.bit (HIVE_DRN_STAT d) HIVE_DRN_STAT_PENDING) then 12
  else 0
/-- The checks end (R352, R354): the clusters of the targets are woken. -/
def Op.authDone : Op := Op.dyn fun s =>
  Op.when ((s.stw.op == some 1 || s.stw.op == some 2) && s.stwState == 1) (
    if s.imgCheck != 0 then Op.imgFail s.imgCheck
    else Op.all [Op.setF STW_CMD_STAT STW_CMD_STAT_STATE 2,
      Op.stw fun x => { x with targets := s.imgTargets, waiting := true }, Op.pwrNext])

/-! Loading (R353, R365). -/

/-- The bank that a drone's code goes into: bank A when it is UNLOADED or at BOOT, else the idle bank. -/
def State.loadBank (s : State) (update : Bool) (d : Nat) : Nat :=
  if update && s.drnHeld d != 0 then 1 - s.fld (HIVE_DRN_STAT d) HIVE_DRN_STAT_ACTIVE_BANK else 0
/-- Write one segment. -/
def Op.segWrite (update : Bool) (g : Seg) : Op := Op.dyn fun s =>
  let bs := s.bytes (s.stw.addr + g.src) g.len
  if g.region == 2 then Op.store (cells g.dest bs) false
  else Op.each g.drones fun d =>
    Op.store (cells (cellKey d (if g.region == 1 then 0x20000 + g.dest else 0x10000 * s.loadBank update d + g.dest)) bs) false
/-- Release a drone at the cold entry of bank A with its registers at reset (R353). -/
def Op.drnRelease (d : Nat) (build : W) : Op :=
  Op.all [Op.drn d (fun x => { DrnSt.init with cycle := x.cycle }),
    Op.dyn fun s => Op.wr (HIVE_DRN_STAT d) (s.reg (HIVE_DRN_STAT d) &&& 0x01000000#32), Op.wr (HIVE_DRN_BUILD d) build, Op.drnState d 1]
/-- A loaded image takes effect: each drone that received code is released, or told of its handover. -/
def Op.imgRun (update : Bool) : Op := Op.dyn fun s =>
  let code := uniq (((s.imgSegs.filter fun g => g.region == 0).map Seg.drones).flatten)
  let build := BitVec.ofNat 32 (s.img 24 4)
  Op.each code fun d =>
    if update && s.drnHeld d != 0 then
      Op.all [Op.setF (HIVE_DRN_STAT d) HIVE_DRN_STAT_IDLE_VALID 1, Op.drn d (fun x => { x with buildI := build }), Op.handover d]
    else Op.drnRelease d build
/-- The segments have been written, or a cluster has not become READY (R353, R354, R365). From then on the image is the running image,
whose SVN and signature R358 asks for (DEDUCED, log 21); STW_BUILD and UNSIGNED stay those of the boot image (R376, R378). -/
def Op.loadDone (ready : Bool) : Op := Op.dyn fun s =>
  let up := s.stw.op == some 2
  let all := s.stw.targets.all fun d => s.inRun (domClu (d / 8))
  Op.when ((s.stw.op == some 1 || up) && s.stwState == 2) (
    if ready && all then Op.all [
      Op.each s.imgSegs (Op.segWrite up), Op.imgRun up,
      Op.when (!up) (Op.all [Op.wr STW_BUILD (BitVec.ofNat 32 (s.img 24 4)), Op.setB STW_CMD_STAT STW_CMD_STAT_UNSIGNED (!s.imgSigned)]),
      Op.stw fun x => { x with svn := s.img 12 4, unsig := !s.imgSigned },
      Op.setF STW_CMD_STAT STW_CMD_STAT_STATE 3, Op.stwEnd (if up then 2 else 1) 0 []]
    else Op.when (!ready && !all && !s.stw.waiting && s.pwr.cmd.isNone) (Op.imgFail 12))

/-- The record has been programmed and read back (R372): `good` tells that it read back equal. The sector is any with room, and
the bytes of a record that did not program are open (log 22). -/
def Op.vaultDone (good : Bool) : Op := Op.dyn fun s =>
  Op.when (s.stw.op == some 3) (
    let b := s.vaultRec
    let n := up16 b.length
    Op.thn (Op.vaultReclaim 16 n []) (Op.dyn fun t =>
      match t.vaultOthers.filter fun x => Nat.ble n (t.vaultFree x) with
      | [] => Op.vaultEnd 14
      | x :: l => Op.free fun w =>
        let y := (x :: l).getD (w.toNat % (l.length + 1)) x
        let o := 65536 * y + t.vaultTail y
        if good then Op.all [Op.vaultPut o b, Op.wr STW_VAULT_SEQ (s.reg STW_VAULT_SEQ + 1), Op.wr STW_VAULT_LAST (BitVec.ofNat 32 o),
          Op.vaultEnd 0]
        else Op.freeWords (b.length / 4) fun ws => Op.thn (Op.vaultPut o ((ws.map fun w => leBytes 4 w.toNat).flatten)) (Op.vaultEnd 15)))
/-- Supply is lost during a commit (R373): a reclaim has copied some records and not erased their sector, or the record is
incomplete; which is open (log 22). -/
def Op.vaultTorn : Op := Op.dyn fun s =>
  Op.when (s.stw.op == some 3) (
    let b := s.vaultRec
    let n := up16 b.length
    Op.free fun w =>
      if !s.vaultRoom n && w.getLsbD 31 then
        match s.vaultOldest [], s.vaultKept with
        | some x, some k => Op.vaultCopy (65536 * k) ((s.vaultKeep x).take (w.toNat % 4096))
        | _, _ => Op.skip
      else Op.thn (Op.vaultReclaim 16 n []) (Op.dyn fun t =>
        match t.vaultOthers.filter fun x => Nat.ble n (t.vaultFree x) with
        | [] => Op.skip
        | x :: l => Op.free fun v =>
          let y := (x :: l).getD (v.toNat % (l.length + 1)) x
          Op.vaultPut (65536 * y + t.vaultTail y) (b.take (w.toNat % b.length))))

/-! Rows. -/

/-- STW_CMD BOOT (R352). -/
def execBoot (_p : Party) (s : State) := (Op.hub (Op.stwGo 1 0)).next s
/-- STW_CMD UPDATE (R365). -/
def execUpdate (_p : Party) (s : State) := (Op.hub (Op.stwGo 2 0)).next s
/-- STW_CMD VAULT_COMMIT (R372). -/
def execVaultCommit (_p : Party) (s : State) := (Op.hub (Op.stwGo 3 0)).next s
/-- STW_CMD REVOKE_KEY (R358). -/
def execRevokeKey (_p : Party) (slot : Fin 4) (s : State) := (Op.hub (Op.stwGo 4 slot)).next s
/-- STW_CMD RAISE_SVN (R358). -/
def execRaiseSvn (_p : Party) (s : State) := (Op.hub (Op.stwGo 5 0)).next s
/-- STW_CMD with an OP that is not listed (R375). -/
def execStwBadOp (_p : Party) (op : Fin 8) (s : State) :=
  (Op.hub (Op.stwGo (if Nat.ble 1 op && Nat.ble op 5 then 0 else op) 0)).next s
/-- The checks of an image end (R352). -/
def execAuthComplete (s : State) := (Op.hub Op.authDone).next s
/-- An image is loaded, or its clusters did not wake (R353, R354). -/
def execLoadComplete (ready : Bool) (s : State) := (Op.hub (Op.loadDone ready)).next s
/-- A vault record has been programmed (R372). -/
def execVaultProgramDone (good : Bool) (s : State) := (Op.hub (Op.vaultDone good)).next s

end Sys2Proof.Machine
end

