-- ==== Sys2Proof/Machine/Flags.lean ====
section
/-! DEFINITION. STATUS.SAT and saturation (R390): the narrowing operations round by rne of Bits and then saturate. -/
namespace Sys2Proof.Machine

/-- A value saturated to `b` signed bits, and whether it saturated. -/
def satS (b : Nat) (x : Int) : Int × Bool :=
  let y := clampI (-(2 ^ (b - 1))) (2 ^ (b - 1) - 1) x
  (y, decide (y ≠ x))
/-- A saturated 32-bit result with its flag. -/
def sat32 (x : Int) : W × Bool := (BitVec.ofInt 32 (satS 32 x).1, (satS 32 x).2)
/-- MULQ. -/
def mulQ (s t : W) : W × Bool := sat32 (rne (s.toInt * t.toInt) 31)
/-- A part of CRND on 16 bits, and of CEXT on 32 bits. -/
def rnd16 (x : BitVec 40) (sh : BitVec 5) : BitVec 16 × Bool :=
  let y := satS 16 (rne x.toInt sh.toNat)
  (BitVec.ofInt 16 y.1, y.2)
def rnd32 (x : BitVec 40) (sh : BitVec 5) : W × Bool := sat32 (rne x.toInt sh.toNat)
/-- An accumulator part saturated on 40 bits. -/
def sat40 (x : Int) : BitVec 40 × Bool := (BitVec.ofInt 40 (satS 40 x).1, (satS 40 x).2)
/-- Set SAT when an operation saturated; it stays set until software clears it. -/
def Op.satFlag (x : Nat) (b : Bool) : Op := Op.drn x fun z => { z with sat := z.sat || b }

end Sys2Proof.Machine
end

