-- ==== Sys2Proof/Machine/Operands.lean ====
section
/-! DEFINITION. The operand forms of Zynnan: general registers (R379), constants and shift counts (R389), complex words and
accumulators (R380, R391), address registers and their post-modify (R392), the data space (R384), control registers (R381,
R382), and the encoding of instructions (R386, R387). -/
namespace Sys2Proof.Machine

/-! Registers. -/

/-- A general register: g0 reads 0. -/
def DrnSt.gr (z : DrnSt) (r : Nat) : W := if r == 0 then 0#32 else Tab.get z.g (fun _ => 0#32) r
/-- Write a general register: a write to g0 is discarded. -/
def DrnSt.gw (z : DrnSt) (r : Nat) (v : W) : DrnSt := if r == 0 then z else { z with g := Tab.set z.g (fun _ => 0#32) r v }
/-- An address register and its modifiers. -/
def DrnSt.pr (z : DrnSt) (k : Nat) : W := Tab.get z.p (fun _ => 0#32) k
def DrnSt.pw (z : DrnSt) (k : Nat) (v : W) : DrnSt := { z with p := Tab.set z.p (fun _ => 0#32) k v }
/-- An accumulator. -/
def DrnSt.ar (z : DrnSt) (a : Nat) : BitVec 40 × BitVec 40 := Tab.get z.acc (fun _ => (0, 0)) a
def DrnSt.aw (z : DrnSt) (a : Nat) (v : BitVec 40 × BitVec 40) : DrnSt := { z with acc := Tab.set z.acc (fun _ => (0, 0)) a v }
def State.gr (s : State) (x r : Nat) : W := (s.drnS x).gr r

/-- A constant, sign-extended or zero-extended. -/
def sextK (k : BitVec 16) : W := k.signExtend 32
def zextK (k : BitVec 16) : W := k.setWidth 32
/-- A shift count from a register. -/
def shCount (t : W) : Nat := t.toNat % 32
/-- The target of a branch at `pc` (R388). -/
def brTo (pc off : BitVec 16) : BitVec 16 := pc + 4#16 * off
/-- The number of leading zeros. -/
def clz32 (v : W) : Nat := ((List.range 32).find? fun i => v.getLsbD (31 - i)).getD 32

/-! Complex words. -/

def cwI (v : W) : Int := (v.extractLsb' 0 16).toInt
def cwQ (v : W) : Int := (v.extractLsb' 16 16).toInt
/-- x times y, or times its conjugate. -/
def cwMul (x y : W) (conj : Bool) : Int × Int :=
  let q := if conj then -cwQ y else cwQ y
  (cwI x * cwI y - cwQ x * q, cwI x * q + cwQ x * cwI y)

/-! Post-modify (R392). -/

/-- Reverse the low `b` bits of a value and clear the others. -/
def revBits : Nat → Int → Nat
  | 0, _ => 0
  | b + 1, v => (if v % 2 = 1 then 2 ^ b else 0) + revBits b (v / 2)
/-- log2 of PL / 4 in bit-reversed mode: 1 to 12, where PL is accepted. -/
def revLog (pl : Nat) : Option Nat := (List.range 12).findSome? fun i => if pl == 4 * 2 ^ (i + 1) then some (i + 1) else none
/-- The pointer after a post-modify; none where AMODE or PL is not accepted. -/
def DrnSt.post (z : DrnSt) (k : Nat) (p : W) : Option W :=
  let pm := (Tab.get z.pm (fun _ => 0#32) k).toInt
  let pb := Tab.get z.pb (fun _ => 0#32) k
  let pl := (Tab.get z.pl (fun _ => 0#32) k).toNat
  let o : Int := (p.toNat : Int) - (pb.toNat : Int)
  match (Tab.get z.amode (fun _ => 0#32) k).toNat % 4 with
  | 0 => some (BitVec.ofInt 32 ((p.toNat : Int) + pm))
  | 1 => if pl % 4 == 0 && Nat.ble 4 pl then some (BitVec.ofInt 32 ((pb.toNat : Int) + (o + pm) % (pl : Int))) else none
  | 2 => (revLog pl).map fun b =>
      BitVec.ofNat 32 (pb.toNat + 4 * revBits b (((revBits b (o / 4) + revBits b (pm / 4)) % 2 ^ b : Nat) : Int))
  | _ => none
/-! The data space (R383, R384). -/

/-- A misaligned address traps with 3, one outside the space or out of reach with 4; else the key of the word. -/
def DrnSt.dataKey (z : DrnSt) (x : Nat) (a : W) (wr : Bool) : Except Nat Nat :=
  let n := a.toNat
  if n % 4 != 0 then .error 3
  else if Nat.blt n 0x20000 then .ok (cellKey x (0x20000 + n))
  else if Nat.ble 0x08000000 n && Nat.blt n 0x08020000 then
    (if z.keeper && !wr then .ok (cellKey x (n - 0x08000000)) else .error 4)
  else if Nat.ble 0x10000000 n && Nat.blt n 0x12000000 then
    let c := n - 0x10000000
    if z.keeper || (Nat.ble z.cwinB.toNat c && Nat.ble (c + 4) z.cwinL.toNat) then .ok c else .error 4
  else .error 4

/-! Control registers (R381, R382). -/

/-- STATUS. -/
def DrnSt.status (z : DrnSt) : W :=
  BitVec.ofNat 32 ((if z.keeper then 1 else 0) + (if z.prev then 2 else 0) + (if z.tip then 4 else 0) + (if z.sat then 8 else 0)
    + (if z.nmi then 16 else 0))
/-- The latch of CYCLE_HI, as an address of the drone's latches. -/
def cycHi : Nat := 0xFFFFFFFB
/-- The value that RDC reads; none for a number that is not listed. -/
def State.ctlRead (s : State) (x : Nat) (hi : W) (num : Nat) : Option W :=
  let z := s.drnS x
  if num == 0 then some z.status else if num == 1 then some z.tpc else if num == 2 then some z.tcode
  else if num == 3 then some z.taddr else if num == 4 then some z.tentry else if num == 8 then some (z.evpend.setWidth 32)
  else if num == 9 then some z.timer else if num == 0xA then some (z.cycle.setWidth 32) else if num == 0xB then some hi
  else if num == 0xC then some (BitVec.ofNat 32 (x / 8 * 64 + x))
  else if num == 0x10 then some z.pwinB else if num == 0x11 then some z.pwinL
  else if num == 0x12 then some z.cwinB else if num == 0x13 then some z.cwinL
  else if Nat.ble 0x20 num && Nat.blt num 0x28 then some (Tab.get z.pm (fun _ => 0#32) (num - 0x20))
  else if Nat.ble 0x28 num && Nat.blt num 0x30 then some (Tab.get z.pb (fun _ => 0#32) (num - 0x28))
  else if Nat.ble 0x30 num && Nat.blt num 0x38 then some (Tab.get z.pl (fun _ => 0#32) (num - 0x30))
  else if Nat.ble 0x38 num && Nat.blt num 0x40 then some (Tab.get z.amode (fun _ => 0#32) (num - 0x38))
  else none
/-- May worker mode write the register: STATUS (SAT alone), EVPEND, TIMER and the modifiers? -/
def workerWr (num : Nat) : Bool := num == 0 || num == 8 || num == 9 || (Nat.ble 0x20 num && Nat.blt num 0x40)
/-- A WRC that is permitted; a read-only register keeps its value. -/
def DrnSt.ctlWrite (z : DrnSt) (num : Nat) (v : W) : DrnSt :=
  if num == 0 then (if z.keeper then { z with sat := v.getLsbD 3, tip := v.getLsbD 2, prev := v.getLsbD 1 } else { z with sat := v.getLsbD 3 })
  else if num == 1 then { z with tpc := v &&& 0xFFFF#32 } else if num == 2 then { z with tcode := v &&& 0xF#32 }
  else if num == 3 then { z with taddr := v } else if num == 4 then { z with tentry := v &&& 0xFFFC#32 }
  else if num == 8 then { z with evpend := z.evpend &&& ~~~(v.setWidth 16) } else if num == 9 then { z with timer := v }
  else if num == 0x10 then { z with pwinB := v } else if num == 0x11 then { z with pwinL := v }
  else if num == 0x12 then { z with cwinB := v } else if num == 0x13 then { z with cwinL := v }
  else if Nat.ble 0x20 num && Nat.blt num 0x28 then { z with pm := Tab.set z.pm (fun _ => 0#32) (num - 0x20) v }
  else if Nat.ble 0x28 num && Nat.blt num 0x30 then { z with pb := Tab.set z.pb (fun _ => 0#32) (num - 0x28) v }
  else if Nat.ble 0x30 num && Nat.blt num 0x38 then { z with pl := Tab.set z.pl (fun _ => 0#32) (num - 0x30) v }
  else if Nat.ble 0x38 num && Nat.blt num 0x40 then { z with amode := Tab.set z.amode (fun _ => 0#32) (num - 0x38) (v &&& 3#32) }
  else z

/-! Encoding (R386, R387). -/

/-- The seven formats of one word, from bit 31 down. -/
def wTriad (d s : BitVec 5) (m : BitVec 6) (t : BitVec 5) (fn : BitVec 11) : W := ((((d ++ s) ++ m) ++ t) ++ fn)
def wConst (d s : BitVec 5) (m : BitVec 6) (k : BitVec 16) : W := (((d ++ s) ++ m) ++ k)
def wPtr (d : BitVec 5) (p : BitVec 3) (mode : BitVec 2) (m : BitVec 6) (k : BitVec 16) : W := ((((d ++ p) ++ mode) ++ m) ++ k)
def wCplx (fn : BitVec 4) (a1 a2 : BitVec 3) (m : BitVec 6) (g1 g2 : BitVec 5) (conj : BitVec 1) (sh : BitVec 5) : W :=
  (((((((fn ++ a1) ++ a2) ++ m) ++ g1) ++ g2) ++ conj) ++ sh)
def wSwap (d s : BitVec 5) (m : BitVec 6) (t : BitVec 5) (wh : BitVec 2) (own : BitVec 1) (z : BitVec 2) (e : BitVec 6) : W :=
  (((((((d ++ s) ++ m) ++ t) ++ wh) ++ own) ++ z) ++ e)
/-- A register number as a field, and back. -/
def gF (r : GReg) : BitVec 5 := BitVec.ofNat 5 r.val
def pF (r : PReg) : BitVec 3 := BitVec.ofNat 3 r.val
def aF (r : AReg) : BitVec 3 := BitVec.ofNat 3 r.val
def fG (f : BitVec 5) : GReg := ⟨f.toNat, f.isLt⟩
def fP (f : BitVec 3) : PReg := ⟨f.toNat, f.isLt⟩
def fA (f : BitVec 3) : AReg := ⟨f.toNat, f.isLt⟩
def bF (b : Bool) : BitVec 1 := BitVec.ofBool b

/-- The word of an instruction and the second word of a long form; none for a command that is no drone instruction, and for a JA
whose target is no target (R387). -/
def zynEncode : Instr → Option (W × Option W)
  | .add _ d s t => some (wTriad (gF d) (gF s) 0 (gF t) 0, none)
  | .sub _ d s t => some (wTriad (gF d) (gF s) 0 (gF t) 1, none)
  | .and _ d s t => some (wTriad (gF d) (gF s) 0 (gF t) 2, none)
  | .or _ d s t => some (wTriad (gF d) (gF s) 0 (gF t) 3, none)
  | .xor _ d s t => some (wTriad (gF d) (gF s) 0 (gF t) 4, none)
  | .shl _ d s t => some (wTriad (gF d) (gF s) 0 (gF t) 5, none)
  | .shr _ d s t => some (wTriad (gF d) (gF s) 0 (gF t) 6, none)
  | .sra _ d s t => some (wTriad (gF d) (gF s) 0 (gF t) 7, none)
  | .less _ d s t => some (wTriad (gF d) (gF s) 0 (gF t) 8, none)
  | .lessu _ d s t => some (wTriad (gF d) (gF s) 0 (gF t) 9, none)
  | .mul _ d s t => some (wTriad (gF d) (gF s) 0 (gF t) 0xA, none)
  | .mulq _ d s t => some (wTriad (gF d) (gF s) 0 (gF t) 0xB, none)
  | .adds _ d s t => some (wTriad (gF d) (gF s) 0 (gF t) 0xC, none)
  | .subs _ d s t => some (wTriad (gF d) (gF s) 0 (gF t) 0xD, none)
  | .min _ d s t => some (wTriad (gF d) (gF s) 0 (gF t) 0xE, none)
  | .max _ d s t => some (wTriad (gF d) (gF s) 0 (gF t) 0xF, none)
  | .clz _ d s => some (wTriad (gF d) (gF s) 0 0 0x10, none)
  | .xadd _ d s t => some (wTriad (gF d) (gF s) 0 (gF t) 0x11, none)
  | .addk _ d s k => some (wConst (gF d) (gF s) 0x04 k, none)
  | .andk _ d s k => some (wConst (gF d) (gF s) 0x05 k, none)
  | .ork _ d s k => some (wConst (gF d) (gF s) 0x06 k, none)
  | .xork _ d s k => some (wConst (gF d) (gF s) 0x07 k, none)
  | .shlk _ d s k => some (wConst (gF d) (gF s) 0x08 (0#11 ++ k), none)
  | .shrk _ d s k => some (wConst (gF d) (gF s) 0x09 (0#11 ++ k), none)
  | .srak _ d s k => some (wConst (gF d) (gF s) 0x0A (0#11 ++ k), none)
  | .lessk _ d s k => some (wConst (gF d) (gF s) 0x0B k, none)
  | .lessku _ d s k => some (wConst (gF d) (gF s) 0x0C k, none)
  | .hik _ d k => some (wConst (gF d) 0 0x0D k, none)
  | .ldw _ d s k => some (wConst (gF d) (gF s) 0x10 k, none)
  | .stw _ d s k => some (wConst (gF d) (gF s) 0x11 k, none)
  | .ldp _ d p post k => some (wPtr (gF d) (pF p) (0#1 ++ bF post) 0x12 k, none)
  | .stp _ d p post k => some (wPtr (gF d) (pF p) (0#1 ++ bF post) 0x13 k, none)
  | .pset _ d p k => some (wPtr (gF d) (pF p) 0 0x14 k, none)
  | .pget _ d p => some (wPtr (gF d) (pF p) 0 0x15 0, none)
  | .breq _ s t off => some (wConst (gF s) (gF t) 0x18 off, none)
  | .brne _ s t off => some (wConst (gF s) (gF t) 0x19 off, none)
  | .brlt _ s t off => some (wConst (gF s) (gF t) 0x1A off, none)
  | .brge _ s t off => some (wConst (gF s) (gF t) 0x1B off, none)
  | .brltu _ s t off => some (wConst (gF s) (gF t) 0x1C off, none)
  | .brgeu _ s t off => some (wConst (gF s) (gF t) 0x1D off, none)
  | .call _ d k => some (wConst (gF d) 0 0x1E k, none)
  | .goto _ d s => some (wTriad (gF d) (gF s) 0x1F 0 0, none)
  | .cmul _ a g1 g2 c => some (wCplx 0 (aF a) 0 0x20 (gF g1) (gF g2) (bF c) 0, none)
  | .cmac _ a g1 g2 c => some (wCplx 1 (aF a) 0 0x20 (gF g1) (gF g2) (bF c) 0, none)
  | .cmsu _ a g1 g2 c => some (wCplx 2 (aF a) 0 0x20 (gF g1) (gF g2) (bF c) 0, none)
  | .crnd _ g1 a sh => some (wCplx 3 (aF a) 0 0x20 (gF g1) 0 0 sh, none)
  | .cext _ g1 g2 a sh => some (wCplx 4 (aF a) 0 0x20 (gF g1) (gF g2) 0 sh, none)
  | .cadd _ a1 a2 => some (wCplx 5 (aF a1) (aF a2) 0x20 0 0 0 0, none)
  | .cset _ a g1 g2 => some (wCplx 6 (aF a) 0 0x20 (gF g1) (gF g2) 0 0, none)
  | .cclr _ a => some (wCplx 7 (aF a) 0 0x20 0 0 0 0, none)
  | .bexp _ d p n => some (wPtr (gF d) (pF p) 0 0x21 (gF n ++ 0#11), none)
  | .epl _ d s k => some (wConst (gF d) (gF s) 0x28 k, none)
  | .eps _ d s k => some (wConst (gF d) (gF s) 0x29 k, none)
  | .swap _ d s t wh own e => some (wSwap (gF d) (gF s) 0x2A (gF t) wh (bF own) 0 e, none)
  | .wfe _ d s poll => some (wConst (gF d) (gF s) 0x2B (0#15 ++ bF poll), none)
  | .order _ => some (wConst 0 0 0x30 0, none)
  | .ready _ => some (wConst 0 0 0x30 1, none)
  | .banksw _ => some (wConst 0 0 0x30 2, none)
  | .sys _ => some (wConst 0 0 0x30 3, none)
  | .rtt _ => some (wConst 0 0 0x30 4, none)
  | .rdc _ d num => some (wConst (gF d) 0 0x31 (0#4 ++ num), none)
  | .wrc _ s num => some (wConst 0 (gF s) 0x32 (0#4 ++ num), none)
  | .li _ d imm => some (wConst (gF d) 0 0x3F 0, some imm)
  | .ja _ imm => if imm &&& 0xFFFF0003#32 == 0#32 then some (wConst 0 1 0x3F 0, some imm) else none
  | .epla _ d imm => some (wConst (gF d) 2 0x3F 0, some imm)
  | .epsa _ d imm => some (wConst (gF d) 3 0x3F 0, some imm)
  | _ => none

/-- The Triad instructions of major opcode 0, by fn. -/
def zynTriad (x : Drn) (d s t : GReg) (fn : Nat) : Option Instr :=
  match fn with
  | 0 => some (.add x d s t) | 1 => some (.sub x d s t) | 2 => some (.and x d s t) | 3 => some (.or x d s t)
  | 4 => some (.xor x d s t) | 5 => some (.shl x d s t) | 6 => some (.shr x d s t) | 7 => some (.sra x d s t)
  | 8 => some (.less x d s t) | 9 => some (.lessu x d s t) | 0xA => some (.mul x d s t) | 0xB => some (.mulq x d s t)
  | 0xC => some (.adds x d s t) | 0xD => some (.subs x d s t) | 0xE => some (.min x d s t) | 0xF => some (.max x d s t)
  | 0x10 => if t.val == 0 then some (.clz x d s) else none
  | 0x11 => some (.xadd x d s t)
  | _ => none
/-- The Complex instructions, by fn; a field that the instruction does not use is zero. -/
def zynCplx (x : Drn) (fn : Nat) (a1 a2 : AReg) (g1 g2 : GReg) (conj : Bool) (sh : BitVec 5) : Option Instr :=
  let z2 := a2.val == 0
  let zs := sh == 0#5
  match fn with
  | 0 => if z2 && zs then some (.cmul x a1 g1 g2 conj) else none
  | 1 => if z2 && zs then some (.cmac x a1 g1 g2 conj) else none
  | 2 => if z2 && zs then some (.cmsu x a1 g1 g2 conj) else none
  | 3 => if z2 && g2.val == 0 && !conj then some (.crnd x g1 a1 sh) else none
  | 4 => if z2 && !conj then some (.cext x g1 g2 a1 sh) else none
  | 5 => if g1.val == 0 && g2.val == 0 && !conj && zs then some (.cadd x a1 a2) else none
  | 6 => if z2 && !conj && zs then some (.cset x a1 g1 g2) else none
  | 7 => if z2 && g1.val == 0 && g2.val == 0 && !conj && zs then some (.cclr x a1) else none
  | _ => none
/-- The long forms, by sub. -/
def zynLong (x : Drn) (d : GReg) (sub : Nat) (k : BitVec 16) (imm : W) : Option Instr :=
  if k != 0#16 then none
  else match sub with
    | 0 => some (.li x d imm)
    | 1 => if d.val == 0 && imm &&& 0xFFFF0003#32 == 0#32 then some (.ja x imm) else none
    | 2 => some (.epla x d imm)
    | 3 => some (.epsa x d imm)
    | _ => none
/-- The instruction of drone `x` that a word spells, with the second word where it is a long form; none is ILLEGAL. -/
def zynDecode (x : Drn) (w w2 : W) : Option Instr :=
  let d := fG (w.extractLsb' 27 5)
  let s := fG (w.extractLsb' 22 5)
  let t := fG (w.extractLsb' 11 5)
  let p := fP (w.extractLsb' 24 3)
  let mode := (w.extractLsb' 22 2).toNat
  let k := w.extractLsb' 0 16
  let sh := w.extractLsb' 0 5
  let z11 := w.extractLsb' 0 11 == 0#11
  let cnt := w.extractLsb' 5 11 == 0#11
  match (w.extractLsb' 16 6).toNat with
  | 0x00 => zynTriad x d s t (w.extractLsb' 0 11).toNat
  | 0x04 => some (.addk x d s k) | 0x05 => some (.andk x d s k) | 0x06 => some (.ork x d s k) | 0x07 => some (.xork x d s k)
  | 0x08 => if cnt then some (.shlk x d s sh) else none
  | 0x09 => if cnt then some (.shrk x d s sh) else none
  | 0x0A => if cnt then some (.srak x d s sh) else none
  | 0x0B => some (.lessk x d s k) | 0x0C => some (.lessku x d s k)
  | 0x0D => if s.val == 0 then some (.hik x d k) else none
  | 0x10 => some (.ldw x d s k) | 0x11 => some (.stw x d s k)
  | 0x12 => if Nat.ble mode 1 then some (.ldp x d p (mode == 1) k) else none
  | 0x13 => if Nat.ble mode 1 then some (.stp x d p (mode == 1) k) else none
  | 0x14 => if mode == 0 then some (.pset x d p k) else none
  | 0x15 => if mode == 0 && k == 0#16 then some (.pget x d p) else none
  | 0x18 => some (.breq x d s k) | 0x19 => some (.brne x d s k) | 0x1A => some (.brlt x d s k)
  | 0x1B => some (.brge x d s k) | 0x1C => some (.brltu x d s k) | 0x1D => some (.brgeu x d s k)
  | 0x1E => if s.val == 0 then some (.call x d k) else none
  | 0x1F => if k == 0#16 then some (.goto x d s) else none
  | 0x20 => zynCplx x (w.extractLsb' 28 4).toNat (fA (w.extractLsb' 25 3)) (fA (w.extractLsb' 22 3)) t (fG (w.extractLsb' 6 5))
      (w.getLsbD 5) sh
  | 0x21 => if mode == 0 && z11 then some (.bexp x d p t) else none
  | 0x28 => some (.epl x d s k) | 0x29 => some (.eps x d s k)
  | 0x2A => if w.extractLsb' 6 2 == 0#2 then some (.swap x d s t (w.extractLsb' 9 2) (w.getLsbD 8) (w.extractLsb' 0 6)) else none
  | 0x2B => if w.extractLsb' 1 15 == 0#15 then some (.wfe x d s (w.getLsbD 0)) else none
  | 0x30 => if d.val == 0 && s.val == 0 then
      (match k.toNat with
       | 0 => some (.order x) | 1 => some (.ready x) | 2 => some (.banksw x) | 3 => some (.sys x) | 4 => some (.rtt x) | _ => none)
      else none
  | 0x31 => if s.val == 0 && w.extractLsb' 12 4 == 0#4 then some (.rdc x d (w.extractLsb' 0 12)) else none
  | 0x32 => if d.val == 0 && w.extractLsb' 12 4 == 0#4 then some (.wrc x s (w.extractLsb' 0 12)) else none
  | 0x3F => zynLong x d s.val k w2
  | _ => none

end Sys2Proof.Machine
end

