-- ==== Sys2Proof/Machine/Zynnan.lean ====
section
/-! DEFINITION. The Zynnan instructions (R379–R406), but for the accesses to parameter space: each row is one instruction that
the drone named executes at its PC. A drone executes only in RUN (R363); a completed instruction leaves PC at the next one. -/
namespace Sys2Proof.Machine

/-- The instruction after this one; after a long form. -/
def DrnSt.adv (z : DrnSt) : DrnSt := { z with pc := z.pc + 4#16 }
def DrnSt.adv8 (z : DrnSt) : DrnSt := { z with pc := z.pc + 8#16 }

/-- The address of a code word in the active bank (R346, R388). -/
def State.fetchAt (s : State) (x : Nat) (pc : BitVec 16) : Nat :=
  cellKey x (0x10000 * s.fld (HIVE_DRN_STAT x) HIVE_DRN_STAT_ACTIVE_BANK + pc.toNat)
/-- Does the fetch of a code word meet no error that is known? -/
def State.fetchOk (s : State) (x : Nat) (pc : BitVec 16) : Bool := s.syndAt (wordOf (s.fetchAt x pc)) 0 == 0
/-- Does a drone execute: it is in RUN (R363), and the word it fetches meets no error that is known? And so for both words of a long
form. -/
def State.executes (s : State) (x : Nat) : Bool := s.drnState x == 1 && s.fetchOk x (s.drnS x).pc
def State.executes8 (s : State) (x : Nat) : Bool := s.executes x && s.fetchOk x ((s.drnS x).pc + 4#16)
/-- A fetch that meets an error is a read of it (R409), and that of an uncorrectable word traps with ECC_FETCH at its bank offset (R401,
R414). -/
def Op.fetch (x : Nat) (pc : BitVec 16) (o : Op) : Op := Op.dyn fun s =>
  if s.fetchOk x pc then o
  else Op.thn (Op.eccRead none (s.fetchAt x pc) 0) (Op.dyn fun t => Op.when (!t.poisoned (wordOf (s.fetchAt x pc))) o)
/-- A drone in RUN executes an instruction (R363); one of two words (R387). -/
def Op.zyn (x : Nat) (o : Op) : Op := Op.dyn fun s =>
  Op.when (s.drnState x == 1) (Op.fetch x (s.drnS x).pc o)
def Op.zyn8 (x : Nat) (o : Op) : Op := Op.zyn x (Op.dyn fun s => Op.fetch x ((s.drnS x).pc + 4#16) o)
/-- An instruction over the drone's own registers. -/
def Op.zynRun (x : Nat) (f : DrnSt → DrnSt) : Op := Op.zyn x (Op.drn x fun z => (f z).adv)
/-- An instruction that writes one general register. -/
def Op.zynReg (x d : Nat) (f : DrnSt → W) : Op := Op.zynRun x fun z => z.gw d (f z)
/-- An instruction that writes one general register and sets SAT when it saturated (R390). -/
def Op.zynSat (x d : Nat) (f : DrnSt → W × Bool) : Op :=
  Op.zynRun x fun z => { z.gw d (f z).1 with sat := z.sat || (f z).2 }
/-- A branch (R388). -/
def Op.zynBr (x : Nat) (off : BitVec 16) (c : DrnSt → Bool) : Op :=
  Op.zyn x (Op.drn x fun z => if c z then { z with pc := brTo z.pc off } else z.adv)
/-- An instruction that writes one accumulator and sets SAT when a part saturated (R391). -/
def Op.zynAcc (x a : Nat) (f : DrnSt → (BitVec 40 × Bool) × (BitVec 40 × Bool)) : Op :=
  Op.zynRun x fun z => { z.aw a ((f z).1.1, (f z).2.1) with sat := z.sat || ((f z).1.2 || (f z).2.2) }
/-- The instruction traps with a cause and address, TPC being its own address (R401). -/
def Op.trapHere (x code : Nat) (a : W) : Op := Op.dyn fun s => Op.trap x code (s.drnS x).pc a
/-- An accumulator part plus an exact value, saturated. -/
def accAdd (a : BitVec 40) (v : Int) : BitVec 40 × Bool := sat40 (a.toInt + v)

/-! The data space (R384). -/

/-- Load the word at a data address. -/
def Op.dataRd (x : Nat) (a : W) (k : W → Op) : Op := Op.dyn fun s =>
  match (s.drnS x).dataKey x a false with
  | .error c => Op.trapHere x c a
  | .ok key => Op.dyn fun _ => if h : x < 56 then Op.memRead (.drone ⟨x, h⟩) key k else Op.skip
/-- Store a word at its key. -/
def Op.dataPut (key : Nat) (v : W) : Op :=
  if Nat.blt key 0x2000000 then Op.combPut key (leBytes 4 v.toNat) else Op.store (cells key (leBytes 4 v.toNat)) true
/-- Store a word at a data address, and then `k`. -/
def Op.dataWr (x : Nat) (a v : W) (k : Op) : Op := Op.dyn fun s =>
  match (s.drnS x).dataKey x a true with
  | .error c => Op.trapHere x c a
  | .ok key => Op.thn (Op.dataPut key v) k
/-- The pointer after a Pointer instruction: unchanged in MODE 0b00, post-modified in MODE 0b01 (R389, R392). -/
def DrnSt.ptrNext (z : DrnSt) (k : Nat) (post : Bool) : Option W := if post then z.post k (z.pr k) else some (z.pr k)
/-- LDP. -/
def Op.ldp (x d k : Nat) (post : Bool) (off : BitVec 16) : Op := Op.dyn fun s =>
  let z := s.drnS x
  let a := z.pr k + sextK off
  match z.dataKey x a false, z.ptrNext k post with
  | .ok _, none => Op.trapHere x 1 0
  | _, q => Op.dataRd x a fun v => Op.drn x fun z => ((z.pw k (q.getD 0)).gw d v).adv
/-- STP. -/
def Op.stp (x d k : Nat) (post : Bool) (off : BitVec 16) : Op := Op.dyn fun s =>
  let z := s.drnS x
  let a := z.pr k + sextK off
  match z.dataKey x a true, z.ptrNext k post with
  | .ok _, none => Op.trapHere x 1 0
  | _, q => Op.dataWr x a (z.gr d) (Op.drn x fun z => (z.pw k (q.getD 0)).adv)
/-- XADD: an atomic exchange-and-add of a data word; code banks are read only (R384, R396). -/
def Op.xadd (x d : Nat) (a t : W) : Op := Op.dyn fun s =>
  match (s.drnS x).dataKey x a true with
  | .error c => Op.trapHere x c a
  | .ok key => Op.dataRd x a fun v => Op.thn (Op.dataPut key (v + t)) (Op.drn x fun z => (z.gw d v).adv)

/-- The largest magnitude of the parts of a complex word. -/
def cwMag (v : W) : Nat := Nat.max (cwI v).natAbs (cwQ v).natAbs
/-- The exponent of a largest magnitude (R393). -/
def blockExp (m : Nat) : W := if m == 0 then 16#32 else BitVec.ofInt 32 (14 - (Nat.log2 m : Int))
/-- The reads and post-modifies of BEXP, gathering the largest magnitude; `fin` is told the last pointer and the magnitude. -/
def Op.bexpGo (x k : Nat) (fin : W → Nat → Op) : Nat → W → Nat → Op
  | 0, p, m => fin p m
  | n + 1, p, m => Op.dataRd x p fun v => Op.dyn fun s =>
      match (s.drnS x).post k p with
      | none => Op.trapHere x 1 0
      | some q => Op.bexpGo x k fin n q (Nat.max m (cwMag v))
/-- BEXP; above 4,096 words, where the spec states no result, the exponent is a free value (log 3). -/
def Op.bexp (x d k : Nat) (n : Nat) : Op := Op.dyn fun s =>
  if n == 0 then Op.drn x fun z => (z.gw d 16#32).adv
  else Op.bexpGo x k (fun p m =>
    if Nat.ble n 4096 then Op.drn x fun z => ((z.pw k p).gw d (blockExp m)).adv
    else Op.free fun v => Op.drn x fun z => ((z.pw k p).gw d v).adv) n ((s.drnS x).pr k) 0

/-! SWAP, events, handover and system instructions. -/

/-- SWAP (R397); the engine's domain not being served leaves the result open (log 3). -/
def Op.zynSwap (x d : Nat) (s t : W) (wh : BitVec 2) (own : Bool) (e : BitVec 6) : Op := Op.dyn fun st =>
  let n := if own then x else e.toNat
  let put := fun v : W => Op.drn x fun z => (z.gw d v).adv
  if (own && Nat.ble 48 x) || (!own && Nat.blt 47 e.toNat) || (!(st.drnS x).keeper && !own) then put 5#32
  else if (blksOf s.toNat).isEmpty then put 0#32
  else if !st.served (domEng n) then Op.free fun v => put (v &&& 0xF#32)
  else Op.swapReq n wh.toNat (blksOf s.toNat) (t.setWidth 24) fun r => put (BitVec.ofNat 32 r)
/-- The lowest line set. -/
def lowLine (v : BitVec 16) : Option Nat := (List.range 16).find? fun i => v.getLsbD i
/-- WFE takes a line (R399). -/
def DrnSt.take (z : DrnSt) (d i : Nat) : DrnSt :=
  ({ z.gw d (BitVec.ofNat 32 i) with evpend := z.evpend &&& ~~~(1#16 <<< i), wait := none }).adv
/-- WFE (R399). -/
def Op.wfe (x : Nat) (d : GReg) (m : BitVec 16) (poll : Bool) : Op := Op.dyn fun s =>
  match lowLine ((s.drnS x).evpend &&& m) with
  | some i => Op.drn x fun z => z.take d.val i
  | none =>
    if poll then Op.drn x fun z => (z.gw d.val 16#32).adv
    else Op.thn (Op.drn x fun z => { z with wait := some (d, m) }) (Op.drnState x 2)
/-- A waiting drone wakes (R399). -/
def Op.wfeWake (x : Nat) : Op := Op.dyn fun s =>
  match (s.drnS x).wait with
  | some (d, m) =>
    (match lowLine ((s.drnS x).evpend &&& m) with
     | some i => Op.when (s.drnState x == 2) (Op.thn (Op.drn x fun z => z.take d.val i) (Op.drnState x 1))
     | none => Op.skip)
  | none => Op.skip
/-- A held non-maskable trap is taken (R402, R404). -/
def DrnSt.takeNmi (z : DrnSt) : DrnSt := if z.nmi then { z.trapTo 9 z.pc 0 with nmi := false } else z
/-- READY (R404): the pause of a handover ends (R367). -/
def Op.ready (x : Nat) : Op := Op.dyn fun s =>
  let z := s.drnS x
  Op.all [Op.flag (HIVE_DRN_STAT x) HIVE_DRN_STAT_READY,
    (match z.pause with
     | none => Op.skip
     | some c => Op.all [
         Op.setF (HIVE_DRN_HOV x) HIVE_DRN_HOV_PAUSE (Nat.min (pauseUs c z.cycle) 0xFFFF),
         Op.addF (HIVE_DRN_HOV x) HIVE_DRN_HOV_COUNT 1,
         Op.when (!z.slow && Nat.blt 1500000 (z.cycle - c).toNat)
           (Op.raise (0x600 + x) 0x21 0 (Nat.min (pauseUs c z.cycle) 0xFFFF))]),
    Op.drn x fun z => { z with pause := none, slow := false }.adv]
/-- BANKSW (R366, R404). -/
def Op.banksw (x : Nat) : Op := Op.dyn fun s =>
  if !(s.drnS x).keeper then Op.trapHere x 2 0
  else if !s.bit (HIVE_DRN_STAT x) HIVE_DRN_STAT_PENDING then Op.trapHere x 8 0
  else Op.all [Op.bankFlip x, Op.setF (HIVE_DRN_STAT x) HIVE_DRN_STAT_PENDING 0, Op.setF (HIVE_DRN_STAT x) HIVE_DRN_STAT_READY 0,
    Op.drn x fun z => { z with pc := 8#16, pause := some z.cycle, slow := false }.takeNmi]
/-- RTT (R403). -/
def Op.rtt (x : Nat) : Op := Op.dyn fun s =>
  if !(s.drnS x).keeper then Op.trapHere x 2 0
  else Op.drn x fun z => { z with pc := z.tpc.setWidth 16 &&& 0xFFFC#16, keeper := z.prev, tip := false }.takeNmi
/-- RDC (R381): a read of CYCLE_LO latches CYCLE_HI. -/
def Op.rdc (x : Drn) (d num : Nat) : Op := Op.dyn fun s =>
  match s.ctlRead x.val (s.latched (.drone x) cycHi) num with
  | none => Op.trapHere x.val 1 0
  | some v => Op.thn (Op.when (num == 0xA) (Op.latch (.drone x) cycHi ((s.drnS x.val).cycle.extractLsb' 32 32)))
      (Op.drn x.val fun z => (z.gw d v).adv)
/-- WRC (R381). -/
def Op.wrc (x num : Nat) (v : W) : Op := Op.dyn fun s =>
  if (s.ctlRead x 0 num).isNone then Op.trapHere x 1 0
  else if !(s.drnS x).keeper && !workerWr num then Op.trapHere x 2 0
  else Op.drn x fun z => (z.ctlWrite num v).adv

/-! Rows: integer instructions (R389). -/

/-- ADD. -/
def execAdd (x : Drn) (d s t : GReg) (st : State) := (Op.zynReg x d fun z => z.gr s + z.gr t).next st
/-- SUB. -/
def execSub (x : Drn) (d s t : GReg) (st : State) := (Op.zynReg x d fun z => z.gr s - z.gr t).next st
/-- AND. -/
def execAnd (x : Drn) (d s t : GReg) (st : State) := (Op.zynReg x d fun z => z.gr s &&& z.gr t).next st
/-- OR. -/
def execOr (x : Drn) (d s t : GReg) (st : State) := (Op.zynReg x d fun z => z.gr s ||| z.gr t).next st
/-- XOR. -/
def execXor (x : Drn) (d s t : GReg) (st : State) := (Op.zynReg x d fun z => z.gr s ^^^ z.gr t).next st
/-- SHL. -/
def execShl (x : Drn) (d s t : GReg) (st : State) := (Op.zynReg x d fun z => z.gr s <<< shCount (z.gr t)).next st
/-- SHR. -/
def execShr (x : Drn) (d s t : GReg) (st : State) := (Op.zynReg x d fun z => z.gr s >>> shCount (z.gr t)).next st
/-- SRA. -/
def execSra (x : Drn) (d s t : GReg) (st : State) := (Op.zynReg x d fun z => (z.gr s).sshiftRight (shCount (z.gr t))).next st
/-- LESS. -/
def execLess (x : Drn) (d s t : GReg) (st : State) :=
  (Op.zynReg x d fun z => if (z.gr s).slt (z.gr t) then 1#32 else 0#32).next st
/-- LESSU. -/
def execLessu (x : Drn) (d s t : GReg) (st : State) :=
  (Op.zynReg x d fun z => if (z.gr s).ult (z.gr t) then 1#32 else 0#32).next st
/-- MUL. -/
def execMul (x : Drn) (d s t : GReg) (st : State) := (Op.zynReg x d fun z => z.gr s * z.gr t).next st
/-- MULQ. -/
def execMulq (x : Drn) (d s t : GReg) (st : State) := (Op.zynSat x d fun z => mulQ (z.gr s) (z.gr t)).next st
/-- ADDS. -/
def execAdds (x : Drn) (d s t : GReg) (st : State) :=
  (Op.zynSat x d fun z => sat32 ((z.gr s).toInt + (z.gr t).toInt)).next st
/-- SUBS. -/
def execSubs (x : Drn) (d s t : GReg) (st : State) :=
  (Op.zynSat x d fun z => sat32 ((z.gr s).toInt - (z.gr t).toInt)).next st
/-- MIN. -/
def execMin (x : Drn) (d s t : GReg) (st : State) :=
  (Op.zynReg x d fun z => if (z.gr s).slt (z.gr t) then z.gr s else z.gr t).next st
/-- MAX. -/
def execMax (x : Drn) (d s t : GReg) (st : State) :=
  (Op.zynReg x d fun z => if (z.gr s).slt (z.gr t) then z.gr t else z.gr s).next st
/-- CLZ. -/
def execClz (x : Drn) (d s : GReg) (st : State) := (Op.zynReg x d fun z => BitVec.ofNat 32 (clz32 (z.gr s))).next st
/-- XADD. -/
def execXadd (x : Drn) (d s t : GReg) (st : State) :=
  (Op.zyn x (Op.xadd x d (st.gr x s) (st.gr x t))).next st
/-- ADDK. -/
def execAddk (x : Drn) (d s : GReg) (k : BitVec 16) (st : State) := (Op.zynReg x d fun z => z.gr s + sextK k).next st
/-- ANDK. -/
def execAndk (x : Drn) (d s : GReg) (k : BitVec 16) (st : State) := (Op.zynReg x d fun z => z.gr s &&& zextK k).next st
/-- ORK. -/
def execOrk (x : Drn) (d s : GReg) (k : BitVec 16) (st : State) := (Op.zynReg x d fun z => z.gr s ||| zextK k).next st
/-- XORK. -/
def execXork (x : Drn) (d s : GReg) (k : BitVec 16) (st : State) := (Op.zynReg x d fun z => z.gr s ^^^ zextK k).next st
/-- SHLK. -/
def execShlk (x : Drn) (d s : GReg) (k : BitVec 5) (st : State) := (Op.zynReg x d fun z => z.gr s <<< k.toNat).next st
/-- SHRK. -/
def execShrk (x : Drn) (d s : GReg) (k : BitVec 5) (st : State) := (Op.zynReg x d fun z => z.gr s >>> k.toNat).next st
/-- SRAK. -/
def execSrak (x : Drn) (d s : GReg) (k : BitVec 5) (st : State) :=
  (Op.zynReg x d fun z => (z.gr s).sshiftRight k.toNat).next st
/-- LESSK. -/
def execLessk (x : Drn) (d s : GReg) (k : BitVec 16) (st : State) :=
  (Op.zynReg x d fun z => if (z.gr s).slt (sextK k) then 1#32 else 0#32).next st
/-- LESSKU. -/
def execLessku (x : Drn) (d s : GReg) (k : BitVec 16) (st : State) :=
  (Op.zynReg x d fun z => if (z.gr s).ult (sextK k) then 1#32 else 0#32).next st
/-- HIK. -/
def execHik (x : Drn) (d : GReg) (k : BitVec 16) (st : State) := (Op.zynReg x d fun _ => zextK k <<< 16).next st
/-- LDW. -/
def execLdw (x : Drn) (d s : GReg) (k : BitVec 16) (st : State) :=
  (Op.zyn x (Op.dataRd x (st.gr x s + sextK k) fun v => Op.drn x fun z => (z.gw d v).adv)).next st
/-- STW. -/
def execStw (x : Drn) (d s : GReg) (k : BitVec 16) (st : State) :=
  (Op.zyn x (Op.dataWr x (st.gr x s + sextK k) (st.gr x d) (Op.drn x fun z => z.adv))).next st
/-- LDP. -/
def execLdp (x : Drn) (d : GReg) (p : PReg) (post : Bool) (k : BitVec 16) (st : State) :=
  (Op.zyn x (Op.ldp x d p post k)).next st
/-- STP. -/
def execStp (x : Drn) (d : GReg) (p : PReg) (post : Bool) (k : BitVec 16) (st : State) :=
  (Op.zyn x (Op.stp x d p post k)).next st
/-- PSET. -/
def execPset (x : Drn) (d : GReg) (p : PReg) (k : BitVec 16) (st : State) :=
  (Op.zynRun x fun z => z.pw p (z.gr d + sextK k)).next st
/-- PGET. -/
def execPget (x : Drn) (d : GReg) (p : PReg) (st : State) := (Op.zynReg x d fun z => z.pr p).next st
/-- LI (R387). -/
def execLi (x : Drn) (d : GReg) (imm : W) (st : State) := (Op.zyn8 x (Op.drn x fun z => (z.gw d imm).adv8)).next st

/-! Rows: branches and jumps (R387, R388). -/

/-- BREQ. -/
def execBreq (x : Drn) (s t : GReg) (off : BitVec 16) (st : State) := (Op.zynBr x off fun z => z.gr s == z.gr t).next st
/-- BRNE. -/
def execBrne (x : Drn) (s t : GReg) (off : BitVec 16) (st : State) := (Op.zynBr x off fun z => z.gr s != z.gr t).next st
/-- BRLT. -/
def execBrlt (x : Drn) (s t : GReg) (off : BitVec 16) (st : State) := (Op.zynBr x off fun z => (z.gr s).slt (z.gr t)).next st
/-- BRGE. -/
def execBrge (x : Drn) (s t : GReg) (off : BitVec 16) (st : State) := (Op.zynBr x off fun z => !(z.gr s).slt (z.gr t)).next st
/-- BRLTU. -/
def execBrltu (x : Drn) (s t : GReg) (off : BitVec 16) (st : State) := (Op.zynBr x off fun z => (z.gr s).ult (z.gr t)).next st
/-- BRGEU. -/
def execBrgeu (x : Drn) (s t : GReg) (off : BitVec 16) (st : State) := (Op.zynBr x off fun z => !(z.gr s).ult (z.gr t)).next st
/-- CALL. -/
def execCall (x : Drn) (d : GReg) (k : BitVec 16) (st : State) :=
  (Op.zyn x (Op.drn x fun z => { z.gw d ((z.pc + 4#16).setWidth 32) with pc := brTo z.pc k })).next st
/-- GOTO. -/
def execGoto (x : Drn) (d s : GReg) (st : State) :=
  (Op.zyn x (Op.dyn fun r =>
    let a := (r.gr x s).setWidth 16
    if a &&& 3#16 != 0#16 then Op.trapHere x 3 (a.setWidth 32)
    else Op.drn x fun z => { z.gw d ((z.pc + 4#16).setWidth 32) with pc := a })).next st
/-- JA: bits [31:16] and [1:0] of the target are zero, or the word is ILLEGAL (R387). -/
def execJa (x : Drn) (imm : W) (st : State) :=
  (Op.zyn8 x (if imm &&& 0xFFFF0003#32 != 0#32 then Op.trapHere x 1 0
    else Op.drn x fun z => { z with pc := imm.setWidth 16 })).next st

/-! Rows: complex instructions (R391, R393). -/

/-- CMUL. -/
def execCmul (x : Drn) (a1 : AReg) (g1 g2 : GReg) (conj : Bool) (st : State) :=
  (Op.zynRun x fun z => let m := cwMul (z.gr g1) (z.gr g2) conj; z.aw a1 (BitVec.ofInt 40 m.1, BitVec.ofInt 40 m.2)).next st
/-- CMAC. -/
def execCmac (x : Drn) (a1 : AReg) (g1 g2 : GReg) (conj : Bool) (st : State) :=
  (Op.zynAcc x a1 fun z => let m := cwMul (z.gr g1) (z.gr g2) conj
    (accAdd (z.ar a1).1 m.1, accAdd (z.ar a1).2 m.2)).next st
/-- CMSU. -/
def execCmsu (x : Drn) (a1 : AReg) (g1 g2 : GReg) (conj : Bool) (st : State) :=
  (Op.zynAcc x a1 fun z => let m := cwMul (z.gr g1) (z.gr g2) conj
    (accAdd (z.ar a1).1 (-m.1), accAdd (z.ar a1).2 (-m.2))).next st
/-- CRND. -/
def execCrnd (x : Drn) (g1 : GReg) (a1 : AReg) (sh : BitVec 5) (st : State) :=
  (Op.zynSat x g1 fun z => let i := rnd16 (z.ar a1).1 sh
    let q := rnd16 (z.ar a1).2 sh
    (q.1 ++ i.1, i.2 || q.2)).next st
/-- CEXT: the Q result is written last. -/
def execCext (x : Drn) (g1 g2 : GReg) (a1 : AReg) (sh : BitVec 5) (st : State) :=
  (Op.zynRun x fun z => let i := rnd32 (z.ar a1).1 sh
    let q := rnd32 (z.ar a1).2 sh
    { (z.gw g1 i.1).gw g2 q.1 with sat := z.sat || (i.2 || q.2) }).next st
/-- CADD. -/
def execCadd (x : Drn) (a1 a2 : AReg) (st : State) :=
  (Op.zynAcc x a1 fun z => (accAdd (z.ar a1).1 (z.ar a2).1.toInt, accAdd (z.ar a1).2 (z.ar a2).2.toInt)).next st
/-- CSET. -/
def execCset (x : Drn) (a1 : AReg) (g1 g2 : GReg) (st : State) :=
  (Op.zynRun x fun z => z.aw a1 ((z.gr g1).signExtend 40, (z.gr g2).signExtend 40)).next st
/-- CCLR. -/
def execCclr (x : Drn) (a1 : AReg) (st : State) := (Op.zynRun x fun z => z.aw a1 (0#40, 0#40)).next st
/-- BEXP: N is n[12:0]. -/
def execBexp (x : Drn) (d : GReg) (p : PReg) (n : GReg) (st : State) :=
  (Op.zyn x (Op.bexp x d p ((st.gr x n).toNat % 8192))).next st

/-! Rows: swaps, events, handover, system. -/

/-- SWAP (R397). -/
def execSwap (x : Drn) (d s t : GReg) (wh : BitVec 2) (own : Bool) (e : BitVec 6) (st : State) :=
  (Op.zyn x (Op.zynSwap x d (st.gr x s) (st.gr x t) wh own e)).next st
/-- WFE (R399). -/
def execWfe (x : Drn) (d s : GReg) (poll : Bool) (st : State) :=
  (Op.zyn x (Op.wfe x d ((st.gr x s).setWidth 16) poll)).next st
/-- A waiting drone leaves WAIT (R399). -/
def execWfeWake (x : Drn) (st : State) := (Op.wfeWake x).next st
/-- ORDER (R395): every earlier access of the drone has taken effect. -/
def execOrder (x : Drn) (st : State) := (Op.zynRun x fun z => z).next st
/-- READY (R404). -/
def execReady (x : Drn) (st : State) := (Op.zyn x (Op.ready x)).next st
/-- BANKSW (R404). -/
def execBanksw (x : Drn) (st : State) := (Op.zyn x (Op.banksw x)).next st
/-- SYS (R401, R404): TPC is the next instruction. -/
def execSys (x : Drn) (st : State) := (Op.zyn x (Op.dyn fun s => Op.trap x 7 ((s.drnS x).pc + 4#16) 0)).next st
/-- RTT (R403). -/
def execRtt (x : Drn) (st : State) := (Op.zyn x (Op.rtt x)).next st
/-- RDC (R381). -/
def execRdc (x : Drn) (d : GReg) (num : BitVec 12) (st : State) := (Op.zyn x (Op.rdc x d num.toNat)).next st
/-- WRC (R381). -/
def execWrc (x : Drn) (s : GReg) (num : BitVec 12) (st : State) := (Op.zyn x (Op.wrc x num.toNat (st.gr x s))).next st
/-- TIMER reaches 0 (R400); no drone cycle passes while the cluster is not in Run (R347, R470). -/
def execTimerExpiry (x : Drn) (st : State) :=
  (Op.dyn fun s => Op.when ((s.drnS x).timer == 1#32 && s.inRun (domClu (x / 8))) (Op.thn (Op.drn x fun z => { z with timer := 0 }) (Op.event x 2))).next st
/-- A word that is no instruction traps with ILLEGAL (R387). -/
def execIllegalInstruction (x : Drn) (w : W) (st : State) :=
  (Op.zyn x (Op.when (zynDecode x w 0).isNone (Op.trapHere x 1 0))).next st

end Sys2Proof.Machine
end

