-- ==== Sys2Proof/Machine/Faults.lean ====
section
/-! DEFINITION. The fault collector (R434–R452): processing of messages, sticky and live bits, the ladder and its escalation,
block resets, the chip reset, ERR_N, injected faults and the history queue. -/
namespace Sys2Proof.Machine

/-- Does a number name a source (R436)? -/
def srcExists (x : Nat) : Bool := Nat.blt x 4096 && (layout (FC_SRC_CFG x)).isSome
/-- The fields of one class in FC_SRC_STAT and FC_SRC_CFG (R450, R451). -/
def levelF (c : Nat) : Fld := ⟨19 + 3 * c, 17 + 3 * c⟩
def liveF (c : Nat) : Fld := ⟨8 + c, 8 + c⟩
def stickyF (c : Nat) : Fld := ⟨c, c⟩
def baseF (c : Nat) : Fld := ⟨3 * c + 2, 3 * c⟩

/-! ERR_N (R445). -/

/-- Is ERR_N called for: CHIP_RESET, or a sticky bit of a class whose ERR_EN is 1? -/
def State.errCause (s : State) : Bool :=
  s.bit FC_STAT FC_STAT_CHIP_RESET || s.regs.any fun e =>
    Nat.ble (FC_SRC_STAT 0) e.1 && Nat.blt e.1 (FC_SRC_STAT 4096) &&
      (getFld e.2 FC_SRC_STAT_STICKY &&& s.fld (e.1 - 0x4000) FC_SRC_CFG_ERR_EN) != 0
/-- Drive ERR_N: each assertion lasts at least ERR_HOLD. -/
def Op.errPin : Op := Op.dyn fun s =>
  if s.errCause then Op.when (!s.col.errN) (Op.thn
    (Op.col fun c => { c with errN := true, errMin := s.fld FC_CFG FC_CFG_ERR_HOLD != 0, errT := s.time.c }) (Op.flag FC_STAT FC_STAT_ERR))
  else Op.when (s.col.errN && !s.col.errMin) (Op.thn (Op.col fun c => { c with errN := false }) (Op.setF FC_STAT FC_STAT_ERR 0))

/-- The level of INT_N: low while IRQ and INT_EN are 1 (R445). -/
def State.intN (s : State) : Bool := !(s.bit FC_STAT FC_STAT_IRQ && s.bit FC_CFG FC_CFG_INT_EN)

/-! Reactions (R440–R444). -/

/-- Rung 1: IRQ, and vector 0 at its change to 1 (R445). -/
def Op.fcIrq : Op := Op.dyn fun s =>
  Op.when (!s.bit FC_STAT FC_STAT_IRQ) (Op.thn (Op.flag FC_STAT FC_STAT_IRQ) (Op.when (s.bit FC_CFG FC_CFG_INT_EN) (Op.msix 0)))
/-- The steward's ROM handler posts a message to mailbox 56 whose contents the spec does not state (R442; log 3). -/
def Op.stwNmi : Op := Op.dyn fun s =>
  let w := s.fld (HIVE_MBX_D2H_WR 56) HIVE_MBX_D2H_WR_WR
  Op.freeWords 16 fun ws => Op.thn
    (Op.store (cells (0x2000 * 56 + 0x1000 + 64 * (w % 64)) ((ws.map fun x => leBytes 4 x.toNat).flatten)) false)
    (Op.mbxD2h 56 (BitVec.ofNat 32 ((w + 1) % 128)))
/-- Rung 2 (R442): the owner takes a non-maskable trap where it executes. -/
def Op.fcNmi (src : Nat) : Op := Op.dyn fun s =>
  let o := s.fld (FC_SRC_CFG src) FC_SRC_CFG_OWNER
  Op.thn Op.fcIrq (
    if Nat.ble 56 o then Op.stwNmi
    else if s.drnState o == 1 || s.drnState o == 2 then Op.nmi o
    else Op.flag FC_STAT FC_STAT_NMI_REDIRECT)
/-- A block reset cuts the self-test run that it reaches (R459). -/
def Op.runCut (c : Nat) (f : StRun → Bool) : Op := Op.dyn fun s =>
  Op.when (match (s.stS c).run with | some r => f r | none => false) (Op.stCut c)
/-- Does the block reset of an engine's chain reach the target of a run: the whole engine, or a converter slice or strip of that chain
(R443, R459)? -/
def stReach (rx : Bool) (r : StRun) : Bool :=
  r.kind == 0 || r.kind == (if rx then 1 else 2) || (r.kind == 3 && r.index.testBit 4 == rx)
/-- The receive chain's block reset. -/
def Op.rxBlockReset (n : Nat) : Op := Op.dyn fun s =>
  Op.when (s.inRun n) (Op.all [Op.runCut n (stReach true), Op.rxRestart n, Op.capDisarm n,
    Op.when (s.bit (MON_STAT n) MON_STAT_RUN) (Op.monRestart n)])
/-- The transmit pipeline is cleared until the first boundary at least TOTAL clocks later: a superframe has 320 clocks, and where
in it the reset comes is open by one boundary. -/
def Op.txBlockReset (n : Nat) : Op := Op.dyn fun s =>
  Op.when (s.inRun n) (Op.thn (Op.runCut n (stReach false))
    (Op.when ((s.engS n).tx == .on || (s.engS n).tx == .stopping) (Op.free fun w =>
      Op.eng n fun e => { e with
        hold := true
        holdN := (s.fld (TX_LAT n) TX_LAT_TOTAL + 319) / 320 + w.toNat % 2 })))
/-- The lanes of the port at host lane `l` enter ADAPT again. -/
def Op.portReset (l : Nat) : Op := Op.dyn fun s =>
  let h := l / 64
  Op.thn (Op.runCut 48 fun r => r.kind == 11 && r.index == h)
    (Op.when (bitFld (s.portW l) PORT_CFG_EN) (Op.each ((List.range (portLanes (s.portW l))).map fun i => l % 64 + i) fun i =>
      Op.when (s.laneState h i == 2 || s.laneState h i == 3) (Op.laneTo h i 1)))
/-- Rung 3 (R443); a source without a block takes rung 2. -/
def Op.blockReset (m : Msg) : Op :=
  let x := m.src
  let n := (x - 0x100) / 16
  let u := (x - 0x100) % 16
  let nmi := Op.fcNmi x
  if Nat.ble 0x100 x && Nat.blt x 0x400 then Op.thn Op.fcIrq (
    if Nat.blt u 4 || u == 9 || u == 10 || u == 14 || (u == 12 && m.detail.getLsbD 4) then Op.rxBlockReset n
    else if u == 11 then Op.dropCws n fun _ => true
    else Op.txBlockReset n)
  else if Nat.ble 0x20 x && Nat.blt x 0x2B then
    Op.all [Op.fcIrq, Op.runCut 48 fun r => (r.kind == 9 && r.index == x - 0x20) || (r.kind == 8 && r.index / 8 == x - 0x20),
      Op.each (List.range 48) fun e => Op.dropCws e fun k => k / 8 == x - 0x20]
  else if Nat.ble 0x400 x && Nat.blt x 0x500 then Op.thn Op.fcIrq (Op.portReset (x - 0x400))
  else if Nat.ble 0x10 x && Nat.blt x 0x15 then
    Op.all [Op.fcIrq, Op.edgeDown (x - 0x10) false, Op.edgeDown (x - 0x10) true]
  else if Nat.ble 0x600 x && Nat.blt x 0x638 then
    Op.all [Op.fcIrq, Op.runCut 48 fun r => r.kind == 10 && r.index == (x - 0x600) / 8, Op.drnRestart (x - 0x600)]
  else if x == 5 then Op.thn Op.fcIrq Op.farReset
  else if x == 6 then Op.all [Op.fcIrq, Op.msixReset, Op.pcieReset, Op.linkDown]
  else nmi

/-- The registers that a chip reset keeps (R444, R463): those of supply, power, temperature and reference, the self-test
configuration and retirement results, the history queue with FC_HQ_SEQ, and FC_CHIP_RESET_CNT. -/
def chipKept (a : Nat) : Bool :=
  (Nat.ble 0x200 a && Nat.blt a 0x100000) || (Nat.ble (FC_HQ 0 0) a && Nat.blt a (FC_HQ 256 0)) || a == FC_HQ_SEQ
    || a == FC_CHIP_RESET_CNT || a == ST_CFG || a == ST_DOM_LO || a == ST_DOM_HI || (Nat.ble (ST_ENG_RES 0) a && Nat.blt a (ST_ENG_RES 3))
/-- The state beside registers and memory after a chip reset: what the always-on domain holds is kept. -/
def State.chipCold (s : State) : State :=
  { State.reset with
    regs := s.regs
    mem := s.mem
    poison := s.poison
    time := { TimeSt.init with c := s.time.c, trim := s.time.trim }
    col := { ColSt.init with
      conds := s.col.conds.filter (fun k => k.src == srcSup && k.kind != 0x48)
      errN := s.col.errN
      errMin := s.col.errMin
      errT := s.col.errT }
    stw := { StwSt.init with revoked := s.stw.revoked, minSvn := s.stw.minSvn, erase := s.stw.erase }
    pwr := { PwrSt.init with ready := s.pwr.ready }
    sup := s.sup
    tap := s.tap
    out := s.out
    fresh := s.fresh
    pending := s.pending }
/-- Rung 4: the chip reset (R444). -/
def Op.chipReset : Op := Op.dyn fun s => Op.all [
  Op.vaultTorn,
  -- a retirement run that the reset cuts ends ABORTED (R459)
  Op.each (List.range 49) fun c => (match (s.stS c).run with
    | some r => Op.when (r.retire && [0, 9, 10, 11].contains r.kind) (Op.stResult (stDom c r.kind r.index) 3)
    | none => Op.skip),
  Op.when (s.trigOut != 0) (Op.emit (.trigOut false)), Op.when s.time.ppsOut (Op.emit (.ppsOut false)),
  Op.wipe chipKept (fun _ => true),
  Op.mod State.chipCold,
  Op.each domAll fun d => Op.all [Op.setF (PWR_DOM d) PWR_DOM_STATE 4, Op.setF (PWR_DOM d) PWR_DOM_READY 0,
    Op.flag (PWR_DOM d) PWR_DOM_PAD_HOLD, Op.setF (PWR_DOM d) PWR_DOM_RET_LOST 0, Op.setF (PWR_DOM d) PWR_DOM_STEP 0],
  Op.setF PWR_CMD_STAT PWR_CMD_STAT_BUSY 0,
  Op.flag FC_STAT FC_STAT_CHIP_RESET, Op.count FC_CHIP_RESET_CNT 1, Op.setB FC_STAT FC_STAT_ERR s.col.errN,
  Op.vaultScan,
  -- the sources whose conditions are still set send them again
  Op.dyn fun t => Op.each t.col.conds fun k => Op.intake ⟨k.src, k.kind, k.cls, false, k.detail, true, 0, false⟩]

/-- The rung of a set message (R441). -/
def State.rung (s : State) (m : Msg) : Nat :=
  let b := s.fld (FC_SRC_CFG m.src) (baseF m.cls)
  let c := s.fld (FC_SRC_CFG m.src) FC_SRC_CFG_CEILING
  let r := if Nat.blt c b then b else Nat.min (b + s.fld (FC_SRC_STAT m.src) (levelF m.cls)) c
  if m.inj && r == 4 then 3 else r
/-- The reaction of a rung (R440). -/
def Op.react (m : Msg) (r : Nat) : Op :=
  match r with
  | 0 => Op.skip
  | 1 => Op.fcIrq
  | 2 => Op.fcNmi m.src
  | 3 => Op.blockReset m
  | _ => Op.chipReset

/-! Processing (R438, R439, R446, R447). -/

/-- The bits of a message (R434). -/
def Msg.word0 (m : Msg) : W := m.detail.setWidth 32
def Msg.word1 (m : Msg) : W :=
  BitVec.ofNat 32 (m.src * 0x100000 + m.kind * 0x1000 + m.cls * 0x200 + (if m.inj then 0x100 else 0) + m.detail.toNat / 2 ^ 32)
/-- An entry of the history queue (R447). -/
def Op.history (m : Msg) : Op := Op.dyn fun s =>
  let q := s.reg FC_HQ_SEQ
  let k := q.toNat % 256
  Op.all [Op.wr (FC_HQ k 0) m.word0, Op.wr (FC_HQ k 1) m.word1, Op.wr (FC_HQ k 2) (BitVec.ofNat 32 s.stamp),
    Op.wr (FC_HQ k 3) (BitVec.ofNat 32 (m.merged * 0x40000 + (if m.note then 0x20000 else 0) + (if m.isSet then 0x10000 else 0)
      + s.stamp / 2 ^ 32)),
    Op.wr FC_HQ_SEQ (q + 1), Op.event 55 12]
/-- The live bit of a class at a source: any condition of the class set there (R446). -/
def Op.liveBit (src cls : Nat) : Op := Op.dyn fun s =>
  Op.setB (FC_SRC_STAT src) (liveF cls) (s.col.conds.any fun k => k.src == src && k.cls == cls)
/-- Sticky bit and LEVEL of a set message (R441, R446). -/
def Op.stick (m : Msg) : Op := Op.dyn fun s =>
  let l := s.fld (FC_SRC_STAT m.src) (levelF m.cls)
  Op.thn (Op.when (s.bit (FC_SRC_STAT m.src) (stickyF m.cls) && Nat.blt (s.fld (FC_SRC_CFG m.src) (baseF m.cls) + l)
      (s.fld (FC_SRC_CFG m.src) FC_SRC_CFG_CEILING)) (Op.setF (FC_SRC_STAT m.src) (levelF m.cls) (l + 1)))
    (Op.flag (FC_SRC_STAT m.src) (stickyF m.cls))
/-- The fault trigger of the source's engine (R115), after the words captured until then. -/
def Op.faultTrig (m : Msg) (ws : List CapWord) : Op := Op.dyn fun s =>
  let n := (m.src - 0x100) / 16
  Op.when (Nat.ble 0x100 m.src && Nat.blt m.src 0x400 && m.isSet && s.bit (CAP_CTL n) CAP_CTL_SRC_FAULT
      && Nat.ble (s.fld (CAP_CTL n) CAP_CTL_FAULT_CLASS) m.cls)
    (Op.thn (Op.adcIn n ws) (Op.capTrig n 3))
/-- Process one message. -/
def Op.fault (m : Msg) (ws : List CapWord) : Op := Op.dyn fun s =>
  Op.all [Op.history m,
    Op.when (!m.inj) (Op.liveBit m.src m.cls),
    Op.when m.isSet (Op.stick m),
    Op.faultTrig m ws,
    Op.when m.isSet (Op.react m (s.rung m)),
    Op.errPin]
/-- The order of messages (R439): by source, real before injected, set before clear. -/
def Msg.key (m : Msg) : Nat := m.src * 4 + (if m.inj then 2 else 0) + (if m.isSet then 0 else 1)
/-- The first message of the order, and the rest. -/
def firstMsg : List Msg → Option (Msg × List Msg)
  | [] => none
  | m :: l => match firstMsg l with
    | none => some (m, [])
    | some (x, r) => if Nat.ble m.key x.key then some (m, l) else some (x, m :: r)
/-- The collector processes its first pending message. -/
def Op.faultNext (ws : List CapWord) : Op := Op.dyn fun s =>
  match firstMsg s.col.intake with
  | none => Op.skip
  | some (m, r) => Op.thn (Op.col fun c => { c with intake := r }) (Op.fault m ws)

/-! Writes of the collector's registers (R446, R448–R450). -/

/-- Count a re-assertion at the source that owns a W1C bit (R446). -/
def Op.reassert (src k : Nat) : Op := Op.when (srcExists src) (Op.count (FC_SRC_REASSERT src) k)
/-- An acknowledging write of FC_SRC_STAT: a sticky bit whose live bit is 1 is re-asserted at once. -/
def Op.fcAck (src : Nat) (v : W) : Op :=
  Op.thn (Op.each (List.range 5) fun c => Op.dyn fun s =>
    Op.when (v.getLsbD c && s.bit (FC_SRC_STAT src) (stickyF c)) (
      if s.bit (FC_SRC_STAT src) (liveF c) then Op.reassert src 1
      else Op.thn (Op.setF (FC_SRC_STAT src) (stickyF c) 0) (Op.setF (FC_SRC_STAT src) (levelF c) 0))) Op.errPin
/-- The message in FC_INJECT_LO and a word of FC_INJECT_HI. -/
def injMsg (lo hi : W) : Msg :=
  ⟨hi.toNat / 0x100000, hi.toNat / 0x1000 % 256, hi.toNat / 0x200 % 8, true, BitVec.ofNat 40 (hi.toNat % 256 * 2 ^ 32 + lo.toNat),
   true, 0, false⟩
/-- A write of FC_INJECT_HI (R448). -/
def Op.inject (hi : W) : Op := Op.dyn fun s =>
  let m := injMsg (s.reg FC_INJECT_LO) hi
  if !srcExists m.src || Nat.ble 5 m.cls then Op.flag FC_STAT FC_STAT_INJ_REFUSED else Op.intake m
/-- May a word be FC_SRC_CFG (R450)? -/
def srcCfgOk (v : W) : Bool :=
  let o := getFld v FC_SRC_CFG_OWNER
  (Nat.blt o 56 || o == 63) && Nat.ble (getFld v FC_SRC_CFG_CEILING) 4 && (List.range 5).all fun c => Nat.ble (getFld v (baseF c)) 4
/-- A write of FC_SRC_CFG. -/
def Op.srcCfg (src : Nat) (v : W) : Op :=
  Op.when (srcExists src) (if srcCfgOk v then Op.thn (Op.wr (FC_SRC_CFG src) v) Op.errPin else Op.flag FC_STAT FC_STAT_CFG_REFUSED)
/-- A W1C write of FC_STAT; ERR is live. -/
def Op.fcStat (v : W) : Op := Op.dyn fun s =>
  Op.thn (Op.wr FC_STAT (s.reg FC_STAT &&& ~~~(v &&& 0x7D#32))) Op.errPin

/-! Rows. -/

/-- A message is processed (R439). -/
def execFaultMessage (ws : List CapWord) (s : State) := (Op.hub (Op.faultNext ws)).next s
/-- An acknowledging write (R446). -/
def execStickyAck (_p : Party) (src : Fin 4096) (v : W) (s : State) := (Op.hub (Op.when (srcExists src) (Op.fcAck src v))).next s
/-- A write of FC_INJECT_HI (R448). -/
def execFcInject (_p : Party) (hi : W) (s : State) := (Op.hub (Op.inject hi)).next s
/-- A write of FC_SRC_CFG (R450). -/
def execFcSrcCfgWrite (_p : Party) (src : Fin 4096) (v : W) (s : State) := (Op.hub (Op.srcCfg src v)).next s
/-- ERR_HOLD has passed (R445). -/
def execErrHoldExpiry (s : State) := (Op.hub (Op.dyn fun s =>
  Op.when (Nat.ble (1250 * s.fld FC_CFG FC_CFG_ERR_HOLD) (s.time.c - s.col.errT))
    (Op.thn (Op.col fun c => { c with errMin := false }) Op.errPin))).next s

end Sys2Proof.Machine
end

