-- ==== Sys2Proof/Machine/Counters.lean ====
section
/-! DEFINITION. The performance counters (R489–R503): carries and overflows, reading, committing, freezing and clearing, the
bandwidth monitors, and the snapshot of an engine's counters (R516). -/
namespace Sys2Proof.Machine

/-! Carries and overflows (R490, R491, R499). -/

/-- CNT_STAT.IRQ is set: vector 59 at its change to 1 (R499). -/
def Op.cntIrq : Op := Op.dyn fun s =>
  Op.when (!s.bit CNT_STAT CNT_STAT_IRQ) (Op.thn (Op.flag CNT_STAT CNT_STAT_IRQ) (Op.msix 59))
/-- The OVF bit of a counter. -/
def ovfF (i : Nat) : Fld := if i % 2 == 0 then PAIR_CTL_OVF_LO else PAIR_CTL_OVF_HI
/-- Set a counter's OVF bit: its change to 1 raises CNT_OVERFLOW. -/
def Op.cntOvf (i : Nat) : Op := Op.dyn fun s =>
  Op.when (!s.bit (PAIR_CTL (i / 2)) (ovfF i)) (Op.all [Op.flag (PAIR_CTL (i / 2)) (ovfF i), Op.raise 7 0x70 0 i,
    Op.when (s.bit CNT_GCFG CNT_GCFG_OVF_IRQ) Op.cntIrq])
/-- Is a counter the low counter of a chained pair? -/
def State.chainLow (s : State) (i : Nat) : Bool := i % 2 == 0 && s.bit (PAIR_CTL (i / 2)) PAIR_CTL_CHAIN
/-- What is in flight of a counter arrives: the carry of a chain, or its OVF. -/
def Op.cntArrive (i : Nat) : Op := Op.dyn fun s =>
  Op.when (s.cnt.carry.contains i) (Op.thn (Op.cnt fun c => { c with carry := c.carry.erase i })
    (if s.chainLow i then Op.cntAdd (i + 1) 1 else Op.cntOvf i))

/-! Reading and writing (R494, R495). The holding words of a party stand beside its latched words. -/

/-- The 96 bits of a pair as W0, W1 and W2 show them. -/
def pairWord (v w : Nat) : W := BitVec.ofNat 32 (v / 2 ^ (32 * w))
/-- A read of W0: a carry in flight within the pair is applied first (R494). -/
def Op.cntRead (p : Party) (k : Nat) : Op := Op.thn (Op.dyn fun s => Op.when (s.chainLow (2 * k)) (Op.cntArrive (2 * k)))
  (Op.dyn fun s => Op.all [Op.data p (pairWord (s.pairV k) 0), Op.latch p (CNT_W1 k) (pairWord (s.pairV k) 1),
    Op.latch p (CNT_W2 k) (pairWord (s.pairV k) 2)])
/-- The addresses of the holding words of W0 and W1. -/
def holdKey (k w : Nat) : Nat := CNT_W0 k + 4 * w + 1
/-- Commit values to a pair while its low counter adds `inc` in the same cycle: an overflow of that cycle is still delivered, and
every other increment of the cycle, a carry that arrives in it among them, is discarded. -/
def Op.cntCommit (k lo hi inc : Nat) : Op := Op.dyn fun s =>
  let ovf := !s.bit (CNT_BANK_CTL (k / 1024)) CNT_BANK_CTL_FREEZE && Nat.ble (2 ^ 48) (cntHalf (s.pairV k) 0 + inc)
  Op.all [Op.when (!s.chainLow (2 * k)) (Op.cntArrive (2 * k)), Op.cntArrive (2 * k + 1),
    Op.cnt (fun c => { c with carry := c.carry.filter fun i => i != 2 * k }),
    Op.cntPut (2 * k) lo, Op.cntPut (2 * k + 1) hi,
    Op.when ovf (Op.all [if s.chainLow (2 * k) then Op.cntAdd (2 * k + 1) 1 else Op.cntOvf (2 * k),
      Op.flag (PAIR_CTL k) PAIR_CTL_WOW, Op.flag CNT_STAT CNT_STAT_WRAP_ON_WRITE])]
/-- A write of W2 commits the writing party's holding words with it. -/
def Op.cntW2 (p : Party) (k : Nat) (v : W) (inc : Nat) : Op := Op.dyn fun s =>
  let x := (s.latched p (holdKey k 0)).toNat + (s.latched p (holdKey k 1)).toNat * 2 ^ 32 + v.toNat * 2 ^ 64
  Op.cntCommit k (cntHalf x 0) (cntHalf x 1) inc

/-! Banks and configuration (R492, R496, R502). -/

/-- The pairs of a bank that are not plainly 0, or that add in the cycle of a clear. -/
def State.bankPairs (s : State) (b : Nat) (inc : List (Fin 4096 × Nat)) : List Nat :=
  let ks : List Nat := (s.cnt.val.map fun e => e.1) ++ ((s.cnt.carry.map fun i => i / 2) ++ (inc.map fun e => e.1.val))
  uniq (ks.filter fun k => k / 1024 == b)
/-- A write of CNT_BANK_CTL. -/
def Op.bankCtl (b : Nat) (v : W) (inc : List (Fin 4096 × Nat)) : Op := Op.dyn fun s =>
  Op.thn (Op.when (v.getLsbD 1) (Op.each (s.bankPairs b inc) fun k =>
      Op.cntCommit k 0 0 (((inc.find? fun e => e.1.val == k).map fun e => e.2).getD 0)))
    (Op.wr (CNT_BANK_CTL b) (v &&& 1#32))
/-- Is a class, index and event listed in R492? -/
def cntListedEv (v : W) : Bool :=
  let i := getFld v CNT_CFG_LO_INDEX
  let e := getFld v CNT_CFG_LO_EVENT
  match getFld v CNT_CFG_LO_CLASS with
  | 1 => Nat.blt i 48 && Nat.blt e 6
  | 2 => Nat.blt i 256 && Nat.blt e 6
  | 3 => Nat.blt e 7
  | 4 => Nat.blt i 88 && Nat.blt e 2
  | _ => false
/-- A write of CNT_CFG. -/
def Op.cntCfg (i : Nat) (v : W) : Op := if cntListedEv v then Op.wr (cntCfgAddr i) v else Op.flag CNT_STAT CNT_STAT_CFG_REFUSED
/-- A write of PAIR_CTL: CHAIN is loaded, WOW and the OVF bits are W1C. -/
def Op.pairCtl (k : Nat) (v : W) : Op := Op.dyn fun s =>
  Op.wr (PAIR_CTL k) ((s.reg (PAIR_CTL k) &&& ~~~v &&& 0xE#32) ||| (v &&& 1#32))

/-! Bandwidth monitors (R498). -/

/-- Restart a monitor: its first window is not valid. -/
def Op.bwRestart (m : Nat) : Op :=
  Op.thn (Op.cnt fun c => { c with bw := Tab.set c.bw (fun _ => (0, false)) m (0, false) })
    (Op.setF (BW_RATE m) BW_RATE_VALID 0)
/-- A write of BW_CFG or BW_WIN. -/
def Op.bwCfg (m : Nat) (win : Bool) (v : W) : Op := Op.thn (Op.wr (if win then BW_WIN m else BW_CFG m) v) (Op.bwRestart m)
/-- Does line time pass a multiple of 1,000 W ns in the clock that ended last (R498)? Windows of 0 µs are not stated. -/
def State.bwDue (s : State) (m : Nat) : Bool :=
  let p : Int := 65536000 * s.fld (BW_WIN m) BW_WIN_W
  p == 0 || scaleT s.time.c s.time.line / p != scaleT (s.time.c - 1) s.time.line / p
/-- A window ends. The rate over a window of 0 µs is not stated (log 3). -/
def Op.bwEnd (m : Nat) : Op := Op.dyn fun s =>
  let b := Tab.get s.cnt.bw (fun _ => (0, false)) m
  let w := s.fld (BW_WIN m) BW_WIN_W
  let set := s.fld TU_STAT TU_STAT_LINE_ST != 0
  let rate := fun r : Nat => Op.wr (BW_RATE m) (BitVec.ofNat 32 ((if b.2 && set then 0x80000000 else 0) + r % 2 ^ 27))
  Op.when (s.bit (BW_CFG m) BW_CFG_EN && s.bwDue m) (Op.all [
    Op.wr (BW_LAST m) (BitVec.ofNat 32 b.1),
    (if w == 0 then Op.free fun v => rate v.toNat else rate (rneDiv ((b.1 * 66 : Nat) : Int) w).toNat),
    Op.cnt (fun c => { c with bw := Tab.set c.bw (fun _ => (0, false)) m (0, set) }),
    Op.when (s.bit (BW_CFG m) BW_CFG_IRQ) (Op.thn (Op.flag CNT_STAT CNT_STAT_BW_DONE) Op.cntIrq)])
/-- A read of BW_LAST latches BW_RATE. -/
def Op.bwLast (p : Party) (m : Nat) : Op := Op.dyn fun s =>
  Op.thn (Op.latch p (BW_RATE m) (s.reg (BW_RATE m))) (Op.data p (s.reg (BW_LAST m)))

/-! The engine counters (R516). -/

/-- The sixteen counters of a snapshot. -/
def engCnts (n : Nat) : List Nat :=
  ((List.range 4).map (CONV_CLIP_CNT n)) ++ ((List.range 4).map (TX_CLIP_CNT n)) ++
    [RX_LOCK_LOSS_CNT n, RX_REPLACE_CNT n, RX_ACQ_FAIL_CNT n, RX_DM_ERR_CNT n, GLO_EDGE_ERR_CNT n, GLO_DISCARD_CNT n, GLO_SAT_CNT n,
     CAP_TRIG_OVERRUN n]
/-- A write of ENG_CNT_CTL: with SNAP each counter is copied, cleared, and takes its increment of the same clock (R11). -/
def Op.engSnap (n : Nat) (v : W) (inc : List Nat) : Op := Op.when (v.getLsbD 0) (Op.dyn fun s =>
  Op.thn (Op.each ((engCnts n).zip (List.range 16)) fun e => Op.thn (Op.wr (ENG_CNT_SNAP n e.2) (s.reg e.1))
      (Op.wr e.1 (BitVec.ofNat 32 (inc.getD e.2 0))))
    (Op.addF (ENG_CNT_SEQ n) ENG_CNT_SEQ_SEQ 1))

/-! Rows. -/

/-- What is in flight of a counter arrives (R491). -/
def execCntOverflow (i : Fin 8192) (s : State) := (Op.hub (Op.cntArrive i)).next s
/-- A read of W0 (R494). -/
def execCntW0Read (p : Party) (k : Fin 4096) (s : State) := (Op.hub (Op.cntRead p k)).next s
/-- A write of W2 (R495). -/
def execCntW2Commit (p : Party) (k : Fin 4096) (v : W) (inc : Nat) (s : State) := (Op.hub (Op.cntW2 p k v inc)).next s
/-- A write of FREEZE (R496). -/
def execCntFreeze (_p : Party) (b : Fin 4) (v : W) (s : State) := (Op.hub (Op.bankCtl b v [])).next s
/-- CLEAR (R496). -/
def execCntBankClear (_p : Party) (b : Fin 4) (v : W) (inc : List (Fin 4096 × Nat)) (s : State) :=
  (Op.hub (Op.bankCtl b (v ||| 2#32) inc)).next s
/-- A write of CNT_CFG (R492). -/
def execCntCfgWrite (_p : Party) (i : Fin 8192) (v : W) (s : State) := (Op.hub (Op.cntCfg i v)).next s
/-- A window ends (R498). -/
def execBwWindowEnd (m : Fin 256) (s : State) := (Op.hub (Op.bwEnd m)).next s
/-- A write of BW_CFG or BW_WIN (R498). -/
def execBwConfigWrite (_p : Party) (m : Fin 256) (win : Bool) (v : W) (s : State) := (Op.hub (Op.bwCfg m win v)).next s
/-- A read of BW_LAST (R498). -/
def execBwLastRead (p : Party) (m : Fin 256) (s : State) := (Op.hub (Op.bwLast p m)).next s
/-- SNAP (R516). -/
def execEngCntSnap (p : Party) (n : Eng) (inc : List Nat) (s : State) :=
  (Op.gate p (ENG_CNT_CTL n) true (domEng n) (Op.engSnap n 1#32 inc)).next s

end Sys2Proof.Machine
end

