-- ==== Sys2Proof/Machine/Package.lean ====
section
/-! DEFINITION. The test port (R537, R538), and where the signals lie on the package (R519, R521–R524). -/
namespace Sys2Proof.Machine

/-- The supported instructions; any other code selects BYPASS (PRESUMED, log 23). -/
def tapKnown (ir : Nat) : Bool := Nat.ble ir tapTrain
/-- The IDCODE register (R537). -/
def idcode : W := 0x25120D5B#32
/-- Load the instruction register: an instruction that takes control of the pins needs WAIT_IMAGE or FAILED (R538). -/
def Op.tapLoad (ir : Nat) : Op := Op.dyn fun s => Op.tapSet fun x =>
  { x with ir := if !tapKnown ir || (tapPins ir && !(s.stwState == 0 || s.stwState == 4)) then tapBypass else ir }
/-- Does an instruction select the boundary register? CLAMP and HIGHZ select BYPASS (PRESUMED from IEEE 1149.1, log 23). -/
def tapBoundary (ir : Nat) : Bool := [tapExtest, tapSample, tapPulse, tapTrain].contains ir
/-- What the selected data register captures: the pins, IDCODE from bit 0, or the one 0 of BYPASS (R537). -/
def tapCapture (ir : Nat) (pins : List Bool) : List Bool :=
  if tapBoundary ir then pins else if ir == tapIdcode then (List.range 32).map idcode.getLsbD else [false]
/-- A data-register scan: capture, as many shifts as TDI has bits, and the update of the boundary cells (R537). -/
def Op.tapScan (x : TapScan) : Op := Op.dyn fun s =>
  let l := tapCapture s.tap.ir x.pins ++ x.tdi
  Op.thn (Op.emit (.tdo (l.take x.tdi.length)))
    (Op.when (tapBoundary s.tap.ir) (Op.tapSet fun y => { y with cells := l.drop x.tdi.length }))
/-- TRST_N low or Test-Logic-Reset: IDCODE is selected (PRESUMED from IEEE 1149.1, log 23). -/
def Op.tapReset : Op := Op.tapSet fun x => { x with ir := tapIdcode }

/-! The package. A ball is a row, 1 to 110, and a column. -/

/-- The name of a row (R519). -/
def rowName (j : Nat) : String :=
  let letter := fun (i : Nat) => String.singleton ("ABCDEFGHJKLMNPTUVWY".toList.getD i 'A')
  if Nat.ble j 19 then letter (j - 1) else letter ((j - 20) / 19) ++ letter ((j - 20) % 19)
/-- HL_TXP, HL_TXN, VSS, HL_RXP and HL_RXN of a host lane (R521). -/
def laneBalls (lane : Nat) : List (Nat × Nat) :=
  let h := lane / 64
  let l := lane % 64
  (List.range 5).map fun i => ((if h % 2 == 0 then 5 else 59) + 3 * (l / 4), (if Nat.blt h 2 then 1 else 91) + 5 * (l % 4) + i)
/-- PCIE_TXP, PCIE_TXN, VSS, PCIE_RXP and PCIE_RXN of a PCIe lane (R522). -/
def pcieBalls (k : Nat) : List (Nat × Nat) := (List.range 5).map fun i => (109, 31 + 5 * k + i)
/-- PCIE_REFCLK_P and PCIE_REFCLK_N, EP72 and EP73 (R522). -/
def refclkBalls : List (Nat × Nat) := [(109, 72), (109, 73)]
/-- TUNE_CLK of a bus and its data lines; THERM_P and THERM_N of a die (R523). -/
def tuneBalls (b : Nat) : List (Nat × Nat) := (List.range 5).map fun i => (2, 50 + 6 * b + i)
def thermBalls (d : Nat) : List (Nat × Nat) := [(4, 50 + 2 * d), (4, 51 + 2 * d)]
/-- The other signals with one ball each (R523). -/
def pinBalls : List (String × Nat × Nat) := [
  ("REF_LINE_P", 2, 41), ("REF_LINE_N", 2, 42), ("PERST_N", 2, 45), ("PPS_IN", 2, 75), ("PPS_OUT", 2, 76),
  ("TRIG_IN", 2, 78), ("TRIG_OUT", 2, 79), ("ERR_N", 2, 81), ("INT_N", 2, 82), ("WAKE_N", 2, 83),
  ("TCK", 4, 41), ("TMS", 4, 42), ("TDI", 4, 43), ("TDO", 4, 44), ("TRST_N", 4, 45)]
/-- The centre of line port LPn, x and y in 1/100 mm (R524). -/
def linePort (n : Nat) : Int × Int :=
  let p : Int := 750 * (n % 12 : Nat)
  match n / 12 with
  | 0 => (-4125 + p, 5400)
  | 1 => (5400, 4125 - p)
  | 2 => (4125 - p, -5400)
  | _ => (-5400, -4125 + p)
/-- The pairs of a site in clockwise order (R524). -/
def sitePairs : List String := ["TX_XI", "TX_XQ", "TX_YI", "TX_YQ", "RX_XI", "RX_XQ", "RX_YI", "RX_YQ"]
/-- The centre of pair `i` of line port LPn: 0.8 mm from pair to pair along the edge, clockwise, about the site's centre (R524; DEDUCED that
the site's centre is the middle of its pairs, log 23). -/
def pairCentre (n i : Nat) : Int × Int :=
  let c := linePort n
  let t : Int := 80 * (i : Int) - 280
  match n / 12 with
  | 0 => (c.1 + t, c.2)
  | 1 => (c.1, c.2 - t)
  | 2 => (c.1 - t, c.2)
  | _ => (c.1, c.2 + t)

/-! Rows. -/

/-- An instruction is loaded, and a scan of the data register that it selects may follow (R537, R538). -/
def execTapInstructionLoad (ir : Fin 16) (scan : Option TapScan) (s : State) :=
  (Op.hub (Op.thn (Op.tapLoad ir) (match scan with | some x => Op.tapScan x | none => Op.skip))).next s
/-- TRST_N or Test-Logic-Reset (R538). -/
def execTapReset (s : State) := (Op.hub Op.tapReset).next s

end Sys2Proof.Machine
end

