-- ==== Sys2Proof/Machine/Reset.lean ====
section
/-! DEFINITION. Power-up, readiness, shut-down and WAKE_N (R467, R481, R529, R541), and what one clock of the time unit does when
no command waits (R303, R317, R381, R400). -/
namespace Sys2Proof.Machine

/-- The device with everything but vault, fuses and erase counts lost. -/
def State.cold (s : State) : State :=
  { State.reset with
    regs := s.regs
    mem := s.mem
    stw := { StwSt.init with revoked := s.stw.revoked, minSvn := s.stw.minSvn, erase := s.stw.erase }
    out := s.out
    fresh := s.fresh
    pending := s.pending }
/-- A power-up (R541). -/
def Op.powerUp : Op := Op.all [Op.wipe (fun _ => false) (fun k => Nat.ble vaultKey k), Op.mod State.cold, Op.vaultScan]
/-- The device loses its supply (R467): both feeds are FAILED, and a commit in progress may be torn (R373). -/
def Op.shutdown : Op := Op.dyn fun s =>
  Op.when (!s.pwr.dead && s.feedClass false == 2 && s.feedClass true == 2) (Op.all [
    Op.vaultTorn, Op.powerUp, Op.setF SUP_STAT SUP_STAT_CLASS_A 2, Op.setF SUP_STAT SUP_STAT_CLASS_B 2,
    Op.pwr fun p => { p with dead := true }])
/-- WAKE_N is low (R481): in device Off, with supply, a power-up. -/
def Op.wakeLow : Op := Op.dyn fun s =>
  if s.pwr.dead then Op.when (s.feedClass false != 2 || s.feedClass true != 2) Op.powerUp else Op.wakeN

/-! The clock. -/

/-- The drone cycles of 1.5 GHz in the tick of 1.25 GHz that follows count `c`. -/
def drnCycles (c : Nat) : Nat := 6 * (c + 1) / 5 - 6 * c / 5
/-- A drone's cycles pass: TIMER counts down to 1, and its last count is a command of its own (TIMER_EXPIRY). -/
def DrnSt.pass (n : Nat) (z : DrnSt) : DrnSt :=
  { z with
    cycle := z.cycle + BitVec.ofNat 64 n
    timer := if z.timer == 0#32 then 0#32 else BitVec.ofNat 32 (Nat.max 1 (z.timer.toNat - n)) }
/-- What the synthesisers of the line tiles move to (R317), in 2^-48 / 5^14: R_l within 50 ppm while SYNT is 1, nominal otherwise. -/
def State.trimTo (s : State) : Int :=
  if s.bit TU_CTL TU_CTL_SYNT then clampI (-(2 ^ 43 * 5 ^ 10)) (2 ^ 43 * 5 ^ 10) (s.time.line.r * 5 ^ 14) else 0
/-- They move by 0.1 ppm in a millisecond, 2^37 of these units in a clock, and no faster (R317; at that rate: DESIGN CHOICE, log 36). -/
def State.trimNext (s : State) : Int := s.time.trim + clampI (-(2 ^ 37)) (2 ^ 37) (s.trimTo - s.time.trim)
/-- One rising edge of the time clock while no command waits (log 1). -/
def Op.tick : Op := Op.dyn fun s => Op.when (s.pwr.ready && !s.pwr.dead) (
  Op.thn (Op.time fun t => { t with c := (t.c + 1) % 2 ^ 64, trim := s.trimNext })
    (Op.thn (Op.each (List.range 4) Op.portGo)
      (Op.each ((List.range 56).filter fun d => s.inRun (domClu (d / 8))) fun d => Op.drn d (DrnSt.pass (drnCycles s.time.c)))))

/-! Rows. -/

/-- Application of supply (R541). -/
def execPowerUp (s : State) := Op.powerUp.next s
/-- The always-on domain is ready (R529): a feed has been GOOD. -/
def execAonReady (s : State) :=
  (Op.hub (Op.dyn fun s => Op.when (s.sup.a.since.isSome || s.sup.b.since.isSome) (Op.pwr fun p => { p with ready := true }))).next s
/-- The regulator input falls below 9.0 V (R467). -/
def execSupplyShutdown (s : State) := Op.shutdown.next s
/-- WAKE_N low (R481). -/
def execWakeNLow (s : State) := Op.wakeLow.next s

end Sys2Proof.Machine
end

