-- ==== Sys2Proof/Machine/Bus.lean ====
section
/-! DEFINITION. An access to a word of BAR0 or BAR2 by the host or by a drone (R10, R11, R299, R394, R446, R504–R515): what a
write and a read of each register does, by the operations of the chapter that owns it. -/
namespace Sys2Proof.Machine

/-- The domain whose power serves a BAR0 address; the hub and the always-on domain have none (R506). -/
def busDom (a : Nat) : Option Nat :=
  if Nat.ble 0x1000000 a && Nat.blt a 0x2800000 then some (domEng ((a - 0x1000000) / 0x80000))
  else if Nat.ble 0x3000000 a && Nat.blt a 0x3400000 then some (domHrn ((a - 0x3000000) / 0x100000)) else none
/-- An access to a BAR0 address under R506. -/
def Op.busGate (p : Party) (a : Nat) (wr : Bool) (o : Op) : Op :=
  match busDom a with
  | some d => Op.gate p a wr d o
  | none => Op.hub o

/-! Writes. -/

/-- A register without behaviour of its own (R11): RW loads, W1C clears, W1S sets, every other code is unaffected. -/
def Op.genWr (a : Nat) (v : W) : Op := Op.dyn fun s =>
  match layout a with
  | none => Op.skip
  | some l => Op.wr a ((((s.reg a &&& ~~~l.rw) ||| (v &&& l.rw)) &&& ~~~(v &&& l.w1c)) ||| (v &&& l.w1s))
/-- A W1C bit: while its cause persists it is re-asserted, and counted at its source (R11, R446). -/
def Op.ackIf (a : Nat) (sticky : Fld) (live : State → Bool) (src : Nat) (v : W) : Op := Op.dyn fun s =>
  Op.when (bitFld v sticky && s.bit a sticky) (if live s then Op.reassert src 1 else Op.setF a sticky 0)
/-- A W1C bit whose cause a live bit shows. -/
def Op.ackLive (a : Nat) (sticky live : Fld) (src : Nat) (v : W) : Op := Op.ackIf a sticky (fun s => s.bit a live) src v
/-- Does the active copy of an engine's CD response hold a poisoned word, read as 0 (R416)? -/
def State.cdZero (s : State) (n : Nat) (rx : Bool) : Bool := s.poison.any fun k => s.cdCopy k == some (n, rx, false)

/-- The identity block. -/
def Op.idWr (a : Nat) (v : W) : Op :=
  if a == STW_CMD then Op.stwCmd v
  else if a == SUP_CMD then Op.when (v.getLsbD 0) Op.feedSwitch
  else if a == PWR_CMD then Op.when (v.getLsbD 31) (Op.pwrGo v)
  else if a == PWR_PAD_REL then Op.padRel v
  else if a == THERM_CFG then
    Op.when (Nat.ble 60 (getFld v THERM_CFG_WARN) && Nat.ble (getFld v THERM_CFG_WARN) 109) (Op.genWr a v)
  else if a == REF_STAT then Op.ackLive a REF_STAT_WAS_LOST REF_STAT_LOST 1 v
  else Op.genWr a v
/-- The fault collector. -/
def Op.fcWr (a : Nat) (v : W) : Op :=
  if a == FC_STAT then Op.fcStat v
  else if a == FC_INJECT_HI then Op.inject v
  else if Nat.ble (FC_SRC_CFG 0) a && Nat.blt a (FC_SRC_CFG 4096) then Op.srcCfg ((a - FC_SRC_CFG 0) / 4) v
  else if Nat.ble (FC_SRC_STAT 0) a && Nat.blt a (FC_SRC_STAT 4096) then
    Op.when (srcExists ((a - FC_SRC_STAT 0) / 4)) (Op.fcAck ((a - FC_SRC_STAT 0) / 4) v)
  else Op.genWr a v
/-- The time unit. -/
def Op.tuWr (a : Nat) (v : W) : Op :=
  let h := (a - TU_TPORT_CFG 0) / 0x100
  if a == TU_CTL then Op.tuCtl v none
  else if a == TU_SRV_CFG then Op.tuSrc v
  else if a == TU_STAT then Op.thn (Op.genWr a (setFld v TU_STAT_HOLDOVER 0))
    (Op.ackIf a TU_STAT_HOLDOVER (fun s => s.stampSt == 2 || s.lineSt == 2) srcTime v)
  else if a == TU_MEAS_LO then Op.time fun t => { t with measLo := v }
  else if a == TU_MEAS_HI then Op.tuMeas v
  else if a == TU_ADJ_LO then Op.time fun t => { t with adjLo := v }
  else if a == TU_ADJ_HI then Op.tuAdj v
  else if a == EPOCH_LO 0 then Op.tuEpoch false false v
  else if a == EPOCH_HI 0 then Op.tuEpoch false true v
  else if a == EPOCH_LO 1 then Op.tuEpoch true false v
  else if a == EPOCH_HI 1 then Op.tuEpoch true true v
  else if a == RATE_LO 0 then Op.dyn fun s => Op.when (s.fld TU_SRV_CFG TU_SRV_CFG_SRC == 0) (Op.time fun t => { t with rateLo := v })
  else if a == RATE_LO 1 then Op.skip
  else if a == RATE_HI 0 then Op.tuRate false v
  else if a == RATE_HI 1 then Op.tuRate true v
  else if Nat.blt h 4 && a == TU_TPORT_CFG h then Op.tportCfg h v
  else if Nat.blt h 4 && a == TXQ_WR h then Op.txqWr h v
  else Op.genWr a v
/-- The counter block: W0 and W1 fill holding words of the writing party (R495). -/
def Op.cntWr (p : Party) (a : Nat) (v : W) : Op :=
  let k := (a - CNT_W0 0) / 0x20
  let m := (a - BW_CFG 0) / 0x10
  let b := (a - CNT_BANK_CTL 0) / 4
  if Nat.blt a (CNT_W0 4096) then
    (if a == CNT_W0 k then Op.latch p (holdKey k 0) v
     else if a == CNT_W1 k then Op.latch p (holdKey k 1) v
     else if a == CNT_W2 k then Op.cntW2 p k v 0
     else if a == CNT_CFG_LO k then Op.cntCfg (2 * k) v
     else if a == CNT_CFG_HI k then Op.cntCfg (2 * k + 1) v
     else if a == PAIR_CTL k then Op.pairCtl k v else Op.skip)
  else if Nat.blt b 4 && a == CNT_BANK_CTL b then Op.bankCtl b v []
  else if Nat.ble (BW_CFG 0) a && a == BW_CFG m && Nat.blt m 256 then Op.bwCfg m false v
  else if Nat.ble (BW_CFG 0) a && a == BW_WIN m && Nat.blt m 256 then Op.bwCfg m true v
  else Op.genWr a v
/-- The forager, farrier and hub self-test block: a 1 in ECC_LOG_INFO.VALID clears the entry (R428). -/
def Op.memWr (a : Nat) (v : W) : Op :=
  if a == ECC_FLIP_CTL then Op.flipCtl v
  else if a == FAR_CMD then Op.farCmd v
  else if a == HST_CMD then Op.stCmd 48 v
  else if Nat.ble (FG_CFG 0) a && Nat.blt a (FG_CFG 48) && a % 0x20 == 4 then
    let n := (a - FG_CFG 0) / 0x20
    Op.all [Op.genWr a (setFld (setFld v FG_STAT_CD_RX_ZERO 0) FG_STAT_CD_TX_ZERO 0),
      Op.ackIf a FG_STAT_CD_RX_ZERO (fun s => s.cdZero n true) (0x500 + n) v,
      Op.ackIf a FG_STAT_CD_TX_ZERO (fun s => s.cdZero n false) (0x500 + n) v]
  else if Nat.ble (ECC_LOG_ADDR 0 0) a && Nat.blt a (ECC_LOG_ADDR 154 0) then
    let r := (a - ECC_LOG_ADDR 0 0) / 0x100
    let e := (a - ECC_LOG_ADDR 0 0) % 0x100 / 8
    Op.when (a == ECC_LOG_INFO r e && v.getLsbD 31) (Op.all [Op.wr (ECC_LOG_ADDR r e) 0, Op.wr (ECC_LOG_INFO r e) 0,
      Op.ecc fun x => { x with age := Tab.set x.age (fun _ => 0) (r * 32 + e) 0 }])
  else Op.genWr a v
/-- The hive: a drone alone advances the indices of its own mailbox that are RO to the host (R361, R362). -/
def Op.hiveWr (p : Party) (a : Nat) (v : W) : Op :=
  let d := (a - HIVE_DRN_CTL 0) / 0x10
  let m := (a - HIVE_MBX_H2D_WR 0) / 0x20
  if Nat.blt d 56 && a == HIVE_DRN_CTL d then Op.drnCtl d v
  else if Nat.ble (HIVE_MBX_H2D_WR 0) a && Nat.blt m 57 then
    (if a == HIVE_MBX_H2D_WR m then Op.mbxH2d m v
     else if a == HIVE_MBX_H2D_RD m then Op.when (partyCode p == m && Nat.blt m 56) (Op.wr a v)
     else if a == HIVE_MBX_D2H_WR m then Op.when (partyCode p == m && Nat.blt m 56) (Op.mbxD2h m v)
     else Op.genWr a v)
  else Op.genWr a v
/-- The decoder pool. -/
def Op.poolWr (a : Nat) (v : W) : Op :=
  let n := (a - FEC_STAT 0) / 0x40
  if a == POOL_MIRROR_CTL then Op.mirrorCtl v
  else if Nat.ble (POOL_DEC 0) a && Nat.blt a (POOL_DEC 48) then Op.shadowWr ((a - POOL_DEC 0) / 4) a v
  else if Nat.ble (POOL_ENC 0) a && Nat.blt a (POOL_ENC 48) then Op.shadowWr ((a - POOL_ENC 0) / 4) a v
  else if Nat.ble (FEC_STAT 0) a && Nat.blt n 48 && a == FEC_STAT n then
    Op.thn (Op.genWr a (setFld v FEC_STAT_MARGIN 0)) (Op.ackLive a FEC_STAT_MARGIN FEC_STAT_MARGIN_LIVE (srcEng n 11) v)
  else Op.genWr a v
/-- Clients: a context's words are loaded only while it is IDLE (R241). -/
def Op.cliWr (a : Nat) (v : W) : Op := Op.dyn fun s =>
  let c := (a - CTX_CFG 0) / 0x20
  if a == CLI_CMD then Op.cliCmd v
  else if Nat.ble (CTX_CFG 0) a && Nat.blt a (CTX_CFG 4096) && (a == CTX_CFG c || a == CTX_SLOTS c || a == CTX_BOUND c) then
    Op.when (s.ctxState c == 0) (Op.genWr a v)
  else if Nat.ble (CAL_IN 0 0) a && Nat.blt a (CAL_IN 48 0) then Op.shadowWr ((a - CAL_IN 0 0) / 0x800) a v
  else if Nat.ble (CAL_OUT 0 0) a && Nat.blt a (CAL_OUT 48 0) then Op.shadowWr ((a - CAL_OUT 0 0) / 0x800) a v
  else Op.genWr a v
/-- Is a word of an engine shadowed (R513)? -/
def engShadow (n a : Nat) : Bool := (List.range 15).any fun b => blkBits n b a != 0
/-- An engine's block. -/
def Op.engWr (n a : Nat) (v : W) : Op :=
  let w := a - GAIT_W0 n 0
  let t := a - GLO_TERM n 0 0
  if a == ENG_SWAP_REQ n then Op.swapWr n v
  else if a == GAIT_SEL n then Op.gaitSel n v
  else if a == NEG_TX_CTL n then Op.negTxCtl n v
  else if a == NEG_RX_CTL n then Op.negRxCtl n v
  else if Nat.ble (GAIT_W0 n 0) a && Nat.blt w 0x100 then Op.gaitWord n (w / 16) (w % 16 / 4) v
  else if a == CONV_SEL n then Op.convSel n v
  else if a == CONV_CAL_CTL n then Op.calCtl n v
  else if a == CONV_OVR_STAT n then Op.each (List.range 4) fun c => Op.ackLive a ⟨c, c⟩ ⟨4 + c, 4 + c⟩ (srcEng n c) v
  else if a == TX_CTL n then Op.txCtl n v none
  else if a == TX_STAT n then Op.thn (Op.genWr a (setFld v TX_STAT_CLIP_STICKY 0))
    (Op.each (List.range 4) fun c => Op.ackLive a ⟨4 + c, 4 + c⟩ ⟨8 + c, 8 + c⟩ (srcEng n (4 + c)) v)
  else if a == RX_CTL n then Op.rxCtl n v
  else if a == RX_EQ_CTL n then Op.eqCtl n v
  else if Nat.ble (GLO_TERM n 0 0) a && Nat.blt t 0x400 then Op.gloTerm n (t / 0x200) (t % 0x200 / 4) v
  else if a == GLO_PAGE_CTL n then Op.pageCtl n v
  else if a == MON_CTL n then Op.monCtl n v
  else if a == MON_CFG n || a == MON_OSNR_CORR n || (Nat.ble (MON_FIR n 0) a && Nat.blt a (MON_FIR n 63)) then Op.monCfg n a v
  else if a == CAP_CTL n then Op.capCtl n v
  else if a == EST_CMD n then Op.stCmd n v
  else if a == ENG_CNT_CTL n then Op.engSnap n v []
  else if engShadow n a then Op.dyn fun s => Op.thn (Op.shadowWr n a v)
    (Op.when ((Nat.ble (CONV_ADC_MAP n 0) a && Nat.blt a (CONV_DAC_MAP n 4)) || a == STRIP_MAP n) (Op.spareMoved n (s.adcRuns n)))
  else Op.genWr a v
/-- A harness's block. -/
def Op.hrnWr (h a : Nat) (v : W) : Op :=
  let at_ := fun (f : Nat → Nat → Nat) => Nat.ble (f h 0) a && Nat.blt a (f h 64)
  if at_ PORT_CFG then Op.portCfg h ((a - PORT_CFG h 0) / 4) v
  else if at_ PORT_STAT then
    let l := 64 * h + (a - PORT_STAT h 0) / 4
    Op.thn (Op.genWr a (setFld v PORT_STAT_ALIGN_LOST 0)) (Op.ackIf a PORT_STAT_ALIGN_LOST
      (fun s => s.holds (0x400 + l) 0x18 0 0 || s.holds (0x400 + l) 0x18 3 0) (0x400 + l) v)
  else if at_ LANE_CFG then Op.laneCfg h ((a - LANE_CFG h 0) / 4) v
  else if at_ LANE_CTL then Op.laneCtl h ((a - LANE_CTL h 0) / 4) v
  else if at_ LANE_TXEQ then Op.txeq h ((a - LANE_TXEQ h 0) / 4) v
  else Op.genWr a v
/-- The PCIe block: a pending vector is sent when its mask bit is cleared (R300; PRESUMED, the MSI-X of PCI Express, log 8). -/
def Op.pcieWr (a : Nat) (v : W) : Op :=
  let i := (a - MSIX_TABLE 0) / 4
  Op.thn (Op.genWr a v) (Op.dyn fun s =>
    Op.when (Nat.ble (MSIX_TABLE 0) a && Nat.blt i 1024 && i % 4 == 3 && !v.getLsbD 0
        && (s.reg (MSIX_PBA (i / 128))).getLsbD (i / 4 % 32))
      (Op.thn (Op.setF (MSIX_PBA (i / 128)) ⟨i / 4 % 32, i / 4 % 32⟩ 0) (Op.emit (.msix (i / 4)))))
/-- A write of an aligned word of BAR0. -/
def Op.busWr (p : Party) (a : Nat) (v : W) : Op := Op.busGate p a true (
  if Nat.blt a 0x100000 then Op.idWr a v
  else if Nat.blt a 0x200000 then Op.fcWr a v
  else if Nat.blt a 0x300000 then Op.tuWr a v
  else if Nat.blt a 0x400000 then Op.cntWr p a v
  else if Nat.blt a 0x500000 then Op.memWr a v
  else if Nat.blt a 0x600000 then Op.hiveWr p a v
  else if Nat.blt a 0x700000 then Op.poolWr a v
  else if Nat.blt a 0x800000 then Op.cliWr a v
  else if Nat.ble 0x1000000 a && Nat.blt a 0x2800000 then Op.engWr ((a - 0x1000000) / 0x80000) a v
  else if Nat.ble 0x3000000 a && Nat.blt a 0x3400000 then Op.hrnWr ((a - 0x3000000) / 0x100000) a v
  else if Nat.ble 0x3400000 a && Nat.blt a 0x3500000 then Op.pcieWr a v
  else Op.skip)

/-! Reads. -/

/-- FC_SUMMARY: the sources of a word with a sticky bit (R452). -/
def State.fcSummary (s : State) (w : Nat) : W :=
  BitVec.ofNat 32 ((List.range 32).foldl (fun a b => if s.fld (FC_SRC_STAT (32 * w + b)) FC_SRC_STAT_STICKY == 0 then a else a + 2 ^ b) 0)
/-- The words of a scale that are not latched (R304, R328): its register at an offset of 0x54 to 0x6C. -/
def State.scaleWord (s : State) (line : Bool) (o : Nat) : W :=
  let k := if line then s.time.line else s.time.stamp
  let part := fun (v i : Nat) => BitVec.ofNat 32 (v / 2 ^ (32 * i))
  if o == 0x54 then part k.e.toNat 0 else if o == 0x58 then part k.e.toNat 1
  else if o == 0x5C then part (uns 80 k.o) 0 else if o == 0x60 then part (uns 80 k.o) 1 else if o == 0x64 then part (uns 80 k.o) 2
  else if o == 0x68 then part (uns 40 k.r) 0 else part (uns 40 k.r) 1
/-- Words of an engine that show live state. -/
def State.engWord (s : State) (n a : Nat) : W :=
  let v := s.reg a
  let b := fun (x : Bool) => if x then 1 else 0
  if a == GAIT_STAT n then setFld (setFld v GAIT_STAT_TX_ACT (s.txAct n)) GAIT_STAT_RX_ACT (s.rxAct n)
  else if a == RX_STAT n then setFld v RX_STAT_SEL_HOLD (b (!s.selLine n))
  else if a == GLO_STAT n then
    setFld (setFld (setFld (setFld v GLO_STAT_NO_PAGE_TX (b (!s.pageValid n (s.actPage n false))))
      GLO_STAT_NO_PAGE_RX (b (!s.pageValid n (s.actPage n true))))
      GLO_STAT_EDGE_DOWN_LO (b (Nat.ble 8 n && Nat.blt (n % 8) 2 && (s.edgeS (edgeKey (n / 8 - 1) true)).down)))
      GLO_STAT_EDGE_DOWN_HI (b (Nat.blt n 40 && Nat.ble 6 (n % 8) && (s.edgeS (edgeKey (n / 8) false)).down))
  else if a == GLO_OCC n then setFld (setFld v GLO_OCC_TX_PAGE (s.actPage n false)) GLO_OCC_RX_PAGE (s.actPage n true)
  else if a == MON_STAT n then setFld v MON_STAT_LIVE_INV (s.monInv n)
  else if a == MON_GD n then BitVec.ofNat 32 (s.monGd n)
  else v
/-- The word that a read of an address shows, where nothing is latched. -/
def State.busWord (s : State) (a : Nat) : W :=
  let v := s.reg a
  let b := fun (x : Bool) => if x then 1 else 0
  if a == ID_DEVICE then setFld v ID_DEVICE_GRADE Config.grade.toNat
  else if a == STW_FUSE then s.stwFuse
  else if a == STW_VAULT_STAT then s.vaultStat
  else if Nat.ble (FC_SUMMARY 0) a && Nat.blt a (FC_SUMMARY 128) then s.fcSummary ((a - FC_SUMMARY 0) / 4)
  else if a == TU_CNT_LO then BitVec.ofNat 32 s.time.c
  else if Nat.ble (EPOCH_LO 0) a && Nat.ble a (RATE_HI 0) then s.scaleWord false (a - 0x200000)
  else if Nat.ble (EPOCH_LO 1) a && Nat.ble a (RATE_HI 1) then s.scaleWord true (a - 0x200040)
  else if Nat.ble (FG_CFG 0) a && Nat.blt a (FG_CFG 48) && a % 0x20 == 4 then
    let e := s.engS ((a - FG_CFG 0) / 0x20)
    setFld (setFld v FG_STAT_CD_RX_GOOD_SHADOW (b e.goodRx)) FG_STAT_CD_TX_GOOD_SHADOW (b e.goodTx)
  else if Nat.ble (HIVE_DRN_CTL 0) a && Nat.blt a (HIVE_DRN_CTL 56) && a % 0x10 == 4 then
    setFld v HIVE_DRN_STAT_STATE (s.drnState ((a - HIVE_DRN_CTL 0) / 0x10))
  else if a == POOL_STAT then
    setFld (setFld (setFld v POOL_STAT_ASSIGNED s.assigned.length) POOL_STAT_SPARES s.poolSpares) POOL_STAT_NO_SPARE (b (s.poolSpares == 0))
  else if Nat.ble (CTX_CFG 0) a && Nat.blt a (CTX_CFG 4096) && a % 0x20 == 0xC then
    setFld v CTX_STAT_CARRIER_DOWN (b (s.carrierDown ((a - CTX_CFG 0) / 0x20)))
  else if Nat.ble 0x1000000 a && Nat.blt a 0x2800000 then s.engWord ((a - 0x1000000) / 0x80000) a
  else if Nat.ble 0x3500000 a && Nat.blt a 0x3600000 then s.word (vaultKey + (a - 0x3500000))
  else v
/-- A low word whose read latches the next word for the party (R328, R394, R463, R488). -/
def latchPair (a : Nat) : Bool :=
  let n := (a - 0x1000000) / 0x80000
  a == SUP_LAST_TS_LO || a == TU_PPS_IN_TS_LO || a == HST_SIG_LO || a == HST_EXP_SIG_LO
    || (Nat.ble (LTT_CFG 0) a && Nat.blt a (LTT_CFG 48) && a % 0x20 == 0xC)
    || (Nat.ble 0x1000000 a && Nat.blt a 0x2800000 && (a == EST_SIG_LO n || a == EST_EXP_SIG_LO n || a == CAP_TSTAMP_LO n))
/-- A word that a read returns from the party's latch. -/
def latchedWord (a : Nat) : Bool :=
  let n := (a - 0x1000000) / 0x80000
  let f := (a - FEC_STAT 0) / 0x40
  let k := (a - CNT_W0 0) / 0x20
  let o := a - 0x200000
  a == TU_CNT_HI || (Nat.ble 4 a && latchPair (a - 4))
    || (Nat.ble 0x200040 a && Nat.blt a 0x2000C0 && Nat.ble 0x44 (o % 0x40 + 0x40) && Nat.ble (o % 0x40 + 0x40) 0x50)
    || (Nat.ble (FEC_STAT 0) a && Nat.blt f 48 && (a == FEC_ERR_HI f || a == FEC_BITS_HI f))
    || (Nat.ble (CNT_W0 0) a && Nat.blt a (CNT_W0 4096) && (a == CNT_W1 k || a == CNT_W2 k))
    || (Nat.ble (BW_CFG 0) a && Nat.blt a (BW_CFG 256) && a % 0x10 == 0xC)
    || (Nat.ble 0x1000000 a && Nat.blt a 0x2800000 && (a == RX_SYNCQ_PWR n || a == RX_SYNCQ_SNR n || a == MON_FINE_CNT n
      || (Nat.ble (MON_FINE n 1) a && Nat.blt a (MON_FINE n 8)) || (Nat.ble (MON_COARSE n 1) a && Nat.blt a (MON_COARSE n 8))))
/-- A read of an engine word that latches a set, or none. MON_COARSE shows the values at the last word that has come (log 28). MON_GD is not stated for MED 5 to 7. -/
def Op.engRd (p : Party) (n a : Nat) : Option Op :=
  if a == RX_SYNCQ_SF n then some (Op.syncqRead p n)
  else if a == MON_FINE n 0 then some (Op.monFineRead p n)
  else if a == MON_COARSE n 0 then some (Op.monCoarseRead p n)
  else if a == MON_GD n then some (Op.dyn fun s => if Nat.blt 4 (s.fld (MON_CFG n) MON_CFG_MED) then Op.free fun v => Op.data p (v &&& 0xFFFFF#32)
    else Op.data p (s.busWord a))
  else none
/-- A read of a word that latches a set, or none. -/
def Op.latchRd (p : Party) (a inc : Nat) : Option Op :=
  let f := (a - FEC_STAT 0) / 0x40
  let k := (a - CNT_W0 0) / 0x20
  let m := (a - BW_CFG 0) / 0x10
  if a == NOW_TS_LO 0 then some (Op.nowRead p false)
  else if a == NOW_TS_LO 1 then some (Op.nowRead p true)
  else if a == TU_CNT_LO then some (Op.dyn fun s => Op.thn (Op.data p (s.busWord a)) (Op.latch p TU_CNT_HI (BitVec.ofNat 32 (s.time.c / 2 ^ 32))))
  else if Nat.ble (FEC_STAT 0) a && Nat.blt f 48 && a == FEC_ERR_LO f then some (Op.fecRead p f false inc)
  else if Nat.ble (FEC_STAT 0) a && Nat.blt f 48 && a == FEC_BITS_LO f then some (Op.fecRead p f true inc)
  else if Nat.ble (CNT_W0 0) a && Nat.blt k 4096 && a == CNT_W0 k then some (Op.cntRead p k)
  else if Nat.ble (BW_CFG 0) a && Nat.blt m 256 && a == BW_LAST m then some (Op.bwLast p m)
  else if latchPair a then some (Op.dyn fun s => Op.thn (Op.data p (s.reg a)) (Op.latch p (a + 4) (s.reg (a + 4))))
  else if (Nat.ble (SUP_VIN 0) a && Nat.blt a (SUP_VIN 2)) || (Nat.ble (SUP_RAIL 0) a && Nat.blt a (SUP_RAIL 36)) then
    some (Op.dyn fun s => Op.thn (Op.mod fun s => { s with fresh := s.fresh + 1 }) (Op.data p
      (if Nat.blt a (SUP_RAIL 0) then s.reg a &&& 0xFFFF0000#32 ||| Config.supplySample a s.fresh &&& 0xFFFF#32
       else Config.supplySample a s.fresh &&& impOf a)))
  else if Nat.ble 0x1000000 a && Nat.blt a 0x2800000 then Op.engRd p ((a - 0x1000000) / 0x80000) a
  else none
/-- A plain read: an RC word is cleared and takes the increment `inc` of an event of the same cycle (R11). -/
def Op.plainRd (p : Party) (a inc : Nat) : Op := Op.dyn fun s =>
  if latchedWord a then Op.data p (s.latched p a)
  else Op.thn (Op.data p (s.busWord a)) (match layout a with
    | some l => Op.when (l.rc != 0) (Op.wr a ((s.reg a &&& ~~~l.rc) ||| (BitVec.ofNat 32 (Nat.min inc 0xFFFFFFFF) &&& l.rc)))
    | none => Op.skip)
/-- A read of an aligned word of BAR0. -/
def Op.busRd (p : Party) (a inc : Nat) : Op :=
  Op.busGate p a false (match Op.latchRd p a inc with | some o => o | none => Op.plainRd p a inc)

/-! BAR2. -/

/-- The engine whose BAR2 window holds an address. -/
def bar2Dom (a : Nat) : Option Nat :=
  if Nat.ble 0x40000000 a && Nat.blt a 0x4C000000 then some ((a - 0x40000000) / 0x400000)
  else if Nat.ble 0xC0000000 a && Nat.blt a 0xCC000000 then some ((a - 0xC0000000) / 0x400000) else none
/-- A read of an aligned word of BAR2 (R299, R348, R414, R512). -/
def Op.bar2Rd (p : Party) (a : Nat) : Op := Op.dyn fun s =>
  match s.bar2Key a with
  | some (k, none) => Op.hub (Op.memRead p k (Op.data p))
  | some (k, some n) => Op.gate2 p a false (domEng n) (Op.memRead p k (Op.data p))
  | none => match bar2Dom a with
    | some n => Op.gate2 p a false (domEng n) (Op.data p 0)
    | none => Op.hub (Op.data p 0)

/-! Rows. -/

/-- A write: BAR0 takes aligned whole words only (R299). -/
def Op.write (p : Party) (sp : Space) (a : Nat) (be : BitVec 4) (v : W) (up : Option W) : Op :=
  match sp with
  | .bar0 => if a % 4 == 0 && be == 15#4 && up.isNone then Op.busWr p a v else Op.hub (Op.emit .unsupported)
  | .bar2 => Op.hub (Op.bar2Wr p (a - a % 4) be v up)
/-- A read of one word. -/
def Op.read (p : Party) (sp : Space) (a inc : Nat) : Op :=
  match sp with
  | .bar0 => if a % 4 == 0 then Op.busRd p a inc else Op.hub (Op.emit .unsupported)
  | .bar2 => Op.bar2Rd p (a - a % 4)
/-- A write of a register or memory word (R11, R299). -/
def execRegisterWrite (p : Party) (sp : Space) (a : W) (be : BitVec 4) (v : W) (up : Option W) (s : State) :=
  (Op.write p sp a.toNat be v up).next s
/-- A read of a register or memory word (R11). -/
def execReadClear (p : Party) (sp : Space) (a : W) (inc : Nat) (s : State) := (Op.read p sp a.toNat inc).next s
/-- An access to an engine's or harness's block, or to an engine's BAR2 window, while its domain is dark (R506): where the domain is
served, the access is one of the other rows. An unaligned access of BAR0 is none (R299, R505). -/
def execDarkAccess (p : Party) (sp : Space) (a : W) (wr : Bool) (s : State) :=
  (match (match sp with | .bar0 => busDom a.toNat | .bar2 => bar2Dom a.toNat) with
    | some d => if sp == Space.bar0 && a.toNat % 4 != 0 then Op.hub (Op.emit .unsupported)
      else Op.dyn fun s => Op.when (!s.served d) (Op.hub (Op.dark p sp a.toNat wr d))
    | none => Op.skip).next s
/-- A BAR0 access that is not an aligned 4-byte access (R299). -/
def execBar0UnalignedAccess (a : W) (len : Nat) (_wr : Bool) (s : State) :=
  (Op.when (a.toNat % 4 != 0 || len != 4) (Op.hub (Op.emit .unsupported))).next s

end Sys2Proof.Machine
end

