-- ==== Sys2Proof/Machine/Param.lean ====
section
/-! DEFINITION. The Zynnan accesses to parameter space (R385, R394, R395, R497): each has the effect of a host access of the same
word, made by the drone. -/
namespace Sys2Proof.Machine

/-- Is a word one of a counter group whose enable bit admits worker reads (R497)? -/
def State.groupOpen (s : State) (a : Nat) : Bool :=
  let k := (a - CNT_W0 0) / 0x20
  Nat.ble (CNT_W0 0) a && Nat.blt a (CNT_W0 4096)
    && [CNT_W0 k, CNT_W1 k, CNT_W2 k, CNT_CFG_LO k, CNT_CFG_HI k, PAIR_CTL k].contains a
    && (s.reg (CNT_WORKER_EN (k / 2048))).getLsbD (k / 64 % 32)
/-- The trap of an access to a parameter address (R385); 0 none. -/
def State.paramTrap (s : State) (x : Nat) (a : W) (wr : Bool) : Nat :=
  let z := s.drnS x
  let n := a.toNat
  if n % 4 != 0 then 3
  else if Nat.ble 0x4000000 n && Nat.blt n 0x40000000 then 4
  else if z.keeper then 0
  else if Nat.ble 0x3500000 n && Nat.blt n 0x3600000 then 4
  else if Nat.ble z.pwinB.toNat n && Nat.ble (n + 4) z.pwinL.toNat then 0
  else if !wr && s.groupOpen n then 0 else 4
/-- The space of a parameter address. -/
def paramSpace (a : W) : Space := if Nat.blt a.toNat 0x4000000 then .bar0 else .bar2
/-- The data that a party's read returned, if it returned data. -/
def readOf (p : Party) : List Output → Option W
  | [] => none
  | .read q v :: r => if q == p then some v else readOf p r
  | _ :: r => readOf p r
/-- Is an output the data of a party's read? -/
def isRead (p : Party) : Output → Bool
  | .read q _ => q == p
  | _ => false
/-- A read by a drone, whose data goes to the drone and not to the outside. -/
def Op.drnRead (x : Drn) (o : Op) (k : W → Op) : Op := Op.thn o (Op.dyn fun s =>
  match readOf (.drone x) s.out with
  | none => Op.skip
  | some v => Op.thn (Op.mod fun s => { s with out := s.out.filter fun e => !isRead (.drone x) e }) (k v))
/-- EPL and EPLA: an uncorrectable capture word has trapped, and no data comes (R414). -/
def Op.epl (x : Drn) (d : GReg) (a : W) (long : Bool) : Op := (if long then Op.zyn8 x else Op.zyn x) (Op.dyn fun s =>
  let t := s.paramTrap x a false
  if t != 0 then Op.trapHere x t a
  else Op.drnRead x (Op.read (.drone x) (paramSpace a) a.toNat 0) fun v =>
    Op.drn x fun z => if long then (z.gw d v).adv8 else (z.gw d v).adv)
/-- EPS and EPSA: the drone has gone on to the next instruction when a write acts on the drone itself. -/
def Op.eps (x : Drn) (d : GReg) (a : W) (long : Bool) : Op := (if long then Op.zyn8 x else Op.zyn x) (Op.dyn fun s =>
  let t := s.paramTrap x a true
  if t != 0 then Op.trapHere x t a
  else Op.thn (Op.drn x fun z => if long then z.adv8 else z.adv)
    (Op.write (.drone x) (paramSpace a) a.toNat 15#4 (s.gr x d) none))

/-- EPL. -/
def execEpl (x : Drn) (d s : GReg) (k : BitVec 16) (st : State) :=
  (Op.dyn fun t => Op.epl x d (t.gr x s + sextK k) false).next st
/-- EPS. -/
def execEps (x : Drn) (d s : GReg) (k : BitVec 16) (st : State) :=
  (Op.dyn fun t => Op.eps x d (t.gr x s + sextK k) false).next st
/-- EPLA. -/
def execEpla (x : Drn) (d : GReg) (a : W) (st : State) := (Op.epl x d a true).next st
/-- EPSA. -/
def execEpsa (x : Drn) (d : GReg) (a : W) (st : State) := (Op.eps x d a true).next st

end Sys2Proof.Machine
end

