-- ==== Sys2Proof/Machine/Dispatch.lean ====
section
/-! DEFINITION. One arm for each command: a direct call of its meaning. -/
namespace Sys2Proof.Machine

/-- The effect of a command on everything but the queue. -/
def exec (i : Instr) (s : State) : Host.Outcome State Fault Refusal :=
  match i with
  | .registerWrite p sp a be v up => Sys2Proof.Machine.execRegisterWrite p sp a be v up s
  | .readClear p sp a inc => Sys2Proof.Machine.execReadClear p sp a inc s
  | .darkAccess p sp a wr => Sys2Proof.Machine.execDarkAccess p sp a wr s
  | .bar0UnalignedAccess a len wr => Sys2Proof.Machine.execBar0UnalignedAccess a len wr s
  | .swapNextBoundary p n blocks => Sys2Proof.Machine.execSwapNextBoundary p n blocks s
  | .swapNamedBoundary p n blocks => Sys2Proof.Machine.execSwapNamedBoundary p n blocks s
  | .swapImmediate p n blocks => Sys2Proof.Machine.execSwapImmediate p n blocks s
  | .swapWhenReserved p n blocks => Sys2Proof.Machine.execSwapWhenReserved p n blocks s
  | .transmitBoundary n o => Sys2Proof.Machine.execTransmitBoundary n o s
  | .receiveBoundary n o => Sys2Proof.Machine.execReceiveBoundary n o s
  | .gaitEntryWrite p n ix w v => Sys2Proof.Machine.execGaitEntryWrite p n ix w v s
  | .gaitSelWrite p n v => Sys2Proof.Machine.execGaitSelWrite p n v s
  | .overheadFrameReceive n => Sys2Proof.Machine.execOverheadFrameReceive n s
  | .negTxGo p n v => Sys2Proof.Machine.execNegTxGo p n v s
  | .negTxAbandon p n v => Sys2Proof.Machine.execNegTxAbandon p n v s
  | .noReply n => Sys2Proof.Machine.execNoReply n s
  | .negSwitchSuperframe n o => Sys2Proof.Machine.execNegSwitchSuperframe n o s
  | .negRxAck p n v => Sys2Proof.Machine.execNegRxAck p n v s
  | .negRxNak p n v => Sys2Proof.Machine.execNegRxNak p n v s
  | .negLocalTarget n o => Sys2Proof.Machine.execNegLocalTarget n o s
  | .gaitCatchUp n o => Sys2Proof.Machine.execGaitCatchUp n o s
  | .convSelWrite p n v => Sys2Proof.Machine.execConvSelWrite p n v s
  | .adcSaturation n a => Sys2Proof.Machine.execAdcSaturation n a s
  | .overrangeLiveClear n a => Sys2Proof.Machine.execOverrangeLiveClear n a s
  | .sliceTrackUpdate n a k ws own => Sys2Proof.Machine.execSliceTrackUpdate n a k ws own s
  | .spareCompareDone n c sp ws own act => Sys2Proof.Machine.execSpareCompareDone n c sp ws own act s
  | .calDark p n v => Sys2Proof.Machine.execCalDark p n v s
  | .calTone p n v => Sys2Proof.Machine.execCalTone p n v s
  | .calCompute p n v => Sys2Proof.Machine.execCalCompute p n v s
  | .calNoStep p n v => Sys2Proof.Machine.execCalNoStep p n v s
  | .calAbort p n v => Sys2Proof.Machine.execCalAbort p n v s
  | .calStepDone n m => Sys2Proof.Machine.execCalStepDone n m s
  | .capArm p n v => Sys2Proof.Machine.execCapArm p n v s
  | .capDisarm p n v ws => Sys2Proof.Machine.execCapDisarm p n v ws s
  | .capPretriggerFull n ws => Sys2Proof.Machine.execCapPretriggerFull n ws s
  | .capTriggerPin rising ws => Sys2Proof.Machine.execCapTriggerPin rising ws s
  | .capTriggerTime n ws => Sys2Proof.Machine.execCapTriggerTime n ws s
  | .trigOutPulseEnd => Sys2Proof.Machine.execTrigOutPulseEnd s
  | .capPosttriggerDone n ws => Sys2Proof.Machine.execCapPosttriggerDone n ws s
  | .txEnable p n v => Sys2Proof.Machine.execTxEnable p n v s
  | .txDisable p n v read => Sys2Proof.Machine.execTxDisable p n v read s
  | .txOn n o => Sys2Proof.Machine.execTxOn n o s
  | .txOffComplete n => Sys2Proof.Machine.execTxOffComplete n s
  | .dacSaturation n c => Sys2Proof.Machine.execDacSaturation n c s
  | .rxEnable p n v => Sys2Proof.Machine.execRxEnable p n v s
  | .rxDisable p n v => Sys2Proof.Machine.execRxDisable p n v s
  | .rxRestart p n v => Sys2Proof.Machine.execRxRestart p n v s
  | .rxPowerQualified n ws => Sys2Proof.Machine.execRxPowerQualified n ws s
  | .rxPowerLost n ws => Sys2Proof.Machine.execRxPowerLost n ws s
  | .cdScanComplete n ws => Sys2Proof.Machine.execCdScanComplete n ws s
  | .convergeDwellEnd n ws => Sys2Proof.Machine.execConvergeDwellEnd n ws s
  | .syncHit n ws => Sys2Proof.Machine.execSyncHit n ws s
  | .huntLimitExpiry n ws => Sys2Proof.Machine.execHuntLimitExpiry n ws s
  | .expectedPosition n ws => Sys2Proof.Machine.execExpectedPosition n ws s
  | .rxSyncqRead p n => Sys2Proof.Machine.execRxSyncqRead p n s
  | .tunePeriodEnd l => Sys2Proof.Machine.execTunePeriodEnd l s
  | .eqReset p n v => Sys2Proof.Machine.execEqReset p n v s
  | .eqSnap p n v ws => Sys2Proof.Machine.execEqSnap p n v ws s
  | .seenPatternChange n rx => Sys2Proof.Machine.execSeenPatternChange n rx s
  | .gloTermWrite p n side t v => Sys2Proof.Machine.execGloTermWrite p n side t v s
  | .pageOpen p n v => Sys2Proof.Machine.execPageOpen p n v s
  | .pageClose p n v => Sys2Proof.Machine.execPageClose p n v s
  | .kernelPageWrite p n page t v => Sys2Proof.Machine.execKernelPageWrite p n page t v s
  | .edgeGroupReceive link up stream grp bs => Sys2Proof.Machine.execEdgeGroupReceive link up stream grp bs s
  | .codewordDecoded n w m => Sys2Proof.Machine.execCodewordDecoded n w m s
  | .unitFree u => Sys2Proof.Machine.execUnitFree u s
  | .mirrorGo p v => Sys2Proof.Machine.execMirrorGo p v s
  | .mirrorAbort p v => Sys2Proof.Machine.execMirrorAbort p v s
  | .mirrorDone => Sys2Proof.Machine.execMirrorDone s
  | .decUnitError n u => Sys2Proof.Machine.execDecUnitError n u s
  | .fecCounterRead p n bits inc => Sys2Proof.Machine.execFecCounterRead p n bits inc s
  | .admitCtx p c => Sys2Proof.Machine.execAdmitCtx p c s
  | .drain p c => Sys2Proof.Machine.execDrain p c s
  | .delete p c => Sys2Proof.Machine.execDelete p c s
  | .cliBadOp p op c => Sys2Proof.Machine.execCliBadOp p op c s
  | .ctxDrained c => Sys2Proof.Machine.execCtxDrained c s
  | .reinPeriod el => Sys2Proof.Machine.execReinPeriod el s
  | .clientBlockArrival c b phy rs => Sys2Proof.Machine.execClientBlockArrival c b phy rs s
  | .sequenceRunArrival c n => Sys2Proof.Machine.execSequenceRunArrival c n s
  | .seqGapTimeout c => Sys2Proof.Machine.execSeqGapTimeout c s
  | .portCfgWrite p h q v => Sys2Proof.Machine.execPortCfgWrite p h q v s
  | .laneCfgWrite p h l v => Sys2Proof.Machine.execLaneCfgWrite p h l v s
  | .laneAdaptDone h l ppm => Sys2Proof.Machine.execLaneAdaptDone h l ppm s
  | .ethLaneLockChange h l locked deskewed rs => Sys2Proof.Machine.execEthLaneLockChange h l locked deskewed rs s
  | .nativeBlockReceive h l levels t => Sys2Proof.Machine.execNativeBlockReceive h l levels t s
  | .laneSignalLoss h l => Sys2Proof.Machine.execLaneSignalLoss h l s
  | .localFaultInsert h q => Sys2Proof.Machine.execLocalFaultInsert h q s
  | .laneTxeqWrite p h l v => Sys2Proof.Machine.execLaneTxeqWrite p h l v s
  | .txeqStep h l => Sys2Proof.Machine.execTxeqStep h l s
  | .laneLoopWrite p h l v => Sys2Proof.Machine.execLaneLoopWrite p h l v s
  | .lanePowerWrite p h l v => Sys2Proof.Machine.execLanePowerWrite p h l v s
  | .laneCalGo p h l v => Sys2Proof.Machine.execLaneCalGo p h l v s
  | .laneCalAbort p h l v => Sys2Proof.Machine.execLaneCalAbort p h l v s
  | .laneCalDone h l eyes => Sys2Proof.Machine.execLaneCalDone h l eyes s
  | .pciePerst => Sys2Proof.Machine.execPciePerst s
  | .pcieHotReset => Sys2Proof.Machine.execPcieHotReset s
  | .pcieFlr => Sys2Proof.Machine.execPcieFlr s
  | .pcieLinkDown => Sys2Proof.Machine.execPcieLinkDown s
  | .stepAccept p sample => Sys2Proof.Machine.execStepAccept p sample s
  | .resetTime p => Sys2Proof.Machine.execResetTime p s
  | .tuMeasCommit p hi => Sys2Proof.Machine.execTuMeasCommit p hi s
  | .tuAdjCommit p hi => Sys2Proof.Machine.execTuAdjCommit p hi s
  | .rateCommit p line hi => Sys2Proof.Machine.execRateCommit p line hi s
  | .epochWrite p line hi v => Sys2Proof.Machine.execEpochWrite p line hi v s
  | .tuSrcWrite p v => Sys2Proof.Machine.execTuSrcWrite p v s
  | .sampleTimeout => Sys2Proof.Machine.execSampleTimeout s
  | .tuNowRead p line => Sys2Proof.Machine.execTuNowRead p line s
  | .ppsInEdge rising => Sys2Proof.Machine.execPpsInEdge rising s
  | .ppsOutSecond => Sys2Proof.Machine.execPpsOutSecond s
  | .ppsOutWidthEnd => Sys2Proof.Machine.execPpsOutWidthEnd s
  | .tportCfgWrite p h v => Sys2Proof.Machine.execTportCfgWrite p h v s
  | .tportRxFrame h bytes => Sys2Proof.Machine.execTportRxFrame h bytes s
  | .txqWrWrite p h v => Sys2Proof.Machine.execTxqWrWrite p h v s
  | .launchDue h => Sys2Proof.Machine.execLaunchDue h s
  | .monStart p n v => Sys2Proof.Machine.execMonStart p n v s
  | .monStop p n v => Sys2Proof.Machine.execMonStop p n v s
  | .monConfigWrite p n a v => Sys2Proof.Machine.execMonConfigWrite p n a v s
  | .monFineOutput n ws => Sys2Proof.Machine.execMonFineOutput n ws s
  | .monFineRead p n ws => Sys2Proof.Machine.execMonFineRead p n ws s
  | .monCoarseRead p n ws => Sys2Proof.Machine.execMonCoarseRead p n ws s
  | .boot p => Sys2Proof.Machine.execBoot p s
  | .update p => Sys2Proof.Machine.execUpdate p s
  | .vaultCommit p => Sys2Proof.Machine.execVaultCommit p s
  | .revokeKey p slot => Sys2Proof.Machine.execRevokeKey p slot s
  | .raiseSvn p => Sys2Proof.Machine.execRaiseSvn p s
  | .stwBadOp p op => Sys2Proof.Machine.execStwBadOp p op s
  | .authComplete => Sys2Proof.Machine.execAuthComplete s
  | .loadComplete ready => Sys2Proof.Machine.execLoadComplete ready s
  | .vaultProgramDone good => Sys2Proof.Machine.execVaultProgramDone good s
  | .mbxH2dWrite p d v => Sys2Proof.Machine.execMbxH2dWrite p d v s
  | .halt p d => Sys2Proof.Machine.execHalt p d s
  | .resume p d => Sys2Proof.Machine.execResume p d s
  | .revert p d => Sys2Proof.Machine.execRevert p d s
  | .cancel p d => Sys2Proof.Machine.execCancel p d s
  | .handoverSlow d => Sys2Proof.Machine.execHandoverSlow d s
  | .add x d rs t => Sys2Proof.Machine.execAdd x d rs t s
  | .sub x d rs t => Sys2Proof.Machine.execSub x d rs t s
  | .and x d rs t => Sys2Proof.Machine.execAnd x d rs t s
  | .or x d rs t => Sys2Proof.Machine.execOr x d rs t s
  | .xor x d rs t => Sys2Proof.Machine.execXor x d rs t s
  | .shl x d rs t => Sys2Proof.Machine.execShl x d rs t s
  | .shr x d rs t => Sys2Proof.Machine.execShr x d rs t s
  | .sra x d rs t => Sys2Proof.Machine.execSra x d rs t s
  | .less x d rs t => Sys2Proof.Machine.execLess x d rs t s
  | .lessu x d rs t => Sys2Proof.Machine.execLessu x d rs t s
  | .mul x d rs t => Sys2Proof.Machine.execMul x d rs t s
  | .mulq x d rs t => Sys2Proof.Machine.execMulq x d rs t s
  | .adds x d rs t => Sys2Proof.Machine.execAdds x d rs t s
  | .subs x d rs t => Sys2Proof.Machine.execSubs x d rs t s
  | .min x d rs t => Sys2Proof.Machine.execMin x d rs t s
  | .max x d rs t => Sys2Proof.Machine.execMax x d rs t s
  | .clz x d rs => Sys2Proof.Machine.execClz x d rs s
  | .xadd x d rs t => Sys2Proof.Machine.execXadd x d rs t s
  | .addk x d rs k => Sys2Proof.Machine.execAddk x d rs k s
  | .andk x d rs k => Sys2Proof.Machine.execAndk x d rs k s
  | .ork x d rs k => Sys2Proof.Machine.execOrk x d rs k s
  | .xork x d rs k => Sys2Proof.Machine.execXork x d rs k s
  | .shlk x d rs k => Sys2Proof.Machine.execShlk x d rs k s
  | .shrk x d rs k => Sys2Proof.Machine.execShrk x d rs k s
  | .srak x d rs k => Sys2Proof.Machine.execSrak x d rs k s
  | .lessk x d rs k => Sys2Proof.Machine.execLessk x d rs k s
  | .lessku x d rs k => Sys2Proof.Machine.execLessku x d rs k s
  | .hik x d k => Sys2Proof.Machine.execHik x d k s
  | .ldw x d rs k => Sys2Proof.Machine.execLdw x d rs k s
  | .stw x d rs k => Sys2Proof.Machine.execStw x d rs k s
  | .ldp x d p post k => Sys2Proof.Machine.execLdp x d p post k s
  | .stp x d p post k => Sys2Proof.Machine.execStp x d p post k s
  | .pset x d p k => Sys2Proof.Machine.execPset x d p k s
  | .pget x d p => Sys2Proof.Machine.execPget x d p s
  | .breq x rs t off => Sys2Proof.Machine.execBreq x rs t off s
  | .brne x rs t off => Sys2Proof.Machine.execBrne x rs t off s
  | .brlt x rs t off => Sys2Proof.Machine.execBrlt x rs t off s
  | .brge x rs t off => Sys2Proof.Machine.execBrge x rs t off s
  | .brltu x rs t off => Sys2Proof.Machine.execBrltu x rs t off s
  | .brgeu x rs t off => Sys2Proof.Machine.execBrgeu x rs t off s
  | .call x d k => Sys2Proof.Machine.execCall x d k s
  | .goto x d rs => Sys2Proof.Machine.execGoto x d rs s
  | .cmul x a1 g1 g2 conj => Sys2Proof.Machine.execCmul x a1 g1 g2 conj s
  | .cmac x a1 g1 g2 conj => Sys2Proof.Machine.execCmac x a1 g1 g2 conj s
  | .cmsu x a1 g1 g2 conj => Sys2Proof.Machine.execCmsu x a1 g1 g2 conj s
  | .crnd x g1 a1 sh => Sys2Proof.Machine.execCrnd x g1 a1 sh s
  | .cext x g1 g2 a1 sh => Sys2Proof.Machine.execCext x g1 g2 a1 sh s
  | .cadd x a1 a2 => Sys2Proof.Machine.execCadd x a1 a2 s
  | .cset x a1 g1 g2 => Sys2Proof.Machine.execCset x a1 g1 g2 s
  | .cclr x a1 => Sys2Proof.Machine.execCclr x a1 s
  | .bexp x d p n => Sys2Proof.Machine.execBexp x d p n s
  | .epl x d rs k => Sys2Proof.Machine.execEpl x d rs k s
  | .eps x d rs k => Sys2Proof.Machine.execEps x d rs k s
  | .swap x d rs t when_ own eng => Sys2Proof.Machine.execSwap x d rs t when_ own eng s
  | .wfe x d rs poll => Sys2Proof.Machine.execWfe x d rs poll s
  | .order x => Sys2Proof.Machine.execOrder x s
  | .ready x => Sys2Proof.Machine.execReady x s
  | .banksw x => Sys2Proof.Machine.execBanksw x s
  | .sys x => Sys2Proof.Machine.execSys x s
  | .rtt x => Sys2Proof.Machine.execRtt x s
  | .rdc x d num => Sys2Proof.Machine.execRdc x d num s
  | .wrc x rs num => Sys2Proof.Machine.execWrc x rs num s
  | .li x d imm => Sys2Proof.Machine.execLi x d imm s
  | .ja x imm => Sys2Proof.Machine.execJa x imm s
  | .epla x d imm => Sys2Proof.Machine.execEpla x d imm s
  | .epsa x d imm => Sys2Proof.Machine.execEpsa x d imm s
  | .wfeWake x => Sys2Proof.Machine.execWfeWake x s
  | .timerExpiry x => Sys2Proof.Machine.execTimerExpiry x s
  | .foragerRead r synd => Sys2Proof.Machine.execForagerRead r synd s
  | .foragerWriteBack r => Sys2Proof.Machine.execForagerWriteBack r s
  | .eccFlipArm p v => Sys2Proof.Machine.execEccFlipArm p v s
  | .farCmdGo p v => Sys2Proof.Machine.execFarCmdGo p v s
  | .repairStart => Sys2Proof.Machine.execRepairStart s
  | .rowCopyDone => Sys2Proof.Machine.execRowCopyDone s
  | .rowCompareDone good => Sys2Proof.Machine.execRowCompareDone good s
  | .rowSwitch => Sys2Proof.Machine.execRowSwitch s
  | .farrierRetry => Sys2Proof.Machine.execFarrierRetry s
  | .stripCheck n rx strip => Sys2Proof.Machine.execStripCheck n rx strip s
  | .stripCompareDone n rx good => Sys2Proof.Machine.execStripCompareDone n rx good s
  | .faultMessage ws => Sys2Proof.Machine.execFaultMessage ws s
  | .stickyAck p src v => Sys2Proof.Machine.execStickyAck p src v s
  | .fcInject p hi => Sys2Proof.Machine.execFcInject p hi s
  | .fcSrcCfgWrite p src v => Sys2Proof.Machine.execFcSrcCfgWrite p src v s
  | .errHoldExpiry => Sys2Proof.Machine.execErrHoldExpiry s
  | .stGo p ctl v => Sys2Proof.Machine.execStGo p ctl v s
  | .stAbort p ctl v => Sys2Proof.Machine.execStAbort p ctl v s
  | .stRetirement ctl => Sys2Proof.Machine.execStRetirement ctl s
  | .stRunDone ctl e => Sys2Proof.Machine.execStRunDone ctl e s
  | .feedClassChange b vs => Sys2Proof.Machine.execFeedClassChange b vs s
  | .switchoverComplete => Sys2Proof.Machine.execSwitchoverComplete s
  | .feedRevert => Sys2Proof.Machine.execFeedRevert s
  | .switch p => Sys2Proof.Machine.execSwitch p s
  | .supplyShutdown => Sys2Proof.Machine.execSupplyShutdown s
  | .railExcursion r hard => Sys2Proof.Machine.execRailExcursion r hard s
  | .railRecover r => Sys2Proof.Machine.execRailRecover r s
  | .pwrCmdGo p v => Sys2Proof.Machine.execPwrCmdGo p v s
  | .entryTurn => Sys2Proof.Machine.execEntryTurn s
  | .entryDone => Sys2Proof.Machine.execEntryDone s
  | .wakeStepReady dom mems regs => Sys2Proof.Machine.execWakeStepReady dom mems regs s
  | .wakeTimeout dom => Sys2Proof.Machine.execWakeTimeout dom s
  | .wakeNLow => Sys2Proof.Machine.execWakeNLow s
  | .pwrPadRel p v => Sys2Proof.Machine.execPwrPadRel p v s
  | .powerUp => Sys2Proof.Machine.execPowerUp s
  | .aonReady => Sys2Proof.Machine.execAonReady s
  | .refLoss missing => Sys2Proof.Machine.execRefLoss missing s
  | .refRecover => Sys2Proof.Machine.execRefRecover s
  | .thermSample temps => Sys2Proof.Machine.execThermSample temps s
  | .cntOverflow ix => Sys2Proof.Machine.execCntOverflow ix s
  | .cntW0Read p k => Sys2Proof.Machine.execCntW0Read p k s
  | .cntW2Commit p k v inc => Sys2Proof.Machine.execCntW2Commit p k v inc s
  | .cntFreeze p b v => Sys2Proof.Machine.execCntFreeze p b v s
  | .cntBankClear p b v inc => Sys2Proof.Machine.execCntBankClear p b v inc s
  | .cntCfgWrite p ix v => Sys2Proof.Machine.execCntCfgWrite p ix v s
  | .bwWindowEnd m => Sys2Proof.Machine.execBwWindowEnd m s
  | .bwConfigWrite p m win v => Sys2Proof.Machine.execBwConfigWrite p m win v s
  | .bwLastRead p m => Sys2Proof.Machine.execBwLastRead p m s
  | .engCntSnap p n inc => Sys2Proof.Machine.execEngCntSnap p n inc s
  | .tapInstructionLoad ir scan => Sys2Proof.Machine.execTapInstructionLoad ir scan s
  | .tapReset => Sys2Proof.Machine.execTapReset s
  | .pcieLinkUp speed width flit => Sys2Proof.Machine.execPcieLinkUp speed width flit s
  | .gloOutputSaturation n rx => Sys2Proof.Machine.execGloOutputSaturation n rx s
  | .eccReadError reader r addr synd => Sys2Proof.Machine.execEccReadError reader r addr synd s
  | .illegalInstruction x w => Sys2Proof.Machine.execIllegalInstruction x w s

end Sys2Proof.Machine
end

