-- ==== Sys2Proof/Safety.lean ====
section
/-! DEFINITION. What a safe run is, and the terms in which the statements speak of what a command does and leaves alone. -/
namespace Sys2Proof
open Sys2Proof.Machine

/-- A state is safe when registers and memory are in their canonical form and reserved bits read 0 (R10). -/
def Safe (s : State) : Prop := s.Wf

/-- The command completes from `s`: exec answers a next state, and `P` holds of it. -/
def Gives (c : Instr) (s : State) (P : State → Prop) : Prop := ∃ t, exec c s = .next t ∧ P t

/-- No word of BAR0 changes but those of `A`. -/
def RegsBut (s t : State) (A : Nat → Prop) : Prop := ∀ a, ¬A a → t.reg a = s.reg a
/-- No byte of memory changes but those of `K`. -/
def BytesBut (s t : State) (K : Nat → Prop) : Prop := ∀ k, ¬K k → t.byte k = s.byte k
/-- Nothing but registers changes, and the outputs of the command before are gone. -/
def OnlyRegs (s t : State) : Prop := { t with regs := [] } = { s.quiet with regs := [] }
/-- Only the registers of `A` change. -/
def OnlyRegsOf (s t : State) (A : Nat → Prop) : Prop := OnlyRegs s t ∧ RegsBut s t A
/-- Nothing changes. -/
def Unchanged (s t : State) : Prop := t = s.quiet

/-- Registers change only at the words of `A`, and beside registers and outputs only what `f` forgets. -/
def Only (s t : State) (A : Nat → Prop) (f : State → State) : Prop :=
  RegsBut s t A ∧ f { t with regs := [], out := [] } = f { s with regs := [], out := [] }
/-- Of the units of a kind only unit `n` changes, and of it only what `f` forgets. -/
def UnitBut {α : Type} (g : State → Nat → α) (s t : State) (n : Nat) (f : α → α) : Prop :=
  f (g t n) = f (g s n) ∧ ∀ m, m ≠ n → g t m = g s m
/-- The collector is told of an event at a source, unless self-test isolates the source (R438, R439, R456). -/
def Told (s t : State) (src kind cls detail : Nat) : Prop :=
  t.col = if s.isolated src kind detail then s.col
    else { s.col with intake := mergeMsg ⟨src, kind, cls, false, BitVec.ofNat 40 detail, true, 0, false⟩ s.col.intake }
/-- A condition becomes set at a source: it is told once while it holds (R438). -/
def Begun (s t : State) (src kind cls detail : Nat) : Prop :=
  t.col = if s.isolated src kind detail || s.holds src kind cls detail then s.col
    else { s.col with
      conds := s.col.conds ++ [⟨src, kind, cls, condKey kind (BitVec.ofNat 40 detail), BitVec.ofNat 40 detail⟩]
      intake := mergeMsg ⟨src, kind, cls, false, BitVec.ofNat 40 detail, true, 0, false⟩ s.col.intake }
/-- A condition ends at a source: its clear message is sent where it was set (R438). -/
def Ended (s t : State) (src kind cls detail : Nat) : Prop :=
  t.col = if s.holds src kind cls detail then
      { s.col with
        conds := s.col.conds.filter fun k => !k.is src kind cls detail
        intake := mergeMsg ⟨src, kind, cls, false, BitVec.ofNat 40 detail, false, 0, false⟩ s.col.intake }
    else s.col

/-- Only drone `x` changes, and of it only what `f` forgets. -/
def OnlyDrone (s t : State) (x : Nat) (f : DrnSt → DrnSt) : Prop :=
  f (t.drnS x) = f (s.drnS x) ∧ (∀ y, y ≠ x → t.drnS y = s.drnS y) ∧ { t with drn := [] } = { s.quiet with drn := [] }

/-- Only engine `n` changes beside registers, and of it only what `f` forgets. -/
def OnlyEngine (s t : State) (n : Nat) (f : EngSt → EngSt) (A : Nat → Prop) : Prop :=
  f (t.engS n) = f (s.engS n) ∧ (∀ m, m ≠ n → t.engS m = s.engS m) ∧ RegsBut s t A
    ∧ { t with eng := [], regs := [] } = { s.quiet with eng := [], regs := [] }

end Sys2Proof
end

