-- ==== Sys2Proof/Certificates/Slice0/Obligations.lean ====
section
/-! DEFINITION. The statements for the provers, from the numbered rules of the spec. -/
open Sys2Proof Sys2Proof.Machine

/-! The Zynnan instructions (13_zynnan_instructions.md). -/

/-- A drone without what an instruction may change: PC; with the general registers; and SAT; the accumulators, PC and SAT. -/
def Spec.pc (z : DrnSt) : DrnSt := { z with pc := 0#16 }
def Spec.gPc (z : DrnSt) : DrnSt := { z with g := [], pc := 0#16 }
def Spec.gPcSat (z : DrnSt) : DrnSt := { z with g := [], pc := 0#16, sat := false }
def Spec.accPcSat (z : DrnSt) : DrnSt := { z with acc := [], pc := 0#16, sat := false }

/-- What an instruction that writes one general register leaves: `d` holds `v` (g0 keeps reading 0, R379), PC is `len` further,
and nothing else of the drone or of the device changes. -/
def Spec.writesReg (s t : State) (x : Drn) (d : GReg) (v : W) (len : BitVec 16) : Prop :=
  t.gr x d = (if d = 0 then 0#32 else v) ∧ (∀ k : GReg, k ≠ d → t.gr x k = s.gr x k)
    ∧ (t.drnS x).pc = (s.drnS x).pc + len ∧ OnlyDrone s t x Spec.gPc

/-- A truth value as a register word. -/
def Spec.flag (c : Prop) [Decidable c] : W := if c then 1#32 else 0#32

/-- The executing drone, the destination, its new value and the length of each instruction that writes one register from
registers and constants (R387, R389, R392). -/
def Spec.value (s : State) : Instr → Option (Drn × GReg × W × BitVec 16)
  | .add x d a b => some (x, d, s.gr x a + s.gr x b, 4)
  | .sub x d a b => some (x, d, s.gr x a - s.gr x b, 4)
  | .and x d a b => some (x, d, s.gr x a &&& s.gr x b, 4)
  | .or x d a b => some (x, d, s.gr x a ||| s.gr x b, 4)
  | .xor x d a b => some (x, d, s.gr x a ^^^ s.gr x b, 4)
  | .shl x d a b => some (x, d, BitVec.ofNat 32 ((s.gr x a).toNat * 2 ^ ((s.gr x b).toNat % 32)), 4)
  | .shr x d a b => some (x, d, BitVec.ofNat 32 ((s.gr x a).toNat / 2 ^ ((s.gr x b).toNat % 32)), 4)
  | .sra x d a b => some (x, d, BitVec.ofInt 32 ((s.gr x a).toInt / 2 ^ ((s.gr x b).toNat % 32)), 4)
  | .less x d a b => some (x, d, Spec.flag ((s.gr x a).toInt < (s.gr x b).toInt), 4)
  | .lessu x d a b => some (x, d, Spec.flag ((s.gr x a).toNat < (s.gr x b).toNat), 4)
  | .mul x d a b => some (x, d, BitVec.ofInt 32 ((s.gr x a).toInt * (s.gr x b).toInt), 4)
  | .min x d a b => some (x, d, if (s.gr x a).toInt ≤ (s.gr x b).toInt then s.gr x a else s.gr x b, 4)
  | .max x d a b => some (x, d, if (s.gr x a).toInt ≤ (s.gr x b).toInt then s.gr x b else s.gr x a, 4)
  | .clz x d a => some (x, d, if s.gr x a = 0#32 then 32#32 else BitVec.ofNat 32 (31 - Nat.log2 (s.gr x a).toNat), 4)
  | .addk x d a k => some (x, d, BitVec.ofInt 32 ((s.gr x a).toInt + k.toInt), 4)
  | .andk x d a k => some (x, d, BitVec.ofNat 32 ((s.gr x a).toNat &&& k.toNat), 4)
  | .ork x d a k => some (x, d, BitVec.ofNat 32 ((s.gr x a).toNat ||| k.toNat), 4)
  | .xork x d a k => some (x, d, BitVec.ofNat 32 ((s.gr x a).toNat ^^^ k.toNat), 4)
  | .shlk x d a k => some (x, d, BitVec.ofNat 32 ((s.gr x a).toNat * 2 ^ k.toNat), 4)
  | .shrk x d a k => some (x, d, BitVec.ofNat 32 ((s.gr x a).toNat / 2 ^ k.toNat), 4)
  | .srak x d a k => some (x, d, BitVec.ofInt 32 ((s.gr x a).toInt / 2 ^ k.toNat), 4)
  | .lessk x d a k => some (x, d, Spec.flag ((s.gr x a).toInt < k.toInt), 4)
  | .lessku x d a k => some (x, d, Spec.flag ((s.gr x a).toNat < (BitVec.ofInt 32 k.toInt).toNat), 4)
  | .hik x d k => some (x, d, BitVec.ofNat 32 (65536 * k.toNat), 4)
  | .pget x d p => some (x, d, (s.drnS x).pr p, 4)
  | .li x d imm => some (x, d, imm, 8)
  | _ => none

/-- Is an instruction a long form, of two words (R386)? -/
def Spec.long : Instr → Bool
  | .li _ _ _ => true
  | .ja _ _ => true
  | .epla _ _ _ => true
  | .epsa _ _ _ => true
  | _ => false
/-- A drone in RUN fetches an instruction, and no word of it meets a known error (R363, R386, R409). -/
abbrev Spec.fetches (s : State) (x : Drn) (i : Instr) : Prop := (if Spec.long i then s.executes8 x else s.executes x) = true
/-- R387, R389, R392: the integer instructions, PGET and LI write their result and nothing else. -/
def Obligations.ZynIntegerResults : Prop :=
  ∀ (s : State) (i : Instr) (x : Drn) (d : GReg) (v : W) (len : BitVec 16), s.Wf →
    Spec.value s i = some (x, d, v, len) → Spec.fetches s x i → Gives i s fun t => Spec.writesReg s t x d v len

/-- `q` is `v / 2^n` rounded to nearest, a half to the even neighbour (R390). -/
def Spec.nearest (v : Int) (n : Nat) (q : Int) : Prop :=
  2 * (q * 2 ^ n - v).natAbs < 2 ^ n ∨ (2 * (q * 2 ^ n - v).natAbs = 2 ^ n ∧ q % 2 = 0)
/-- An integer held within `b` signed bits. -/
def Spec.held (b : Nat) (v : Int) : Int := if v < -2 ^ (b - 1) then -2 ^ (b - 1) else if 2 ^ (b - 1) - 1 < v then 2 ^ (b - 1) - 1 else v
/-- What an instruction that saturates one register result leaves: the register holds the value saturated, and SAT is set when
the value did not fit, else as it was (R390). -/
def Spec.writesSat (s t : State) (x : Drn) (d : GReg) (v : W) (sat : Bool) : Prop :=
  t.gr x d = (if d = 0 then 0#32 else v) ∧ (∀ k : GReg, k ≠ d → t.gr x k = s.gr x k)
    ∧ (t.drnS x).sat = ((s.drnS x).sat || sat) ∧ (t.drnS x).pc = (s.drnS x).pc + 4#16
    ∧ OnlyDrone s t x Spec.gPcSat

/-- Whether each branch is taken, and its offset (R387, R388). -/
def Spec.branch (s : State) : Instr → Option (Drn × Bool × BitVec 16)
  | .breq x a b off => some (x, decide (s.gr x a = s.gr x b), off)
  | .brne x a b off => some (x, decide (s.gr x a ≠ s.gr x b), off)
  | .brlt x a b off => some (x, decide ((s.gr x a).toInt < (s.gr x b).toInt), off)
  | .brge x a b off => some (x, decide ((s.gr x b).toInt ≤ (s.gr x a).toInt), off)
  | .brltu x a b off => some (x, decide ((s.gr x a).toNat < (s.gr x b).toNat), off)
  | .brgeu x a b off => some (x, decide ((s.gr x b).toNat ≤ (s.gr x a).toNat), off)
  | _ => none

/-- R388: a taken branch lands at PC + 4 × sext(off16) modulo 2^16, any other at PC + 4; CALL and GOTO link PC + 4, and GOTO to a
target that is no multiple of 4 traps with ALIGN; JA sets PC. Nothing else changes. -/
def Obligations.ZynBranchesAndJumps : Prop :=
  ∀ (s : State) (x : Drn), s.Wf → s.executes x = true →
    (∀ (i : Instr) (c : Bool) (off : BitVec 16), Spec.branch s i = some (x, c, off) →
      Gives i s fun t => (t.drnS x).pc = BitVec.ofInt 16 ((s.drnS x).pc.toNat + 4 * (if c then off.toInt else 1))
        ∧ OnlyDrone s t x Spec.pc)
    ∧ (∀ (d : GReg) (k : BitVec 16), Gives (.call x d k) s fun t =>
      (t.drnS x).pc = BitVec.ofInt 16 ((s.drnS x).pc.toNat + 4 * k.toInt)
        ∧ t.gr x d = (if d = 0 then 0#32 else ((s.drnS x).pc + 4#16).setWidth 32) ∧ (∀ r : GReg, r ≠ d → t.gr x r = s.gr x r)
        ∧ OnlyDrone s t x Spec.gPc)
    ∧ (∀ d a : GReg, (s.gr x a).toNat % 4 = 0 → Gives (.goto x d a) s fun t =>
      (t.drnS x).pc = (s.gr x a).setWidth 16
        ∧ t.gr x d = (if d = 0 then 0#32 else ((s.drnS x).pc + 4#16).setWidth 32) ∧ (∀ r : GReg, r ≠ d → t.gr x r = s.gr x r)
        ∧ OnlyDrone s t x Spec.gPc)
    ∧ (∀ d a : GReg, (s.gr x a).toNat % 4 ≠ 0 → (s.drnS x).tip = false → Gives (.goto x d a) s fun t =>
      (t.drnS x).tcode = 3#32 ∧ (t.drnS x).tpc = (s.drnS x).pc.setWidth 32 ∧ (t.drnS x).pc = (s.drnS x).tentry.setWidth 16
        ∧ ∀ r : GReg, t.gr x r = s.gr x r)
    ∧ ∀ imm : W, s.executes8 x = true → imm.toNat < 65536 → imm.toNat % 4 = 0 → Gives (.ja x imm) s fun t =>
      (t.drnS x).pc = imm.setWidth 16 ∧ OnlyDrone s t x Spec.pc

/-- The parts of a complex word, I in [15:0] and Q in [31:16]. -/
def Spec.re (w : W) : Int := (w.setWidth 16).toInt
def Spec.im (w : W) : Int := ((w >>> 16).setWidth 16).toInt
/-- The product of two complex words, or of the first and the conjugate of the second (R391). -/
def Spec.prod (a b : W) (conj : Bool) : Int × Int :=
  if conj then (Spec.re a * Spec.re b + Spec.im a * Spec.im b, Spec.im a * Spec.re b - Spec.re a * Spec.im b)
  else (Spec.re a * Spec.re b - Spec.im a * Spec.im b, Spec.re a * Spec.im b + Spec.im a * Spec.re b)
/-- What an instruction that writes one accumulator leaves. -/
def Spec.writesAcc (s t : State) (x : Drn) (a : AReg) (v : Int × Int) : Prop :=
  (t.drnS x).ar a = (BitVec.ofInt 40 (Spec.held 40 v.1), BitVec.ofInt 40 (Spec.held 40 v.2))
    ∧ (∀ k : AReg, k ≠ a → (t.drnS x).ar k = (s.drnS x).ar k)
    ∧ (t.drnS x).sat = ((s.drnS x).sat || (Spec.held 40 v.1 != v.1 || Spec.held 40 v.2 != v.2))
    ∧ (t.drnS x).pc = (s.drnS x).pc + 4#16 ∧ OnlyDrone s t x Spec.accPcSat
/-- The value each complex instruction puts into an accumulator (R391, R393). -/
def Spec.accValue (s : State) : Instr → Option (Drn × AReg × (Int × Int))
  | .cmul x a g h c => some (x, a, Spec.prod (s.gr x g) (s.gr x h) c)
  | .cmac x a g h c => some (x, a, (((s.drnS x).ar a).1.toInt + (Spec.prod (s.gr x g) (s.gr x h) c).1,
      ((s.drnS x).ar a).2.toInt + (Spec.prod (s.gr x g) (s.gr x h) c).2))
  | .cmsu x a g h c => some (x, a, (((s.drnS x).ar a).1.toInt - (Spec.prod (s.gr x g) (s.gr x h) c).1,
      ((s.drnS x).ar a).2.toInt - (Spec.prod (s.gr x g) (s.gr x h) c).2))
  | .cadd x a b => some (x, a, (((s.drnS x).ar a).1.toInt + ((s.drnS x).ar b).1.toInt,
      ((s.drnS x).ar a).2.toInt + ((s.drnS x).ar b).2.toInt))
  | .cset x a g h => some (x, a, ((s.gr x g).toInt, (s.gr x h).toInt))
  | .cclr x a => some (x, a, (0, 0))
  | _ => none

/-- R390, R391: MULQ, CRND and CEXT round to nearest, halves to even, and saturate; ADDS, SUBS, CMAC, CMSU and CADD saturate; SAT is set
when the value did not fit and else stays as it was. The complex instructions put their value into one accumulator; nothing else
changes. -/
def Obligations.ZynSaturatingResults : Prop :=
  ∀ (s : State) (x : Drn), s.Wf → s.executes x = true →
    (∀ d a b : GReg, let e := (s.gr x a).toInt + (s.gr x b).toInt
      Gives (.adds x d a b) s fun t => Spec.writesSat s t x d (BitVec.ofInt 32 (Spec.held 32 e)) (Spec.held 32 e != e))
    ∧ (∀ d a b : GReg, let e := (s.gr x a).toInt - (s.gr x b).toInt
      Gives (.subs x d a b) s fun t => Spec.writesSat s t x d (BitVec.ofInt 32 (Spec.held 32 e)) (Spec.held 32 e != e))
    ∧ (∀ (d a b : GReg) (e : Int), Spec.nearest ((s.gr x a).toInt * (s.gr x b).toInt) 31 e →
      Gives (.mulq x d a b) s fun t => Spec.writesSat s t x d (BitVec.ofInt 32 (Spec.held 32 e)) (Spec.held 32 e != e))
    ∧ (∀ (g : GReg) (a : AReg) (n : BitVec 5) (e f : Int), Spec.nearest ((s.drnS x).ar a).1.toInt n.toNat e →
      Spec.nearest ((s.drnS x).ar a).2.toInt n.toNat f →
      Gives (.crnd x g a n) s fun t => Spec.writesSat s t x g
        (BitVec.ofInt 16 (Spec.held 16 f) ++ BitVec.ofInt 16 (Spec.held 16 e)) (Spec.held 16 e != e || Spec.held 16 f != f))
    ∧ (∀ (g h : GReg) (a : AReg) (n : BitVec 5) (e f : Int), Spec.nearest ((s.drnS x).ar a).1.toInt n.toNat e →
      Spec.nearest ((s.drnS x).ar a).2.toInt n.toNat f →
      Gives (.cext x g h a n) s fun t => (g ≠ h → t.gr x g = (if g = 0 then 0#32 else BitVec.ofInt 32 (Spec.held 32 e)))
        ∧ t.gr x h = (if h = 0 then 0#32 else BitVec.ofInt 32 (Spec.held 32 f))
        ∧ (∀ k : GReg, k ≠ g → k ≠ h → t.gr x k = s.gr x k)
        ∧ (t.drnS x).sat = ((s.drnS x).sat || (Spec.held 32 e != e || Spec.held 32 f != f))
        ∧ (t.drnS x).pc = (s.drnS x).pc + 4#16 ∧ OnlyDrone s t x Spec.gPcSat)
    ∧ ∀ (i : Instr) (a : AReg) (v : Int × Int), Spec.accValue s i = some (x, a, v) → Gives i s fun t => Spec.writesAcc s t x a v

/-! The data space, address registers and control registers of a drone. -/

/-- The key of the word that drone `x` reaches at a data address: aligned, listed, and permitted in its mode (R383, R384). -/
def Spec.dataWord (s : State) (x : Drn) (a : W) (wr : Bool) : Option Nat :=
  let n := a.toNat
  let cell := 0x30000000 + x.val * 0x40000
  if n % 4 ≠ 0 then none
  else if n < 0x20000 then some (cell + 0x20000 + n)
  else if 0x08000000 ≤ n ∧ n < 0x08020000 ∧ (s.drnS x).keeper = true ∧ wr = false then some (cell + (n - 0x08000000))
  else if 0x10000000 ≤ n ∧ n < 0x12000000 ∧ ((s.drnS x).keeper = true
      ∨ ((s.drnS x).cwinB.toNat ≤ n - 0x10000000 ∧ n - 0x10000000 + 4 ≤ (s.drnS x).cwinL.toNat)) then some (n - 0x10000000)
  else none
/-- The 8-byte word that holds a key of cell or comb memory decodes without an error (R407, R408). -/
def Spec.clean (s : State) (key : Nat) : Prop := s.poisoned (key - key % 8) = false ∧ s.injAt (key - key % 8) = false
/-- The low `b` bits of a word in reverse order. -/
def Spec.rev (b : Nat) (v : W) : Nat := (List.range b).foldl (fun a i => 2 * a + (v.getLsbD i).toNat) 0
/-- The pointer `p` of address register `k` after a post-modify (R392); none where AMODE or PL is not accepted. -/
def Spec.post (z : DrnSt) (k : PReg) (p : W) : Option W :=
  let pm := Tab.get z.pm (fun _ => 0#32) k
  let pb := Tab.get z.pb (fun _ => 0#32) k
  let pl := Tab.get z.pl (fun _ => 0#32) k
  match (Tab.get z.amode (fun _ => 0#32) k).extractLsb' 0 2 with
  | 0#2 => some (p + pm)
  | 1#2 => if pl.toNat % 4 = 0 ∧ pl ≠ 0#32 then
      some (BitVec.ofInt 32 ((pb.toNat : Int) + ((p.toNat : Int) - pb.toNat + pm.toInt) % pl.toNat)) else none
  | 2#2 => (((List.range 12).map (· + 1)).find? fun b => pl.toNat == 4 * 2 ^ b).map fun b =>
      BitVec.ofNat 32 (pb.toNat + 4 * Spec.rev b (BitVec.ofNat 32 ((Spec.rev b ((p - pb) >>> 2) + Spec.rev b (pm >>> 2)) % 2 ^ b)))
  | _ => none
/-- The pointer after a Pointer instruction of MODE 0b00 or 0b01 (R389). -/
def Spec.pointer (s : State) (x : Drn) (p : PReg) (post : Bool) : Option W :=
  if post then Spec.post (s.drnS x) p ((s.drnS x).pr p) else some ((s.drnS x).pr p)
def Spec.ppc (z : DrnSt) : DrnSt := { z with p := [], pc := 0#16 }
def Spec.gpPc (z : DrnSt) : DrnSt := { z with g := [], p := [], pc := 0#16 }

/-- R384, R389, R392: LDW and LDP load the word at their address; a post-modify moves the pointer. -/
def Obligations.ZynLoads : Prop :=
  ∀ (s : State) (x : Drn), s.Wf → s.executes x = true →
    (∀ (d r : GReg) (k : BitVec 16) (key : Nat), Spec.dataWord s x (s.gr x r + k.signExtend 32) false = some key → Spec.clean s key →
      Gives (.ldw x d r k) s fun t => Spec.writesReg s t x d (s.word key) 4)
    ∧ ∀ (d : GReg) (p : PReg) (post : Bool) (k : BitVec 16) (key : Nat),
      Spec.dataWord s x ((s.drnS x).pr p + k.signExtend 32) false = some key → Spec.clean s key → ∀ q, Spec.pointer s x p post = some q →
      Gives (.ldp x d p post k) s fun t => t.gr x d = (if d = 0 then 0#32 else s.word key)
        ∧ (∀ r : GReg, r ≠ d → t.gr x r = s.gr x r) ∧ (t.drnS x).pr p = q
        ∧ (∀ r : PReg, r ≠ p → (t.drnS x).pr r = (s.drnS x).pr r)
        ∧ (t.drnS x).pc = (s.drnS x).pc + 4#16 ∧ OnlyDrone s t x Spec.gpPc

/-- What a store of a word leaves: the four bytes at its key hold it, no other byte changes, the error log learns of the write
(R410), a write-back of the word is given up (R413), and nothing else changes but the drone that stored. -/
def Spec.storesWord (s t : State) (x : Drn) (key : Nat) (v : W) : Prop :=
  t.word key = v ∧ BytesBut s t (fun k => key ≤ k ∧ k < key + 4) ∧ { t.ecc with wb := [] } = { s.ecc with wb := [] }
    ∧ Only s t (fun a => ∃ e, a = ECC_LOG_INFO (regionOf key) e ∨ a = FG_CANCEL_CNT (regionOf key))
        (fun u => { u with drn := [], mem := [], ecc := .init })
    ∧ ∀ y, y ≠ x.val → t.drnS y = s.drnS y
/-- The steward does not hold the word (R351). -/
def Spec.notHeld (s : State) (key : Nat) : Prop := 0x2000000 ≤ key ∨ s.combHeld key 4 = false

/-- R384, R389, R392, R396: STW, STP and XADD store a word; XADD adds to it and returns what it held. -/
def Obligations.ZynStores : Prop :=
  ∀ (s : State) (x : Drn), s.Wf → s.executes x = true →
    (∀ (d r : GReg) (k : BitVec 16) (key : Nat), Spec.dataWord s x (s.gr x r + k.signExtend 32) true = some key → Spec.notHeld s key →
      Gives (.stw x d r k) s fun t => Spec.storesWord s t x key (s.gr x d)
        ∧ (t.drnS x).pc = (s.drnS x).pc + 4#16 ∧ Spec.pc (t.drnS x) = Spec.pc (s.drnS x))
    ∧ (∀ (d : GReg) (p : PReg) (post : Bool) (k : BitVec 16) (key : Nat),
      Spec.dataWord s x ((s.drnS x).pr p + k.signExtend 32) true = some key → Spec.notHeld s key → ∀ q, Spec.pointer s x p post = some q →
      Gives (.stp x d p post k) s fun t => Spec.storesWord s t x key (s.gr x d) ∧ (t.drnS x).pr p = q
        ∧ (∀ r : PReg, r ≠ p → (t.drnS x).pr r = (s.drnS x).pr r)
        ∧ (t.drnS x).pc = (s.drnS x).pc + 4#16 ∧ Spec.ppc (t.drnS x) = Spec.ppc (s.drnS x))
    ∧ (∀ (d r u : GReg) (key : Nat), Spec.dataWord s x (s.gr x r) true = some key → Spec.notHeld s key → Spec.clean s key →
      Gives (.xadd x d r u) s fun t => Spec.storesWord s t x key (s.word key + s.gr x u)
        ∧ t.gr x d = (if d = 0 then 0#32 else s.word key) ∧ (∀ k : GReg, k ≠ d → t.gr x k = s.gr x k)
        ∧ (t.drnS x).pc = (s.drnS x).pc + 4#16 ∧ Spec.gPc (t.drnS x) = Spec.gPc (s.drnS x))
    ∧ ∀ (d r : GReg) (k : BitVec 16) (key : Nat), Spec.dataWord s x (s.gr x r + k.signExtend 32) true = some key → ¬Spec.notHeld s key →
      Gives (.stw x d r k) s fun t => (∀ j, t.byte j = s.byte j) ∧ t.bit STW_CMD_STAT STW_CMD_STAT_WRITE_BLOCKED = true
        ∧ Only s t (fun a => a = STW_CMD_STAT) (fun u => { u with drn := [] })

/-- The largest magnitude of the parts of complex words. -/
def Spec.largest (l : List W) : Nat := l.foldl (fun m w => max m (max (Spec.re w).natAbs (Spec.im w).natAbs)) 0
/-- R393: BEXP reads N words along the pointer's path and gives the block exponent; with N = 0 it reads nothing. -/
def Obligations.ZynBlockExponent : Prop :=
  ∀ (s : State) (x : Drn) (d n : GReg) (p : PReg), s.Wf → s.executes x = true →
    let N := (s.gr x n).toNat % 8192
    (∀ (q : Nat → W) (key : Nat → Nat), 1 ≤ N → N ≤ 4096 → q 0 = (s.drnS x).pr p →
      (∀ i, i < N → Spec.dataWord s x (q i) false = some (key i) ∧ Spec.clean s (key i)
        ∧ Spec.post (s.drnS x) p (q i) = some (q (i + 1))) →
      let M := Spec.largest ((List.range N).map fun i => s.word (key i))
      Gives (.bexp x d p n) s fun t =>
        t.gr x d = (if d = 0 then 0#32 else if M = 0 then 16#32 else BitVec.ofInt 32 (14 - (Nat.log2 M : Int)))
        ∧ (∀ r : GReg, r ≠ d → t.gr x r = s.gr x r) ∧ (t.drnS x).pr p = q N
        ∧ (∀ r : PReg, r ≠ p → (t.drnS x).pr r = (s.drnS x).pr r)
        ∧ (t.drnS x).pc = (s.drnS x).pc + 4#16 ∧ OnlyDrone s t x Spec.gpPc)
    ∧ (N = 0 → Gives (.bexp x d p n) s fun t => Spec.writesReg s t x d 16#32 4)

/-- The control registers and what RDC reads of them, but for CYCLE_HI (R381, R382). -/
def Spec.controls (s : State) (x : Drn) : List (Nat × W) :=
  let z := s.drnS x
  [(0x000, BitVec.ofNat 32 (z.nmi.toNat * 16 + z.sat.toNat * 8 + z.tip.toNat * 4 + z.prev.toNat * 2 + z.keeper.toNat)),
   (0x001, z.tpc), (0x002, z.tcode), (0x003, z.taddr), (0x004, z.tentry), (0x008, z.evpend.setWidth 32), (0x009, z.timer),
   (0x00A, z.cycle.extractLsb' 0 32), (0x00C, BitVec.ofNat 32 (64 * (x.val / 8) + x.val)), (0x010, z.pwinB), (0x011, z.pwinL),
   (0x012, z.cwinB), (0x013, z.cwinL)]
  ++ (List.range 8).flatMap fun k => [(0x020 + k, Tab.get z.pm (fun _ => 0#32) k), (0x028 + k, Tab.get z.pb (fun _ => 0#32) k),
    (0x030 + k, Tab.get z.pl (fun _ => 0#32) k), (0x038 + k, Tab.get z.amode (fun _ => 0#32) k)]
def Spec.control (s : State) (x : Drn) (n : Nat) : Option W := (Spec.controls s x).lookup n

def Spec.noControls (z : DrnSt) : DrnSt :=
  { z with pc := 0, sat := false, tip := false, prev := false, tpc := 0, tcode := 0, taddr := 0, tentry := 0, evpend := 0, timer := 0,
           pwinB := 0, pwinL := 0, cwinB := 0, cwinL := 0, pm := [], pb := [], pl := [], amode := [] }
/-- What a WRC leaves that makes control register `n` read `v`: the other control registers read as before. -/
def Spec.writesControl (s t : State) (x : Drn) (n : Nat) (v : W) : Prop :=
  Spec.control t x n = some v ∧ (∀ m, m ≠ n → Spec.control t x m = Spec.control s x m)
    ∧ (t.drnS x).pc = (s.drnS x).pc + 4#16 ∧ OnlyDrone s t x Spec.noControls
/-- The control registers that WRC loads, with their bits. -/
def Spec.loads : List (Nat × W) :=
  [(0x001, 0xFFFF#32), (0x002, 0xF#32), (0x003, 0xFFFFFFFF#32), (0x004, 0xFFFC#32), (0x009, 0xFFFFFFFF#32), (0x010, 0xFFFFFFFF#32),
   (0x011, 0xFFFFFFFF#32), (0x012, 0xFFFFFFFF#32), (0x013, 0xFFFFFFFF#32)]
  ++ (List.range 8).flatMap fun k => [(0x020 + k, 0xFFFFFFFF#32), (0x028 + k, 0xFFFFFFFF#32), (0x030 + k, 0xFFFFFFFF#32), (0x038 + k, 3#32)]
/-- The control registers that worker mode may write (R381). -/
def Spec.workerMay (n : Nat) : Prop := n = 0 ∨ n = 8 ∨ n = 9 ∨ (0x20 ≤ n ∧ n < 0x40)
/-- R381, R382: RDC reads every control register of the table, in both modes; CYCLE_LO latches CYCLE_HI for the drone. WRC loads a control
register in the mode that may write it; a worker's WRC of STATUS changes SAT alone, EVPEND is cleared by ones, and a keeper's WRC of a
read-only register leaves it. -/
def Obligations.ZynControlRegisters : Prop :=
  (∀ (s : State) (x : Drn) (d : GReg), s.Wf → s.executes x = true →
      (∀ (n : BitVec 12) (v : W), n ≠ 0x00A#12 → Spec.control s x n.toNat = some v →
        Gives (.rdc x d n) s fun t => Spec.writesReg s t x d v 4)
      ∧ (Gives (.rdc x d 0x00A#12) s fun t => t.gr x d = (if d = 0 then 0#32 else (s.drnS x).cycle.extractLsb' 0 32)
          ∧ (∀ r : GReg, r ≠ d → t.gr x r = s.gr x r) ∧ (t.drnS x).pc = (s.drnS x).pc + 4#16
          ∧ UnitBut State.drnS s t x Spec.gPc
          ∧ (∀ e : GReg, Gives (.rdc x e 0x00B#12) t fun u => u.gr x e = (if e = 0 then 0#32 else (s.drnS x).cycle.extractLsb' 32 32))
          ∧ (∀ p a, t.latched p a = s.latched p a ∨ (p = .drone x ∧ a = cycHi))
          ∧ Only s t (fun _ => False) (fun u => { u with drn := [], latch := [] })))
  ∧ ∀ (s : State) (x : Drn) (r : GReg), s.Wf → s.executes x = true →
      let v := s.gr x r
      let z := s.drnS x
      (∀ (n : BitVec 12) (m : W), Spec.loads.lookup n.toNat = some m → z.keeper = true ∨ Spec.workerMay n.toNat →
        Gives (.wrc x r n) s fun t => Spec.writesControl s t x n.toNat (v &&& m))
      ∧ (∀ o, Spec.control s x 0 = some o → Gives (.wrc x r 0x000#12) s fun t =>
          Spec.writesControl s t x 0 (if z.keeper then (o &&& 0xFFFFFFF1#32) ||| (v &&& 0xE#32) else (o &&& 0xFFFFFFF7#32) ||| (v &&& 8#32)))
      ∧ (Gives (.wrc x r 0x008#12) s fun t => Spec.writesControl s t x 8 ((z.evpend &&& ~~~(v.setWidth 16)).setWidth 32))
      ∧ ∀ n : BitVec 12, n.toNat = 0xA ∨ n.toNat = 0xB ∨ n.toNat = 0xC → z.keeper = true →
        Gives (.wrc x r n) s fun t => (t.drnS x).pc = z.pc + 4#16 ∧ OnlyDrone s t x Spec.pc

/-- R389: PSET loads an address register from a general register and a constant. R395: ORDER changes nothing in a model in which
every access takes effect at once (log 1). -/
def Obligations.ZynPointersAndOrder : Prop :=
  ∀ (s : State) (x : Drn), s.Wf → s.executes x = true →
    (∀ (d : GReg) (p : PReg) (k : BitVec 16), Gives (.pset x d p k) s fun t => (t.drnS x).pr p = s.gr x d + k.signExtend 32
      ∧ (∀ r : PReg, r ≠ p → (t.drnS x).pr r = (s.drnS x).pr r) ∧ (t.drnS x).pc = (s.drnS x).pc + 4#16 ∧ OnlyDrone s t x Spec.ppc)
    ∧ Gives (.order x) s fun t => (t.drnS x).pc = (s.drnS x).pc + 4#16 ∧ OnlyDrone s t x Spec.pc

/-! Traps, events and handover of a drone. -/

/-- The trap of a data address (R383, R384, R401). -/
def Spec.badData (s : State) (x : Drn) (a : W) (wr : Bool) : Option (Nat × W) :=
  if (Spec.dataWord s x a wr).isSome then none else some (if a.toNat % 4 ≠ 0 then 3 else 4, a)
/-- The first trap of the `n` reads and post-modifies of a BEXP from pointer `q` on (R384, R392, R393). -/
def Spec.pathTrap (s : State) (x : Drn) (p : PReg) : Nat → W → Option (Nat × W)
  | 0, _ => none
  | n + 1, q => match Spec.badData s x q false with
    | some e => some e
    | none => match Spec.post (s.drnS x) p q with
      | none => some (1, 0)
      | some r => Spec.pathTrap s x p n r
/-- The words on that path decode without an error. -/
def Spec.pathClean (s : State) (x : Drn) (p : PReg) : Nat → W → Prop
  | 0, _ => True
  | n + 1, q => (∀ key, Spec.dataWord s x q false = some key → Spec.clean s key)
      ∧ ∀ r, Spec.post (s.drnS x) p q = some r → Spec.pathClean s x p n r
/-- What a trapping instruction reads before it traps decodes without an error. -/
def Spec.readsClean (s : State) : Instr → Prop
  | .bexp x _ p n => Spec.pathClean s x p ((s.gr x n).toNat % 8192) ((s.drnS x).pr p)
  | _ => True
/-- The instructions that trap: drone, cause, TADDR, and how far TPC lies behind the instruction's address (R401). -/
def Spec.trap (s : State) : Instr → Option (Drn × Nat × W × BitVec 16)
  | .ldw x _ r k => (Spec.badData s x (s.gr x r + k.signExtend 32) false).map fun e => (x, e.1, e.2, 0)
  | .stw x _ r k => (Spec.badData s x (s.gr x r + k.signExtend 32) true).map fun e => (x, e.1, e.2, 0)
  | .xadd x _ r _ => (Spec.badData s x (s.gr x r) true).map fun e => (x, e.1, e.2, 0)
  | .ldp x _ p post k => match Spec.badData s x ((s.drnS x).pr p + k.signExtend 32) false with
    | some e => some (x, e.1, e.2, 0)
    | none => if Spec.pointer s x p post = none then some (x, 1, 0, 0) else none
  | .stp x _ p post k => match Spec.badData s x ((s.drnS x).pr p + k.signExtend 32) true with
    | some e => some (x, e.1, e.2, 0)
    | none => if Spec.pointer s x p post = none then some (x, 1, 0, 0) else none
  | .bexp x _ p n => (Spec.pathTrap s x p ((s.gr x n).toNat % 8192) ((s.drnS x).pr p)).map fun e => (x, e.1, e.2, 0)
  | .goto x _ r => if (s.gr x r).toNat % 4 = 0 then none else some (x, 3, ((s.gr x r).setWidth 16).setWidth 32, 0)
  | .ja x imm => if imm.toNat < 65536 ∧ imm.toNat % 4 = 0 then none else some (x, 1, 0, 0)
  | .rdc x _ n => if n.toNat = 0xB ∨ (Spec.control s x n.toNat).isSome then none else some (x, 1, 0, 0)
  | .wrc x _ n => if n.toNat = 0xB ∨ (Spec.control s x n.toNat).isSome then
      (if (s.drnS x).keeper = true ∨ n.toNat = 0 ∨ n.toNat = 8 ∨ n.toNat = 9 ∨ (0x20 ≤ n.toNat ∧ n.toNat < 0x40) then none
       else some (x, 2, 0, 0)) else some (x, 1, 0, 0)
  | .rtt x => if (s.drnS x).keeper then none else some (x, 2, 0, 0)
  | .banksw x => if (s.drnS x).keeper then
      (if s.bit (HIVE_DRN_STAT x) HIVE_DRN_STAT_PENDING then none else some (x, 8, 0, 0)) else some (x, 2, 0, 0)
  | .sys x => some (x, 7, 0, 4)
  | .illegalInstruction x w => if zynDecode x w 0 = none then some (x, 1, 0, 0) else none
  | _ => none
/-- What a trap leaves: TPC, TCODE and TADDR are loaded, the mode goes to PREV, the drone is in keeper mode at TENTRY; while TIP was 1 it
is TRAPPED instead and the collector is told (R402, R364). Nothing else changes. -/
def Spec.trapped (s t : State) (x : Drn) (code : Nat) (a : W) (len : BitVec 16) : Prop :=
  let z := s.drnS x
  let y := { z with tpc := (z.pc + len).setWidth 32, tcode := BitVec.ofNat 32 code, taddr := a }
  if z.tip then t.drnS x = y ∧ t.drnHeld x = 4 ∧ Told s t (0x600 + x) 0x20 2 ((z.pc + len).toNat * 65536 + code)
    ∧ (∀ d, d ≠ x.val → t.drnS d = s.drnS d)
    ∧ Only s t (fun a => a = HIVE_DRN_STAT x ∨ a = FC_STAT) (fun u => { u with drn := [], col := .init })
  else t.drnS x = { y with prev := z.keeper, keeper := true, tip := true, pc := z.tentry.setWidth 16, wait := none }
    ∧ OnlyDrone s t x fun _ => DrnSt.init
/-- R401, R402: a trap loads TPC, TCODE and TADDR, saves the mode in PREV, enters keeper mode and goes to TENTRY; while TIP is 1 the
drone enters TRAPPED instead, and the collector is told. A GOTO to a misaligned target and the reads and post-modifies of BEXP are among
the traps. -/
def Obligations.ZynTraps : Prop :=
  ∀ (s : State) (i : Instr) (x : Drn) (code : Nat) (a : W) (len : BitVec 16), s.Wf → Spec.trap s i = some (x, code, a, len) →
    Spec.fetches s x i → Spec.readsClean s i → Gives i s fun t => Spec.trapped s t x code a len

/-- The lowest line set, of those asked for. -/
def Spec.lowest (v : BitVec 16) (i : Nat) : Prop := i < 16 ∧ v.getLsbD i = true ∧ ∀ j, j < i → v.getLsbD j = false
/-- What a WFE that takes line `i` leaves. -/
def Spec.takes (s t : State) (x : Drn) (d : GReg) (i : Nat) : Prop :=
  t.gr x d = (if d = 0 then 0#32 else BitVec.ofNat 32 i) ∧ (∀ r : GReg, r ≠ d → t.gr x r = s.gr x r)
    ∧ (∀ j, (t.drnS x).evpend.getLsbD j = (if j = i then false else (s.drnS x).evpend.getLsbD j))
    ∧ (t.drnS x).pc = (s.drnS x).pc + 4#16 ∧ (t.drnS x).wait = none
    ∧ UnitBut State.drnS s t x fun z => { z with g := [], pc := 0, evpend := 0, wait := none }
/-- R398–R400: WFE takes the lowest line of its mask, polls, or enters WAIT; a waiting drone completes when a line is set; TIMER
reaching 0 sets line 2, while the drone's cluster is in Run (R347). -/
def Obligations.ZynEvents : Prop :=
  ∀ (s : State) (x : Drn) (d r : GReg), s.Wf →
    let m := (s.drnS x).evpend &&& (s.gr x r).setWidth 16
    (∀ i poll, s.executes x = true → Spec.lowest m i → Gives (.wfe x d r poll) s fun t => Spec.takes s t x d i
      ∧ Only s t (fun _ => False) (fun u => { u with drn := [] }))
    ∧ (s.executes x = true → m = 0#16 → Gives (.wfe x d r true) s fun t => Spec.writesReg s t x d 16#32 4)
    ∧ (s.executes x = true → m = 0#16 → Gives (.wfe x d r false) s fun t => t.drnState x = 2
        ∧ t.drnS x = { s.drnS x with wait := some (d, (s.gr x r).setWidth 16) } ∧ (∀ y, y ≠ x.val → t.drnS y = s.drnS y)
        ∧ Only s t (fun a => a = HIVE_DRN_STAT x) (fun u => { u with drn := [] }))
    ∧ (∀ w i, s.drnState x = 2 → (s.drnS x).wait = some (d, w) → Spec.lowest ((s.drnS x).evpend &&& w) i →
        Gives (.wfeWake x) s fun t => Spec.takes s t x d i ∧ t.drnState x = 1
          ∧ Only s t (fun a => a = HIVE_DRN_STAT x) (fun u => { u with drn := [] }))
    ∧ (let due := (s.drnS x).timer = 1#32 ∧ s.domState (domClu (x / 8)) = 0
      (due → Gives (.timerExpiry x) s fun t => (t.drnS x).timer = 0#32
        ∧ (∀ j, (t.drnS x).evpend.getLsbD j = (if j = 2 then true else (s.drnS x).evpend.getLsbD j))
        ∧ OnlyDrone s t x fun z => { z with timer := 0, evpend := 0 })
      ∧ (¬due → Gives (.timerExpiry x) s fun t => Unchanged s t))

/-- The entry of a held non-maskable trap (R401, R402). -/
def Spec.nmi (w : DrnSt) : DrnSt :=
  { w with tpc := w.pc.setWidth 32, tcode := 9#32, taddr := 0#32, prev := w.keeper, keeper := true, tip := true,
           pc := w.tentry.setWidth 16, wait := none, nmi := false }
/-- R403, R404, R366, R367: RTT returns from a trap, BANKSW exchanges the banks and goes on at offset 8, READY ends the pause of a
handover; a held non-maskable trap is taken after RTT and at the handover entry. Choices of the model: RTT drops the low two bits of TPC
(DEDUCED, log 53), and READY tells HANDOVER_SLOW where the pause has not been told yet (DEDUCED, log 54). -/
def Obligations.ZynReturnAndHandover : Prop :=
  ∀ (s : State) (x : Drn), s.Wf → s.executes x = true →
    let z := s.drnS x
    let st := s.reg (HIVE_DRN_STAT x)
    (z.keeper = true → Gives (.rtt x) s fun t =>
      let w := { z with pc := z.tpc.setWidth 16 &&& 0xFFFC#16, keeper := z.prev, tip := false }
      t.drnS x = (if z.nmi then Spec.nmi w else w) ∧ OnlyDrone s t x fun _ => DrnSt.init)
    ∧ (z.keeper = true → s.bit (HIVE_DRN_STAT x) HIVE_DRN_STAT_PENDING = true → Gives (.banksw x) s fun t =>
      let w := { z with pc := 8#16, pause := some z.cycle, slow := false, buildI := s.reg (HIVE_DRN_BUILD x) }
      t.drnS x = (if z.nmi then Spec.nmi w else w) ∧ (∀ y, y ≠ x.val → t.drnS y = s.drnS y)
        ∧ t.fld (HIVE_DRN_STAT x) HIVE_DRN_STAT_ACTIVE_BANK = 1 - getFld st HIVE_DRN_STAT_ACTIVE_BANK
        ∧ t.fld (HIVE_DRN_STAT x) HIVE_DRN_STAT_PENDING = 0 ∧ t.fld (HIVE_DRN_STAT x) HIVE_DRN_STAT_READY = 0
        ∧ t.drnHeld x = s.drnHeld x ∧ t.reg (HIVE_DRN_BUILD x) = z.buildI &&& impOf (HIVE_DRN_BUILD x)
        ∧ Only s t (fun a => a = HIVE_DRN_STAT x ∨ a = HIVE_DRN_BUILD x) (fun u => { u with drn := [] }))
    ∧ Gives (.ready x) s fun t => t.fld (HIVE_DRN_STAT x) HIVE_DRN_STAT_READY = 1
        ∧ t.drnS x = { z with pc := z.pc + 4#16, pause := none, slow := false } ∧ (∀ y, y ≠ x.val → t.drnS y = s.drnS y)
        ∧ z.pause.elim (t.reg (HIVE_DRN_HOV x) = s.reg (HIVE_DRN_HOV x) ∧ t.col = s.col) (fun c =>
            let us := (z.cycle - c).toNat / 1500
            t.fld (HIVE_DRN_HOV x) HIVE_DRN_HOV_PAUSE = min us 65535
              ∧ t.fld (HIVE_DRN_HOV x) HIVE_DRN_HOV_COUNT = (s.fld (HIVE_DRN_HOV x) HIVE_DRN_HOV_COUNT + 1) % 65536
              ∧ if z.slow = false ∧ 1500000 < (z.cycle - c).toNat then Told s t (0x600 + x) 0x21 0 (min us 65535) else t.col = s.col)
        ∧ Only s t (fun a => a = HIVE_DRN_STAT x ∨ a = HIVE_DRN_HOV x ∨ a = FC_STAT) (fun u => { u with drn := [], col := .init })

/-! Accesses of a drone to parameter space. -/

/-- Whether drone `x` may make an access to a parameter address: an aligned, listed word, and in worker mode one of its window or, for
a read, of a counter group that is open to it, and never the vault window (R385, R497). -/
def Spec.mayAccess (s : State) (x : Drn) (a : W) (wr : Bool) : Prop :=
  let z := s.drnS x
  a.toNat % 4 = 0 ∧ (a.toNat < 0x4000000 ∨ 0x40000000 ≤ a.toNat)
    ∧ (z.keeper = true ∨ (¬(0x3500000 ≤ a.toNat ∧ a.toNat < 0x3600000)
        ∧ ((z.pwinB.toNat ≤ a.toNat ∧ a.toNat + 4 ≤ z.pwinL.toNat) ∨ (wr = false ∧ s.groupOpen a.toNat = true))))
def Spec.space (a : W) : Space := if a.toNat < 0x4000000 then .bar0 else .bar2
/-- The address of EPL and EPS and of their long forms, with the length of the instruction. -/
def Spec.paramRead (s : State) : Instr → Option (Drn × GReg × W × BitVec 16)
  | .epl x d r k => some (x, d, s.gr x r + k.signExtend 32, 4)
  | .epla x d a => some (x, d, a, 8)
  | _ => none
def Spec.paramWrite (s : State) : Instr → Option (Drn × GReg × W × BitVec 16)
  | .eps x d r k => some (x, d, s.gr x r + k.signExtend 32, 4)
  | .epsa x d a => some (x, d, a, 8)
  | _ => none
/-- R385, R394: EPL and EPLA put into their register the word that a read of that address by the drone returns, with the read's
effect; EPS and EPSA have the effect of the drone's write of that address; a bad address traps (R402), with TIP 1 into TRAPPED. -/
def Obligations.ZynParameterSpace : Prop :=
  ∀ (s : State) (i : Instr), s.Wf →
    (∀ (x : Drn) (d : GReg) (a : W) (len : BitVec 16), Spec.paramRead s i = some (x, d, a, len) → Spec.fetches s x i → Spec.mayAccess s x a false → ∀ u : State,
      exec (.readClear (.drone x) (Spec.space a) a 0) s = .next u → ∀ v, u.out = [.read (.drone x) v] →
      Gives i s fun t => t.gr x d = (if d = 0 then 0#32 else v) ∧ (∀ r : GReg, r ≠ d → t.gr x r = u.gr x r)
        ∧ (t.drnS x).pc = (u.drnS x).pc + len ∧ OnlyDrone u t x Spec.gPc)
    ∧ (∀ (x : Drn) (d : GReg) (a : W) (len : BitVec 16), Spec.paramWrite s i = some (x, d, a, len) → Spec.fetches s x i → Spec.mayAccess s x a true →
      let w := { s with drn := Tab.set s.drn (fun _ => DrnSt.init) x { s.drnS x with pc := (s.drnS x).pc + len } }
      Gives i s fun t => exec (.registerWrite (.drone x) (Spec.space a) a 15#4 (s.gr x d) none) w = .next t)
    ∧ ∀ (wr : Bool) (x : Drn) (d : GReg) (a : W) (len : BitVec 16),
      (if wr then Spec.paramWrite s i else Spec.paramRead s i) = some (x, d, a, len) → Spec.fetches s x i → ¬Spec.mayAccess s x a wr →
      Gives i s fun t => Spec.trapped s t x (if a.toNat % 4 ≠ 0 then 3 else 4) a 0

/-! Accesses to registers and memories (00_scope.md, 09_harness_lanes.md R299, 19_register_map.md). -/

/-- The domain that serves a BAR0 address: engine n and harness h have their own, every other block has none (R504, R506). -/
def Spec.domain (a : Nat) : Option Nat :=
  if 0x1000000 ≤ a ∧ a < 0x2800000 then some ((a - 0x1000000) / 0x80000)
  else if 0x3000000 ≤ a ∧ a < 0x3400000 then some (48 + (a - 0x3000000) / 0x100000) else none
/-- The block of an address is served: its domain is in Run, Idle or Sleep, and the device is not off (R506). -/
def Spec.served (s : State) (a : Nat) : Prop := s.pwr.dead = false ∧ (Spec.domain a).elim True (fun d => s.domState d < 3)
/-- The party codes of REG_DARK_INFO (R507). -/
def Spec.party : Party → Nat
  | .host => 63
  | .drone d => d.val
  | .farrier => 62
  | .forager => 61

/-- Registers without behaviour of their own, one or more of each kind of block: address, RW bits and W1C bits. -/
def Spec.plainRegs (n : Eng) (h : Harn) (d : Fin 57) (i : Fin 128) : List (Nat × W × W) :=
  [(REG_STAT, 0, 3), (STW_ARG_ADDR, 0x1FFFFFF, 0), (STW_ARG_LEN, 0x1FFFFFF, 0), (SUP_CFG, 3, 0), (PWR_WAKE_SEL 2, 0xFFFFFFFF, 0),
   (FC_CFG, 0x1FFFF, 0), (TU_SRV_GAIN, 0xFFFFFFFF, 0), (TU_PTP_CTX i, 0xFFFFFFFF, 0), (LTT_ASYM n, 0xFFFFFFFF, 0),
   (TXQ_BASE h, 0xFFFFFFFF, 0), (CNT_WORKER_EN 1, 0xFFFFFFFF, 0), (ECC_CFG, 0xFF, 0), (ECC_STAT, 0, 1), (FAR_ARG, 0xFFFFFFC0, 0),
   (HIVE_MBX_CFG d, 1, 0), (FEC_ALARM n, 0xFFFF, 0), (ENG_SWAP_AT n, 0xFFFFFF, 0), (CONV_STAT n, 0, 3), (CAP_POST n, 0x1FFFFF, 0),
   (RX_TUNE_CFG n, 0xFFFFFFFF, 0), (GLO_HINT_TX n, 0x7F06, 0), (HRN_STAT h, 0, 3)]
/-- Counters that a read clears (RC), one or more of each kind of block. -/
def Spec.clearedRegs (n : Eng) (h : Harn) (r : Fin 154) (c : Fin 4096) : List Nat :=
  [SUP_SWITCH_CNT, PWR_ABORT_CNT, TU_DISCARD_CNT, RX_DISCARD_CNT h, CTX_LOST c, CE_CNT r, FEC_CW n,
   CONV_CLIP_CNT n 3, TX_CLIP_CNT n 0, RX_LOCK_LOSS_CNT n, GLO_SAT_CNT n]
/-- Low words whose read latches the word above for the reading party. -/
def Spec.latchedRegs (n : Eng) : List Nat :=
  [SUP_LAST_TS_LO, TU_PPS_IN_TS_LO, LTT_THETA_LO n, HST_SIG_LO, HST_EXP_SIG_LO, EST_SIG_LO n, EST_EXP_SIG_LO n, CAP_TSTAMP_LO n]

/-- R11, R394: a write loads the RW bits of a register and clears the W1C bits written with 1, and changes nothing else. A read returns
the register; an RC register is cleared and takes the event of its cycle; a read of a low word latches the word above for the reader and
for no other party. -/
def Obligations.RegisterAccesses : Prop :=
  ∀ (s : State) (p : Party) (v : W), s.Wf →
    (∀ (n : Eng) (h : Harn) (d : Fin 57) (i : Fin 128), ∀ e ∈ Spec.plainRegs n h d i, Spec.served s e.1 →
      (Gives (.registerWrite p .bar0 (BitVec.ofNat 32 e.1) 15#4 v none) s fun t =>
        t.reg e.1 = ((s.reg e.1 &&& ~~~e.2.1) ||| (v &&& e.2.1)) &&& ~~~(v &&& e.2.2) ∧ OnlyRegsOf s t fun a => a = e.1)
      ∧ Gives (.readClear p .bar0 (BitVec.ofNat 32 e.1) 0) s fun t => t = { s with out := [.read p (s.reg e.1)] })
    ∧ (∀ (n : Eng) (h : Harn) (r : Fin 154) (c : Fin 4096) (inc : Nat), ∀ a ∈ Spec.clearedRegs n h r c, Spec.served s a →
      Gives (.readClear p .bar0 (BitVec.ofNat 32 a) inc) s fun t => t.out = [.read p (s.reg a)]
        ∧ t.reg a = BitVec.ofNat 32 (min inc 0xFFFFFFFF) ∧ Only s t (fun b => b = a) id)
    ∧ ∀ n : Eng, ∀ a ∈ Spec.latchedRegs n, Spec.served s a →
      Gives (.readClear p .bar0 (BitVec.ofNat 32 a) 0) s fun t => t.out = [.read p (s.reg a)]
        ∧ (Gives (.readClear p .bar0 (BitVec.ofNat 32 (a + 4)) 0) t fun u => u.out = [.read p (s.reg (a + 4))])
        ∧ (∀ q b, q ≠ p → t.latched q b = s.latched q b) ∧ Only s t (fun _ => False) fun u => { u with latch := [] }
/-- R505: an aligned 4-byte access to an address that is assigned to no register completes normally: a read returns 0, a write is
discarded, no status bit is set and no fault is raised. EPL and EPS of such an address behave the same way and do not trap. -/
def Obligations.UnassignedAddresses : Prop :=
  ∀ (s : State) (p : Party) (a v : W), s.Wf → a.toNat < 0x4000000 → a.toNat % 4 = 0 → layout a.toNat = none →
    ¬(0x3500000 ≤ a.toNat ∧ a.toNat < 0x3600000) → Spec.served s a.toNat →
    (Gives (.registerWrite p .bar0 a 15#4 v none) s fun t => Unchanged s t)
    ∧ (∀ inc, Gives (.readClear p .bar0 a inc) s fun t => t = { s with out := [.read p 0#32] })
    ∧ ∀ (i : Instr) (x : Drn) (d : GReg) (len : BitVec 16), Spec.fetches s x i →
      (Spec.paramRead s i = some (x, d, a, len) → Spec.mayAccess s x a false → Gives i s fun t => Spec.writesReg s t x d 0#32 len)
      ∧ (Spec.paramWrite s i = some (x, d, a, len) → Spec.mayAccess s x a true →
        Gives i s fun t => (t.drnS x).pc = (s.drnS x).pc + len ∧ OnlyDrone s t x Spec.pc)

/-- What a dark access leaves: nothing but its record (R506, R507). -/
def Spec.dark (s t : State) (p : Party) (bar2 : Bool) (a : W) (wr : Bool) (d : Nat) : Prop :=
  t.bit REG_STAT (if wr then REG_STAT_DARK_WRITE else REG_STAT_DARK_READ) = true
    ∧ t.bit REG_STAT (if wr then REG_STAT_DARK_READ else REG_STAT_DARK_WRITE) = s.bit REG_STAT (if wr then REG_STAT_DARK_READ else REG_STAT_DARK_WRITE)
    ∧ t.reg REG_DARK_ADDR = a
    ∧ t.reg REG_DARK_INFO = BitVec.ofNat 32 (Spec.party p * 1024 + wr.toNat * 512 + bar2.toNat * 256 + d)
    ∧ t.out = (if wr then [] else [.read p 0#32])
    ∧ Only s t (fun b => b = REG_STAT ∨ b = REG_DARK_ADDR ∨ b = REG_DARK_INFO) id
/-- R506, R507, R299: an access to a block or window whose domain is dark is recorded, reads 0 and writes nothing; a BAR0 access that
is no aligned 4-byte access completes as Unsupported Request with no effect. -/
def Obligations.DarkAndUnalignedAccesses : Prop :=
  ∀ (s : State) (p : Party) (a v : W), s.Wf → s.pwr.dead = false →
    (∀ d, Spec.domain a.toNat = some d → 3 ≤ s.domState d →
      (∀ wr, a.toNat % 4 = 0 → Gives (.darkAccess p .bar0 a wr) s fun t => Spec.dark s t p false a wr d)
      ∧ (∀ wr, a.toNat % 4 ≠ 0 → Gives (.darkAccess p .bar0 a wr) s fun t => t = { s with out := [.unsupported] })
      ∧ (a.toNat % 4 = 0 → (Gives (.registerWrite p .bar0 a 15#4 v none) s fun t => Spec.dark s t p false a true d)
        ∧ Gives (.readClear p .bar0 a 0) s fun t => Spec.dark s t p false a false d))
    ∧ (∀ (n : Eng) (o : BitVec 22) (cap : Bool), 3 ≤ s.domState n → (s.stS n).run = none → o.toNat % 4 = 0 →
      let b : W := BitVec.ofNat 32 ((if cap then 0xC0000000 else 0x40000000) + n * 0x400000 + o.toNat)
      (∀ wr, Gives (.darkAccess p .bar2 b wr) s fun t => Spec.dark s t p true b wr n)
        ∧ (∀ be, Gives (.registerWrite p .bar2 b be v none) s fun t => Spec.dark s t p true b true n)
        ∧ Gives (.readClear p .bar2 b 0) s fun t => Spec.dark s t p true b false n)
    ∧ (∀ be up, a.toNat % 4 ≠ 0 ∨ be ≠ 15#4 ∨ up ≠ none →
      Gives (.registerWrite p .bar0 a be v up) s fun t => t = { s with out := [.unsupported] })
    ∧ (∀ inc, a.toNat % 4 ≠ 0 → Gives (.readClear p .bar0 a inc) s fun t => t = { s with out := [.unsupported] })
    ∧ ∀ len wr, a.toNat % 4 ≠ 0 ∨ len ≠ 4 → Gives (.bar0UnalignedAccess a len wr) s fun t => t = { s with out := [.unsupported] }

/-- The registers of the memory-integrity block, which learn of every write of a protected word (R410, R413, R418, R419). -/
def Spec.integrity (a : Nat) : Prop := 0x400000 ≤ a ∧ a < 0x500000
/-- What a write of 4 bytes under byte enables, or of 8 when there is an upper word, leaves at key `k` of a memory. -/
def Spec.enables (s t : State) (k : Nat) (be : BitVec 4) (v : W) (up : Option W) : Prop :=
  (∀ i : Fin 4, t.byte (k + i) = if be.getLsbD i then v.extractLsb' (8 * i.val) 8 else s.byte (k + i))
    ∧ (∀ u, up = some u → ∀ i : Fin 4, t.byte (k + 4 + i) = u.extractLsb' (8 * i.val) 8)
    ∧ BytesBut s t (fun j => k ≤ j ∧ j < k + if up.isSome then 8 else 4)
/-- R299, R348, R351, R512: BAR2 writes reach comb and capture memory under any byte enables; a coefficient word is written whole or
not at all; the space between the windows reads 0 and keeps nothing. -/
def Obligations.MemoryWindowAccesses : Prop :=
  ∀ (s : State) (p : Party) (v : W) (be : BitVec 4) (up : Option W), s.Wf → s.pwr.dead = false →
    (∀ a : BitVec 25, a.toNat % 8 = 0 → s.combHeld a.toNat 8 = false →
      Gives (.registerWrite p .bar2 (a.setWidth 32) be v up) s fun t => Spec.enables s t a.toNat be v up
        ∧ Only s t Spec.integrity fun u => { u with mem := [], poison := [], ecc := .init })
    ∧ (∀ a : BitVec 25, a.toNat % 4 = 0 → Spec.clean s a.toNat →
      Gives (.readClear p .bar2 (a.setWidth 32) 0) s fun t => t = { s with out := [.read p (s.word a.toNat)] })
    ∧ (∀ (n : Eng) (o : BitVec 22), s.domState n < 3 → (s.stS n).run = none → o.toNat % 8 = 0 →
      Gives (.registerWrite p .bar2 (BitVec.ofNat 32 (0xC0000000 + n * 0x400000 + o.toNat)) be v up) s fun t =>
        Spec.enables s t (0x20000000 + n * 0x400000 + o.toNat) be v up
        ∧ Only s t Spec.integrity fun u => { u with mem := [], poison := [], ecc := .init, eng := [] })
    ∧ (∀ (n : Eng) (o : BitVec 22), s.domState n < 3 → (s.stS n).run = none → be ≠ 15#4 →
      Gives (.registerWrite p .bar2 (BitVec.ofNat 32 (0x40000000 + n * 0x400000 + o.toNat)) be v none) s fun t => Unchanged s t)
    ∧ ∀ a : W, (0x2000000 ≤ a.toNat ∧ a.toNat < 0x40000000) ∨ (0x4C000000 ≤ a.toNat ∧ a.toNat < 0xC0000000) ∨ 0xCC000000 ≤ a.toNat →
      (Gives (.registerWrite p .bar2 a be v none) s fun t => Unchanged s t)
        ∧ Gives (.readClear p .bar2 a 0) s fun t => t = { s with out := [.read p 0#32] }

/-! Swaps (01_one_fibre_pair.md R20–R31, R542; 13 R397). -/

/-- The blocks with a part on the transmit side, and on the receive side (R25). -/
def Spec.txBlocks : List Nat := [0, 2, 4, 6, 8, 10, 11, 13]
def Spec.rxBlocks : List Nat := [1, 3, 5, 7, 9, 10, 12, 14]
/-- The blocks that a BLOCKS field names, in the order of its bits. -/
def Spec.named (w : BitVec 15) : List Nat := (List.range 15).filter fun b => w.getLsbD b
/-- The shadow words of a block with the bits that belong to it (R513, R514); the CD responses are in memory. -/
def Spec.shadowWords (n : Eng) : Nat → List (Nat × W)
  | 0 => [(GAIT_SEL n, 0xF#32)]
  | 1 => [(GAIT_SEL n, 0xF0#32)]
  | 2 => ([TX_MODE n, TX_CD_OVL n] ++ (List.range 4).flatMap (fun c => [TX_GAIN n c, TX_DELAY n c]
      ++ (List.range 9).map (TX_PREEMPH n c) ++ (List.range 34).map (TX_SLICE_CORR n c))).map fun a => (a, 0xFFFFFFFF#32)
  | 3 => [RX_MODE n, RX_CD_OVL n, RX_CD_D n, RX_CD_LAMBDA n, RX_EQ_CFG n, RX_PR_CFG n, RX_LLR_CFG n, RX_IQ n 0, RX_IQ n 1].map
      fun a => (a, 0xFFFFFFFF#32)
  | 6 => (GLO_SEL n, 0x7F0F#32) :: (List.range 4).map fun j => (GLO_ALIGN n 0 j, 0xFFFFFFFF#32)
  | 7 => (GLO_SEL n, 0x7F0F0000#32) :: (List.range 4).map fun j => (GLO_ALIGN n 1 j, 0xFFFFFFFF#32)
  | 8 => [(STRIP_MAP n, 0x800F#32)]
  | 9 => [(STRIP_MAP n, 0x800F0000#32)]
  | 10 => ((List.range 4).flatMap fun a => [CONV_ADC_MAP n a, CONV_DAC_MAP n a, CONV_ADC_CORR n a]
      ++ (List.range 64).map (CONV_SLICE_CORR n a)).map fun a => (a, 0xFFFFFFFF#32)
  | 11 => [(POOL_ENC n, 0xFFFFFFFF#32)]
  | 12 => [(POOL_DEC n, 0xFFFFFFFF#32)]
  | 13 => (List.range 320).map fun i => (CAL_IN n i, 0xFFFFFFFF#32)
  | 14 => (List.range 320).map fun i => (CAL_OUT n i, 0xFFFFFFFF#32)
  | _ => []
/-- The active copy of a shadow word of a block (R515). -/
def Spec.active (b a : Nat) : Nat := if b = 13 ∨ b = 14 then a + 0x30000 else a + 0x4000
/-- The two copies of a block have changed places (R21). -/
def Spec.exchanged (s t : State) (n : Eng) (b : Nat) : Prop :=
  (∀ e ∈ Spec.shadowWords n b, t.reg e.1 &&& e.2 = s.reg (Spec.active b e.1) &&& e.2
      ∧ t.reg (Spec.active b e.1) &&& e.2 = s.reg e.1 &&& e.2)
    ∧ (b = 4 → (t.engS n).cdTx = !(s.engS n).cdTx) ∧ (b = 5 → (t.engS n).cdRx = !(s.engS n).cdRx)

/-- The outcome of a request (R542, R397): 0 accepted, 1 CLASH, 2 LATE, 3 IMMED, 4 WHEN; the first step that fails decides. -/
def Spec.judge (s : State) (n : Eng) (wh : Nat) (blks : List Nat) (at_ : BitVec 24) : Nat :=
  let tx := blks.any fun b => Spec.txBlocks.contains b
  let rx := blks.any fun b => Spec.rxBlocks.contains b
  let far := fun cur : BitVec 24 => !(decide (2 ≤ (at_ - cur).toNat) && decide ((at_ - cur).toNat < 2 ^ 23))
  let st := s.fld (RX_STAT n) RX_STAT_STATE
  if wh = 3 then 4
  else if blks.any fun b => s.pendBlk n b then 1
  else if wh = 1 ∧ ((tx ∧ ((s.engS n).tx = .off ∨ far (BitVec.ofNat 24 (s.fld (ENG_SF_TX n) ENG_SF_TX_SN))))
      ∨ (rx ∧ far (BitVec.ofNat 24 (s.fld (ENG_SF_RX n) ENG_SF_RX_COUNT)))) then 2
  else if wh = 2 ∧ ((tx ∧ (s.engS n).tx ≠ .off) ∨ (rx ∧ 2 ≤ st ∧ st ≤ 7)) then 3
  else if (s.contentBad n blks (if wh = 1 then .named at_ else .next) (wh == 2) (wh == 1 && Nat.ble 16 (s.lead n false at_))).isEmpty
      ∧ s.testBlocks n blks = false then 0 else 1
/-- The content checks that a request fails, as the status bits they set (R542 step 4). -/
def Spec.failed (s : State) (n : Eng) (wh : Nat) (blks : List Nat) (at_ : BitVec 24) : List (Nat × Fld) :=
  if blks.any fun b => s.pendBlk n b then []
  else s.contentBad n blks (if wh = 1 then .named at_ else .next) (wh == 2) (wh == 1 && Nat.ble 16 (s.lead n false at_))
/-- The parts of the blocks that become pending, transmit side first. -/
def Spec.parts (blks : List Nat) (due : Due) : List PendSwap :=
  blks.flatMap fun b => (if Spec.txBlocks.contains b then [PendSwap.mk b false due false] else [])
    ++ (if Spec.rxBlocks.contains b then [PendSwap.mk b true due false] else [])
def Spec.noSwaps (e : EngSt) : EngSt := { e with swaps := [] }
/-- What a request leaves in the engine, by its outcome (R21, R25–R29, R31, R542). -/
def Spec.requested (s t : State) (n : Eng) (wh : Nat) (blks : List Nat) (at_ : BitVec 24) : Prop :=
  let r := Spec.judge s n wh blks at_
  if r ≠ 0 then
    t.reg (ENG_SWAP_STAT n) = s.reg (ENG_SWAP_STAT n) ||| (1#32 <<< (r - 1)) ∧ t.engS n = s.engS n
      ∧ (r = 1 → ∀ f ∈ Spec.failed s n wh blks at_, t.bit f.1 f.2 = true)
      ∧ RegsBut s t (fun a => a = ENG_SWAP_STAT n ∨ (r = 1 ∧ a ∈ (Spec.failed s n wh blks at_).map Prod.fst))
  else if wh = 2 then
    (∀ b ∈ blks, Spec.exchanged s t n b) ∧ (t.engS n).swaps = (s.engS n).swaps
      ∧ t.fld (ENG_SWAP_STAT n) ENG_SWAP_STAT_DONE_CNT
        = (s.fld (ENG_SWAP_STAT n) ENG_SWAP_STAT_DONE_CNT + if blks = [] then 0 else 1) % 65536
      ∧ (blks ≠ [] → (t.drnS n).evpend.getLsbD 9 = true)
  else (t.engS n).swaps = (s.engS n).swaps ++ Spec.parts blks (if wh = 1 then .named at_ else .next)
    ∧ (∀ b : Fin 15, (t.reg (ENG_SWAP_PEND n)).getLsbD b = (s.pendBlk n b || blks.contains b.val))
    ∧ UnitBut State.engS s t n Spec.noSwaps ∧ RegsBut s t (fun a => a = ENG_SWAP_PEND n)
/-- The registers that a swap may write: those of engine `n`, of its shares and assignments, of the decoder pool, and FC_STAT. -/
def Spec.swapRegs (n : Eng) (a : Nat) : Prop :=
  (0x1000000 + 0x80000 * n.val ≤ a ∧ a < 0x1080000 + 0x80000 * n.val) ∨ (0x600000 ≤ a ∧ a < 0x602000) ∨ (0x605000 ≤ a ∧ a < 0x606000)
    ∨ (0x700000 ≤ a ∧ a < 0x800000) ∨ (0x401000 ≤ a ∧ a < 0x408000) ∨ a = FC_STAT
/-- The rows of a request, by WHEN. -/
def Spec.swapRow (wh : Fin 4) (p : Party) (n : Eng) (blocks : BitVec 15) : Instr :=
  if wh = 0 then .swapNextBoundary p n blocks else if wh = 1 then .swapNamedBoundary p n blocks
  else if wh = 2 then .swapImmediate p n blocks else .swapWhenReserved p n blocks
/-- R25–R29, R31, R542: a swap request of the host or a drone is judged and becomes pending, takes effect at once, or is refused. Three points of
the judgement are the model's (log 26): a named transmit request before the first sample is judged against ENG_SF_TX (DESIGN CHOICE), reserved
blocks show as pending, and POOL_FULL leaves out the engine's own outgoing units (DEDUCED). -/
def Obligations.SwapRequests : Prop :=
  ∀ (s : State) (wh : Fin 4) (p : Party) (n : Eng) (blocks : BitVec 15), s.Wf → Spec.served s (ENG_SWAP_REQ n) →
    Gives (Spec.swapRow wh p n blocks) s fun t =>
      Spec.requested s t n wh (Spec.named blocks) (BitVec.ofNat 24 (s.fld (ENG_SWAP_AT n) ENG_SWAP_AT_SF))
      ∧ Only s t (Spec.swapRegs n) fun u => { u with eng := [], drn := [], col := .init, st := [], ctx := [] }

/-- The engine that a SWAP instruction names (R397). -/
def Spec.swapEng (x : Drn) (own : Bool) (e : BitVec 6) : Option Eng :=
  if own then (if h : x.val < 48 then some ⟨x.val, h⟩ else none) else (if h : e.toNat < 48 then some ⟨e.toNat, h⟩ else none)
/-- R397: SWAP makes its request of the engine named and returns the outcome, DENIED where it may not ask, and 0 for no blocks. The outcome is
judged as in SwapRequests, with the choices of log 26. -/
def Obligations.ZynSwap : Prop :=
  ∀ (s : State) (x : Drn) (d r u : GReg) (wh : BitVec 2) (own : Bool) (e : BitVec 6), s.Wf → s.executes x = true →
    let blks := Spec.named ((s.gr x r).setWidth 15)
    let at_ := (s.gr x u).setWidth 24
    let may := (own = true ∨ (s.drnS x).keeper = true)
    (∀ n : Eng, Spec.swapEng x own e = some n → may → blks ≠ [] → s.served n = true →
      Gives (.swap x d r u wh own e) s fun t =>
        t.gr x d = (if d = 0 then 0#32 else BitVec.ofNat 32 (Spec.judge s n wh.toNat blks at_))
        ∧ (∀ k : GReg, k ≠ d → t.gr x k = s.gr x k) ∧ (t.drnS x).pc = (s.drnS x).pc + 4#16
        ∧ Spec.requested s t n wh.toNat blks at_
        ∧ Only s t (Spec.swapRegs n) fun u => { u with eng := [], drn := [], col := .init, st := [], ctx := [] })
    ∧ ((Spec.swapEng x own e = none ∨ ¬may) → Gives (.swap x d r u wh own e) s fun t => Spec.writesReg s t x d 5#32 4)
    ∧ ((Spec.swapEng x own e).isSome → may → blks = [] → Gives (.swap x d r u wh own e) s fun t => Spec.writesReg s t x d 0#32 4)

/-! Gait table, transmitter and boundaries (01 R20–R31, R38–R41; 02 R54–R56; 04 R126, R137; 05 R142). -/

/-- A gait entry is protected from a write of word `w` (R55): an open negotiation names it, a valid entry is selected in some copy,
or word 0 would make an entry valid that carries traffic. -/
abbrev Spec.gaitProtected (s : State) (n : Eng) (i : Fin 16) (w : Fin 4) (v : W) : Prop :=
  ((((s.engS n).prop.st = 1 ∨ (s.engS n).prop.st = 2) ∧ (s.engS n).prop.idx.toNat = i) ∨
    ((s.negRxState n = 2 ∨ s.negRxState n = 3) ∧ s.fld (NEG_RX_PROP n) NEG_RX_PROP_INDEX = i)
    ∨ (s.bit (GAIT_W0 n i) GAIT_W0_VALID = true ∧ (s.fld (GAIT_SEL n) GAIT_SEL_TX_IDX = i ∨ s.fld (GAIT_SEL n) GAIT_SEL_RX_IDX = i
      ∨ s.fld (GAIT_SEL n + 0x4000) GAIT_SEL_TX_IDX = i ∨ s.fld (GAIT_SEL n + 0x4000) GAIT_SEL_RX_IDX = i)))
    ∨ (w = 0 ∧ v.getLsbD 31 = true ∧ ((s.fld (GAIT_SEL n + 0x4000) GAIT_SEL_TX_IDX = i ∧ (s.engS n).tx ≠ .off)
      ∨ (s.fld (GAIT_SEL n + 0x4000) GAIT_SEL_RX_IDX = i ∧ 2 ≤ s.rxState n ∧ s.rxState n ≤ 7)))
/-- R54–R56: writes of gait entries and of the gait selection. That a GAIT_SEL write refused for an entry that is not VALID sets SEL_INVALID and
nothing else is the model's reading (DEDUCED, log 64). -/
def Obligations.GaitTable : Prop :=
  ∀ (s : State) (p : Party) (n : Eng) (v : W), s.Wf → Spec.served s (GAIT_W0 n 0) →
    (∀ (i : Fin 16) (w : Fin 4), Gives (.gaitEntryWrite p n i w v) s fun t =>
      let bad := (gaitOf v (s.reg (GAIT_W1 n i)) (s.reg (GAIT_W2 n i))).bad
      if Spec.gaitProtected s n i w v then
        t.reg (GAIT_STAT n) = setFld (s.reg (GAIT_STAT n)) GAIT_STAT_WRITE_ACTIVE 1 ∧ OnlyRegsOf s t fun a => a = GAIT_STAT n
      else if w = 0 ∧ v.getLsbD 31 = true ∧ bad ≠ 0 then
        t.reg (GAIT_W0 n i) = setFld v GAIT_W0_VALID 0 &&& impOf (GAIT_W0 n i)
          ∧ t.reg (GAIT_STAT n) = setFld (setFld (s.reg (GAIT_STAT n)) GAIT_STAT_BAD_ENTRY 1) GAIT_STAT_BAD_REASON bad
          ∧ OnlyRegsOf s t fun a => a = GAIT_W0 n i ∨ a = GAIT_STAT n
      else if w = 0 then t.reg (GAIT_W0 n i) = v &&& impOf (GAIT_W0 n i) ∧ OnlyRegsOf s t fun a => a = GAIT_W0 n i
      else t.reg (GAIT_W0 n i) = setFld (s.reg (GAIT_W0 n i)) GAIT_W0_VALID 0
        ∧ (w = 1 → t.reg (GAIT_W1 n i) = v &&& impOf (GAIT_W1 n i)) ∧ (w = 2 → t.reg (GAIT_W2 n i) = v &&& impOf (GAIT_W2 n i))
        ∧ OnlyRegsOf s t fun a => a = GAIT_W0 n i ∨ (w = 1 ∧ a = GAIT_W1 n i) ∨ (w = 2 ∧ a = GAIT_W2 n i))
    ∧ Gives (.gaitSelWrite p n v) s fun t =>
      let keep := (if s.pendBlk n 0 then 0xF#32 else 0#32) ||| (if s.pendBlk n 1 then 0xF0#32 else 0#32)
      if (s.pendBlk n 0 = false ∧ s.bit (GAIT_W0 n (getFld v GAIT_SEL_TX_IDX)) GAIT_W0_VALID = false)
          ∨ (s.pendBlk n 1 = false ∧ s.bit (GAIT_W0 n (getFld v GAIT_SEL_RX_IDX)) GAIT_W0_VALID = false) then
        t.reg (GAIT_STAT n) = setFld (s.reg (GAIT_STAT n)) GAIT_STAT_SEL_INVALID 1 ∧ OnlyRegsOf s t fun a => a = GAIT_STAT n
      else t.reg (GAIT_SEL n) = (s.reg (GAIT_SEL n) &&& keep) ||| (v &&& 0xFF#32 &&& ~~~keep)
        ∧ (keep ≠ 0 → t.bit (ENG_SWAP_STAT n) ENG_SWAP_STAT_WRITE_BLOCKED = true)
        ∧ OnlyRegsOf s t fun a => a = GAIT_SEL n ∨ (keep ≠ 0 ∧ a = ENG_SWAP_STAT n)

/-- The swaps of a side that are due at boundary `cnt` (R20, R27). -/
def Spec.due (s : State) (n : Eng) (rx : Bool) (cnt : BitVec 24) : List PendSwap :=
  (s.engS n).swaps.filter fun p => p.rx == rx && (p.due == .next || p.due == .named cnt)
/-- The shadow words of a block on one side; TX_MODE, TX_DELAY and RX_MODE are left to R124 and R176. -/
def Spec.sideWords (n : Eng) (rx : Bool) (b : Nat) : List (Nat × W) :=
  if (if rx then Spec.rxBlocks else Spec.txBlocks).contains b then
    (Spec.shadowWords n b).filter fun e => e.1 != TX_MODE n && e.1 != RX_MODE n && !((List.range 4).any fun c => e.1 == TX_DELAY n c)
      && (b != 10 || rx != (List.range 4).any fun a => e.1 == CONV_DAC_MAP n a)
  else []
/-- A failed repair of block `b` of engine `n` waits to restore the shadow copy (R421). -/
def Spec.restores (s : State) (n : Eng) (b : Nat) : Prop :=
  ∃ j o, s.ecc.job = some j ∧ j.stage = .restore o ∧ s.farEng j.req = n.val ∧ j.req.blk = b
/-- The swaps of a boundary (R20–R24): each due block's copies change places, no other block's do, and they count as one. The farrier may
then write the shadow copy of a block whose repair has failed as the active copy (R421). -/
def Spec.swapped (s t : State) (n : Eng) (rx : Bool) (cnt : BitVec 24) : Prop :=
  let due := Spec.due s n rx cnt
  let shadow := fun (b : Nat) (e : Nat × W) (v : W) =>
    t.reg e.1 &&& e.2 = v ∨ (Spec.restores s n b ∧ t.reg e.1 &&& e.2 = t.reg (Spec.active b e.1) &&& e.2)
  (∀ b : Fin 15, (due.filter fun p => p.blk == b.val).length = 1 → ∀ e ∈ Spec.sideWords n rx b,
      shadow b e (s.reg (Spec.active b e.1) &&& e.2) ∧ t.reg (Spec.active b e.1) &&& e.2 = s.reg e.1 &&& e.2)
    ∧ (∀ b : Fin 15, due.filter (fun p => p.blk == b.val) = [] → ∀ e ∈ Spec.sideWords n rx b,
      shadow b e (s.reg e.1 &&& e.2) ∧ t.reg (Spec.active b e.1) &&& e.2 = s.reg (Spec.active b e.1) &&& e.2)
    ∧ t.fld (ENG_SWAP_STAT n) ENG_SWAP_STAT_DONE_CNT
      = (s.fld (ENG_SWAP_STAT n) ENG_SWAP_STAT_DONE_CNT + if due = [] then 0 else 1) % 65536
    ∧ (due ≠ [] → (t.drnS n).evpend.getLsbD 9 = true)
/-- What a boundary of engine `n` leaves alone: memory among it. Reads and writes of client blocks reach the memory-integrity block, and on
receive what a lane in a test loop is sent reaches its port. -/
def Spec.boundaryFrame (s t : State) (n : Eng) (rx : Bool) : Prop :=
  Only s t (fun a => Spec.swapRegs n a ∨ Spec.integrity a ∨ (0x602000 + 0x40 * n.val ≤ a ∧ a < 0x602040 + 0x40 * n.val)
      ∨ (rx = true ∧ 0x3000000 ≤ a)) (fun u => { u with
    eng := [], drn := [], ctx := [], lane := [], col := .init, st := [], cnt := .init, ecc := .init, poison := [], fresh := 0 })
  ∧ (∀ m, m ≠ n.val → t.engS m = s.engS m) ∧ ∀ d, { t.drnS d with evpend := 0#16 } = { s.drnS d with evpend := 0#16 }
/-- The overhead frames that engine `n` sends. -/
def Spec.frames (t : State) (n : Eng) : List (List Byte) :=
  t.out.filterMap fun o => match o with | .overhead m f => if m = n.val then some f else none | _ => none
/-- The state after the datapath words that a command brings with it (R81). -/
def Spec.sampled (s : State) (n : Eng) (ws : List CapWord) : State := (Op.adcIn n ws).run s.quiet
/-- What the pads send is 81,920 codes of each converter for a superframe, each in the range of the DAC (R136). -/
def Spec.padCodes (t : State) (n : Eng) : Prop :=
  ∀ m sn codes, Output.pads m sn codes ∈ t.out →
    m = n.val ∧ codes.length = 4 ∧ ∀ l ∈ codes, l.length = 81920 ∧ ∀ v ∈ l, -128 ≤ v ∧ v ≤ 127
/-- A transmit boundary (R20, R23, R38, R41, R58–R61, R68, R136, R479): the superframe number, the swaps, the epoch, the proposer, the frame
of a multiframe, which is on the line unless the pads are held, and codes at the pads. -/
def Spec.txBoundary (s t : State) (n : Eng) : Prop :=
  let cnt := BitVec.ofNat 24 (s.fld (ENG_SF_TX n) ENG_SF_TX_SN) + 1#24
  let gait := (Spec.due s n false cnt).any fun p => p.blk == 0
  t.fld (ENG_SF_TX n) ENG_SF_TX_SN = cnt.toNat
    ∧ (t.engS n).swaps = (s.engS n).swaps.filter (fun p => p.rx || !(p.due == .next || p.due == .named cnt))
    ∧ Spec.swapped s t n false cnt
    ∧ t.bit (GAIT_STAT n) GAIT_STAT_EPOCH_TX = (s.bit (GAIT_STAT n) GAIT_STAT_EPOCH_TX != gait)
    ∧ ((s.engS n).prop.st = 2 → (s.engS n).prop.s = cnt → t.fld (NEG_TX_STAT n) NEG_TX_STAT_STATE = 3
      ∧ (t.engS n).prop.st = 3 ∧ (t.drnS n).evpend.getLsbD 7 = true)
    ∧ (cnt.toNat % 8 = 0 → (s.engS n).hold = false → s.bit (PWR_DOM (domEng n)) PWR_DOM_PAD_HOLD = false → Spec.frames t n ≠ [])
    ∧ (∀ f ∈ Spec.frames t n, cnt.toNat % 8 = 0 ∧ s.bit (PWR_DOM (domEng n)) PWR_DOM_PAD_HOLD = false ∧ f.length = 256 ∧ f.take 5 = [1#8,
        if t.bit (GAIT_STAT n) GAIT_STAT_EPOCH_TX then 1#8 else 0#8] ++ beBytes 3 cnt.toNat
      ∧ f.drop 254 = beBytes 2 (crc16 (f.take 254)))
    ∧ Spec.padCodes t n ∧ Spec.boundaryFrame s t n false

/-- The transmit side ends (R30, R67, R126): its pending swaps are cancelled and an open negotiation is abandoned with TX_OFF. -/
def Spec.txEnds (s t : State) (n : Eng) : Prop :=
  let open_ : Prop := (s.engS n).prop.st = 1 ∨ (s.engS n).prop.st = 2
  (t.engS n).swaps = (s.engS n).swaps.filter (fun p => p.rx)
    ∧ ((s.engS n).swaps.any (fun p => !p.rx) → t.bit (ENG_SWAP_STAT n) ENG_SWAP_STAT_CANCELLED = true
      ∧ (t.drnS n).evpend.getLsbD 9 = true)
    ∧ (open_ → (t.engS n).prop.st = 5 ∧ (t.engS n).prop.blocks = []
      ∧ t.fld (NEG_TX_STAT n) NEG_TX_STAT_STATE = 5 ∧ t.fld (NEG_TX_STAT n) NEG_TX_STAT_REASON = 0x12
      ∧ (t.drnS n).evpend.getLsbD 7 = true)
    ∧ (¬open_ → t.reg (NEG_TX_STAT n) = s.reg (NEG_TX_STAT n)) ∧ (t.engS n).prop.abandon = none
    ∧ UnitBut State.drnS s t n (fun e => { e with evpend := 0#16 })
/-- R126, R137: TX_CTL.EN, the first and the last sample at the pads, and saturation of a DAC. An abandoned negotiation keeps its fields as
logs 48 and 49 have them (DEDUCED). -/
def Obligations.TransmitterSwitching : Prop :=
  ∀ (s : State) (p : Party) (n : Eng) (v : W) (read : Nat) (o : TxSide), s.Wf →
    let e := s.engS n
    let en := s.bit (TX_CTL n) TX_CTL_EN
    (Spec.served s (TX_CTL n) →
      (en = false → s.inRun n = true → s.bit (GAIT_W0 n (s.txAct n)) GAIT_W0_VALID = true → s.txcBad n 0x4000 = false →
        s.bit (TX_STAT n) TX_STAT_ON = false → e.tx = .off → Gives (.txEnable p n v) s fun t =>
          t.reg (TX_CTL n) = setFld (s.reg (TX_CTL n)) TX_CTL_EN 1 ∧ (t.engS n).tx = .starting ∧ (t.engS n).runSn = 0#24
          ∧ UnitBut State.engS s t n (fun x => { x with tx := .off, runSn := 0, dealTx := ⟨0, 0⟩ })
          ∧ Only s t (fun a => a = TX_CTL n) fun u => { u with eng := [] })
      ∧ (en = false → (s.inRun n = false ∨ s.bit (GAIT_W0 n (s.txAct n)) GAIT_W0_VALID = false ∨ s.txcBad n 0x4000 = true
          ∨ s.bit (TX_STAT n) TX_STAT_ON = true ∨ e.tx ≠ .off) → Gives (.txEnable p n v) s fun t =>
            t.reg (TX_STAT n) = setFld (s.reg (TX_STAT n)) TX_STAT_ON_REFUSED 1 ∧ OnlyRegsOf s t fun a => a = TX_STAT n)
      ∧ (en = true → Gives (.txEnable p n v) s fun t => Unchanged s t)
      ∧ (en = true → Gives (.txDisable p n v read) s fun t => t.reg (TX_CTL n) = setFld (s.reg (TX_CTL n)) TX_CTL_EN 0
          ∧ (t.engS n).tx = (if s.bit (TX_STAT n) TX_STAT_ON then .stopping else .off) ∧ Spec.txEnds s t n
          ∧ UnitBut State.engS s t n (fun x => { x with
            tx := .off, swaps := [], prop := .init, occTx := false, dealTx := ⟨0, 0⟩, fill := 0, sfs := [] })
          ∧ Only s t (fun a => a ∈ [TX_CTL n, ENG_SWAP_PEND n, ENG_SWAP_STAT n, NEG_TX_STAT n, GLO_STAT n, GLO_SAT_CNT n, FC_STAT]
              ∨ Spec.integrity a ∨ ∃ c : Fin 4096, a = CTX_ERRORED c ∨ a = CTX_STAT c) fun u => { u with
                eng := [], drn := [], ctx := [], cnt := .init, col := .init, ecc := .init, poison := [] })
      ∧ (en = false → Gives (.txDisable p n v read) s fun t => Unchanged s t))
    ∧ (e.tx = .starting → Gives (.txOn n o) s fun t => (t.engS n).tx = .on ∧ t.bit (TX_STAT n) TX_STAT_ON = true
        ∧ t.fld (ENG_SF_TX n) ENG_SF_TX_SN = 0 ∧ t.bit (GAIT_STAT n) GAIT_STAT_EPOCH_TX = (Spec.due s n false 0).any (fun p => p.blk == 0)
        ∧ (t.engS n).swaps = (s.engS n).swaps.filter (fun p => p.rx || !(p.due == .next || p.due == .named 0))
        ∧ Spec.swapped s t n false 0
        ∧ (e.hold = false → s.bit (PWR_DOM (domEng n)) PWR_DOM_PAD_HOLD = false → Spec.frames t n ≠ []) ∧ Spec.boundaryFrame s t n false)
    ∧ (e.tx ≠ .starting → Gives (.txOn n o) s fun t => Unchanged s t)
    ∧ (e.tx = .stopping → Gives (.txOffComplete n) s fun t => (t.engS n).tx = .off ∧ t.bit (TX_STAT n) TX_STAT_ON = false
        ∧ Spec.txEnds s t n ∧ Spec.padCodes t n ∧ Output.dark n ∈ t.out ∧ Spec.boundaryFrame s t n false)
    ∧ (e.tx ≠ .stopping → Gives (.txOffComplete n) s fun t => Unchanged s t)
    ∧ ∀ c : Fin 4, let live : Fld := ⟨8 + c, 8 + c⟩
      let sticky : Fld := ⟨4 + c, 4 + c⟩
      (s.bit (TX_STAT n) TX_STAT_ON = true → Gives (.dacSaturation n c) s fun t =>
        t.reg (TX_STAT n) = setFld (setFld (s.reg (TX_STAT n)) sticky 1) live 1
        ∧ t.reg (TX_CLIP_CNT n c) = BitVec.ofNat 32 (min ((s.reg (TX_CLIP_CNT n c)).toNat + if e.txClip.getLsbD c then 0 else 1) 0xFFFFFFFF)
        ∧ (t.engS n).txClip = e.txClip ||| (1#4 <<< c.val)
        ∧ (s.bit (TX_STAT n) sticky = false → Begun s t (0x104 + 16 * n + c) 3 0 0)
        ∧ (s.bit (TX_STAT n) sticky = true → t.col = s.col)
        ∧ UnitBut State.engS s t n (fun x => { x with txClip := 0 })
        ∧ Only s t (fun a => a = TX_STAT n ∨ a = TX_CLIP_CNT n c ∨ a = FC_STAT) fun u => { u with eng := [], col := .init })
      ∧ (s.bit (TX_STAT n) TX_STAT_ON = false → Gives (.dacSaturation n c) s fun t => Unchanged s t)

/-- A receive boundary (R30, R39, R41, R71, R72, R142). -/
def Spec.rxBoundary (s t : State) (n : Eng) : Prop :=
  let cnt := BitVec.ofNat 24 (s.fld (ENG_SF_RX n) ENG_SF_RX_COUNT) + 1#24
  let due := Spec.due s n true cnt
  let r := (s.engS n).resp
  t.fld (ENG_SF_RX n) ENG_SF_RX_COUNT = cnt.toNat
    ∧ (t.engS n).swaps.take ((s.engS n).swaps.length - due.length)
      = (s.engS n).swaps.filter (fun p => !p.rx || !(p.due == .next || p.due == .named cnt))
    ∧ (¬(s.negRxState n = 2 ∧ r.lt = cnt) → (t.engS n).swaps.length = (s.engS n).swaps.length - due.length)
    ∧ Spec.swapped s t n true cnt
    ∧ t.bit (GAIT_STAT n) GAIT_STAT_EPOCH_RX = (s.bit (GAIT_STAT n) GAIT_STAT_EPOCH_RX != due.any fun p => p.blk == 1)
    ∧ (due ≠ [] → s.rxState n ≠ 7 → t.bit (ENG_SWAP_STAT n) ENG_SWAP_STAT_FLYWHEEL = true)
    ∧ (s.negRxState n = 3 → r.lt = cnt → t.negRxState n = 4)
    ∧ (r.catchUp = true → t.negRxState n = 4 ∧ t.bit (GAIT_STAT n) GAIT_STAT_CATCH_UP = true ∧ (t.engS n).resp.catchUp = false)
    ∧ Spec.boundaryFrame s t n true
/-- The receiver at boundary `cnt`: the swaps of the boundary are in force, and the symbols of its samples have been formed. -/
def Spec.atMark (u : State) (n : Eng) (cnt : BitVec 24) : State :=
  (Op.all [Op.setF (ENG_SF_RX n) ENG_SF_RX_COUNT cnt.toNat, Op.nbrGone n true, Op.rxSwaps n cnt, Op.freq n, Op.marker n, Op.symbols n]).run u
/-- R20–R24, R38, R41, R68: a transmit boundary while the transmitter is on, and the switching superframe of a negotiation. R30, R39, R41,
R71, R72, R142, R155: a receive boundary, the local target of a negotiation and the catch-up boundary, after the datapath words that the
command brings. How OFFSET is rounded is left open (log 25), when changes act is as logs 26 and 27 have it, and the responder's epoch is observed
and a lost COMMIT made good as log 49 has it (DEDUCED). -/
def Obligations.Boundaries : Prop :=
  (∀ (s : State) (n : Eng) (o : TxSide), s.Wf →
      ((s.engS n).tx = .on → Gives (.transmitBoundary n o) s fun t => Spec.txBoundary s t n)
      ∧ ((s.engS n).tx = .off ∨ (s.engS n).tx = .starting → Gives (.transmitBoundary n o) s fun t => Unchanged s t)
      ∧ ((s.engS n).tx = .stopping → Gives (.transmitBoundary n o) s fun t => (t.engS n).tx = .off ∧ t.bit (TX_STAT n) TX_STAT_ON = false
        ∧ Spec.txEnds s t n ∧ Spec.boundaryFrame s t n false)
      ∧ ((s.engS n).tx = .on → (s.engS n).prop.st = 2 → (s.engS n).prop.s = s.sfTx n + 1#24 →
        Gives (.negSwitchSuperframe n o) s fun t => Spec.txBoundary s t n ∧ t.fld (NEG_TX_STAT n) NEG_TX_STAT_STATE = 3))
  ∧ ∀ (s : State) (n : Eng) (o : RxObs), s.Wf →
      let u := Spec.sampled s n o.ws
      let r := (u.engS n).rxp
      Gives (.receiveBoundary n o) s (fun t => Spec.rxBoundary u t n
        ∧ (r.fcnt ≠ 0 → ∃ q : Int, (q * (r.fcnt * 2 ^ 44 : Nat) - r.fsum * 1000).natAbs < r.fcnt * 2 ^ 44
          ∧ t.fld (RX_FREQ n) RX_FREQ_OFFSET = (q % 65536).toNat)
        ∧ (r.fcnt = 0 → t.fld (RX_FREQ n) RX_FREQ_OFFSET = u.fld (RX_FREQ n) RX_FREQ_OFFSET))
      ∧ ((s.negRxState n = 2 ∨ s.negRxState n = 3) → (s.engS n).resp.lt = s.sfRx n + 1#24 →
        Gives (.negLocalTarget n o) s fun t => Spec.rxBoundary u t n
          ∧ (s.negRxState n = 3 → t.negRxState n = 4)
          ∧ (s.negRxState n = 2 → (s.engS n).resp.catchUp = false →
            if u.rxState n = 7 ∧ (Spec.atMark u n (u.sfRx n + 1#24)).epochObs n = some (!t.bit (GAIT_STAT n) GAIT_STAT_EPOCH_RX) then
              (t.engS n).resp.catchUp = true
                ∧ ∀ b ∈ (s.engS n).resp.blocks, PendSwap.mk b true .next true ∈ (t.engS n).swaps
            else t.negRxState n = 6 ∧ (t.engS n).resp.blocks = []))
      ∧ ((s.engS n).resp.catchUp = true → Gives (.gaitCatchUp n o) s fun t => Spec.rxBoundary u t n ∧ t.negRxState n = 4)

/-! Gait negotiation and overhead frames (02 R58–R77). -/

/-- The first superframe of the next multiframe on transmit (R58, R66). -/
def Spec.nextMf (s : State) (n : Eng) : Nat := (s.fld (ENG_SF_TX n) ENG_SF_TX_SN / 8 + 1) * 8 % 2 ^ 24
/-- The lead of S over the next multiframe, modulo 2^24. -/
def Spec.lead (s : State) (n : Eng) (at_ : Nat) : Nat := (at_ + 2 ^ 24 - Spec.nextMf s n) % 2 ^ 24
/-- The reason for which GO is refused, 0 for none (R66): the first that holds. -/
def Spec.goReason (s : State) (n : Eng) (idx : Nat) (blks : List Nat) : Nat :=
  let st := (s.engS n).prop.st
  let d := Spec.lead s n (s.fld (NEG_TX_S n) NEG_TX_S_S)
  if st = 1 ∨ st = 2 then 0x05 else if (s.engS n).tx = .off then 0x12 else if d < 16 ∨ 2 ^ 23 ≤ d then 0x06
  else if s.bit (GAIT_W0 n idx) GAIT_W0_VALID = false ∨ idx = s.txAct n ∨ (s.gait n idx).rate ≠ (s.gait n (s.txAct n)).rate
      ∨ (blks.any fun b => !([2, 4, 6, 8, 11, 13].contains b)) ∨ s.pendBlk n 0 ∨ (blks.any fun b => s.pendBlk n b)
      ∨ s.negTxContent n idx blks ≠ [] then 0x13
  else 0
/-- What the proposer's commands may change beside NEG_TX_CTL. -/
def Spec.negFrame (s t : State) (n : Eng) (A : List Nat) : Prop :=
  UnitBut State.engS s t n (fun e => { e with prop := .init, occTx := false, swaps := [] })
    ∧ UnitBut State.drnS s t n (fun e => { e with evpend := 0 })
    ∧ Only s t (fun a => a ∈ A) fun u => { u with eng := [], drn := [] }
/-- The open transaction is abandoned with a reason (R67, R68): ABANDON is sent until S, and the reservation ends. -/
def Spec.abandoned (s t : State) (n : Eng) (reason : Nat) : Prop :=
  let p := (s.engS n).prop
  (t.engS n).prop = { p with
      st := 5, blocks := [], abandon := some (BitVec.ofNat 8 (s.fld (NEG_TX_STAT n) NEG_TX_STAT_TID), p.s) }
    ∧ t.reg (NEG_TX_STAT n) = setFld (setFld (s.reg (NEG_TX_STAT n)) NEG_TX_STAT_STATE 5) NEG_TX_STAT_REASON reason
    ∧ (t.drnS n).evpend.getLsbD 7 = true ∧ (t.engS n).swaps = (s.engS n).swaps
/-- R66–R68, R74: GO and ABANDON of NEG_TX_CTL, written together ABANDON first, and the reply limit. Reserved blocks show as pending and are
judged as in log 26; that a GO refused with BUSY shows ABANDONED and BUSY while the open transaction goes on, and that the content of ENC and
CAL_IN alone is judged, are readings of the model (DEDUCED, log 49). -/
def Obligations.NegotiationProposer : Prop :=
  ∀ (s : State) (p : Party) (n : Eng) (v : W), s.Wf →
    let st := (s.engS n).prop.st
    let idx := getFld v NEG_TX_CTL_INDEX
    let blks := Spec.named (BitVec.ofNat 15 (getFld v NEG_TX_CTL_BLOCKS))
    let r := Spec.goReason s n idx blks
    let regs := [NEG_TX_CTL n, NEG_TX_STAT n, ENG_SWAP_PEND n]
    (Spec.served s (NEG_TX_CTL n) → v.getLsbD 30 = false →
      (r = 0 → Gives (.negTxGo p n v) s fun t =>
        t.reg (NEG_TX_CTL n) = v &&& 0x000F7FFF#32 ∧ t.fld (GAIT_SEL n) GAIT_SEL_TX_IDX = idx
        ∧ (t.engS n).prop = ⟨1, 0 :: blks, BitVec.ofNat 24 (s.fld (NEG_TX_S n) NEG_TX_S_S), BitVec.ofNat 24 (Spec.nextMf s n),
          BitVec.ofNat 4 idx, BitVec.ofNat 16 (s.gaitCheck n idx), 0, none⟩
        ∧ t.reg (NEG_TX_STAT n) = setFld (setFld (setFld (s.reg (NEG_TX_STAT n)) NEG_TX_STAT_TID
          (s.fld (NEG_TX_STAT n) NEG_TX_STAT_TID + 1)) NEG_TX_STAT_STATE 1) NEG_TX_STAT_REASON 0
        ∧ (∀ b : Fin 15, (t.reg (ENG_SWAP_PEND n)).getLsbD b = (s.pendBlk n b || b == 0 || blks.contains b.val))
        ∧ (t.engS n).swaps = (s.engS n).swaps ∧ Spec.negFrame s t n (GAIT_SEL n :: regs))
      ∧ (r ≠ 0 → Gives (.negTxGo p n v) s fun t =>
        t.reg (NEG_TX_STAT n) = setFld (setFld (s.reg (NEG_TX_STAT n)) NEG_TX_STAT_STATE 5) NEG_TX_STAT_REASON r
        ∧ (t.drnS n).evpend.getLsbD 7 = true ∧ (t.engS n).prop = { (s.engS n).prop with st := if r = 5 then st else 5 }
        ∧ (t.engS n).swaps = (s.engS n).swaps ∧ Spec.negFrame s t n ([POOL_STAT, CLI_STAT] ++ regs)))
    ∧ (Spec.served s (NEG_TX_CTL n) → v.getLsbD 31 = false →
      Gives (.negTxAbandon p n v) s fun t => t.reg (NEG_TX_CTL n) = v &&& 0x000F7FFF#32
        ∧ (st = 1 → Spec.abandoned s t n 0x11)
        ∧ (st ≠ 1 → OnlyRegsOf s t fun a => a = NEG_TX_CTL n) ∧ Spec.negFrame s t n regs)
    ∧ (Spec.served s (NEG_TX_CTL n) → ∃ a b, exec (.negTxAbandon p n (v &&& 0x7FFFFFFF#32)) s = .next a
        ∧ exec (.negTxGo p n (v &&& 0xBFFFFFFF#32)) a = .next b
        ∧ exec (.negTxGo p n (v ||| 0x40000000#32)) s = .next b ∧ exec (.negTxAbandon p n (v ||| 0x80000000#32)) s = .next b)
    ∧ (let d := Spec.lead s n (s.engS n).prop.s.toNat
      (st = 1 → (d < 32 ∨ 2 ^ 23 ≤ d) → Gives (.noReply n) s fun t => Spec.abandoned s t n 0x10 ∧ Spec.negFrame s t n regs)
      ∧ ((st ≠ 1 ∨ ¬(d < 32 ∨ 2 ^ 23 ≤ d)) → Gives (.noReply n) s fun t => Unchanged s t))

/-- The reason that the device puts in place of an ACK, 0 for none (R70). -/
def Spec.nakReason (s : State) (n : Eng) (blks : List Nat) : Nat :=
  let d := (s.fld (NEG_RX_S n) NEG_RX_S_S + 2 ^ 24 + 2 ^ 24 - s.fld (ENG_SF_OFS n) ENG_SF_OFS_OFS - s.fld (ENG_SF_RX n) ENG_SF_RX_COUNT) % 2 ^ 24
  if s.bit (NEG_RX_PROP n) NEG_RX_PROP_CHECK_OK = false then 1 else if (s.engS n).resp.rateOk = false then 2
  else if s.bit (ENG_SF_OFS n) ENG_SF_OFS_VALID = false ∨ d < 32 ∨ 2 ^ 23 ≤ d then 6
  else if s.pendBlk n 1 ∨ (blks.any fun b => s.pendBlk n b) then 5
  else if s.negRxPool n blks ≠ [] then 3 else if s.negRxCal n blks ≠ [] then 4 else 0
/-- A NAK is sent with a reason (R70, R77). -/
def Spec.nakSent (s t : State) (n : Eng) (reason : Nat) : Prop :=
  t.negRxState n = 5 ∧ t.bit (NEG_RX_PROP n) NEG_RX_PROP_NEW = false
    ∧ (t.engS n).resp = { (s.engS n).resp with answer := some ⟨false, BitVec.ofNat 8 (s.fld (NEG_RX_STAT n) NEG_RX_STAT_TID),
        BitVec.ofNat 8 reason, BitVec.ofNat 24 (s.fld (NEG_RX_S n) NEG_RX_S_S)⟩ }
/-- What an answer may change beside the registers of `A`. -/
def Spec.respFrame (s t : State) (n : Eng) (A : List Nat) : Prop :=
  UnitBut State.engS s t n (fun e => { e with resp := .init }) ∧ Only s t (fun a => a ∈ A) fun u => { u with eng := [] }
/-- R70, R77, R78: ACK and NAK of NEG_RX_CTL; NAK wins when both are written, and an answer outside RECEIVED does nothing. Reserved blocks show as
pending (DEDUCED, log 26), and POOL and CLI are reasons only when the other checks pass (DEDUCED, log 49). -/
def Obligations.NegotiationResponder : Prop :=
  ∀ (s : State) (p : Party) (n : Eng) (v : W), s.Wf → Spec.served s (NEG_RX_CTL n) →
    let blks := (Spec.named (BitVec.ofNat 15 (getFld v NEG_RX_CTL_BLOCKS))).filter fun b => [3, 5, 7, 9, 12, 14].contains b
    let r := Spec.nakReason s n blks
    let why := if 1 ≤ getFld v NEG_RX_CTL_REASON ∧ getFld v NEG_RX_CTL_REASON ≤ 7 then getFld v NEG_RX_CTL_REASON else 7
    let lt := BitVec.ofNat 24 (s.fld (NEG_RX_S n) NEG_RX_S_S) - BitVec.ofNat 24 (s.fld (ENG_SF_OFS n) ENG_SF_OFS_OFS)
    (s.negRxState n = 1 → v.getLsbD 30 = false → r = 0 → ∃ t, exec (.negRxAck p n v) s = .next t ∧
      t.negRxState n = 2 ∧ t.fld (NEG_RX_STAT n) NEG_RX_STAT_LT = lt.toNat % 256
      ∧ t.bit (NEG_RX_PROP n) NEG_RX_PROP_NEW = false
      ∧ t.fld (GAIT_SEL n) GAIT_SEL_RX_IDX = s.fld (NEG_RX_PROP n) NEG_RX_PROP_INDEX
      ∧ (t.engS n).resp = { (s.engS n).resp with
          lt := lt, blocks := 1 :: blks
          answer := some ⟨true, BitVec.ofNat 8 (s.fld (NEG_RX_STAT n) NEG_RX_STAT_TID), 0#8,
            BitVec.ofNat 24 (s.fld (NEG_RX_S n) NEG_RX_S_S)⟩ }
      ∧ Spec.respFrame s t n [NEG_RX_STAT n, NEG_RX_PROP n, GAIT_SEL n, ENG_SWAP_PEND n])
    ∧ (s.negRxState n = 1 → v.getLsbD 30 = false → r ≠ 0 → ∃ t, exec (.negRxAck p n v) s = .next t ∧ Spec.nakSent s t n r
      ∧ t.fld (NEG_RX_STAT n) NEG_RX_STAT_LT = lt.toNat % 256
      ∧ Spec.respFrame s t n [NEG_RX_STAT n, NEG_RX_PROP n, POOL_STAT, CLI_STAT])
    ∧ (s.negRxState n = 1 → v.getLsbD 30 = true → ∃ t, exec (.negRxAck p n v) s = .next t ∧ Spec.nakSent s t n why
      ∧ Spec.respFrame s t n [NEG_RX_STAT n, NEG_RX_PROP n])
    ∧ (s.negRxState n = 1 → ∃ t, exec (.negRxNak p n v) s = .next t ∧ Spec.nakSent s t n why
      ∧ Spec.respFrame s t n [NEG_RX_STAT n, NEG_RX_PROP n])
    ∧ (s.negRxState n ≠ 1 → exec (.negRxAck p n v) s = .next s.quiet ∧ exec (.negRxNak p n v) s = .next s.quiet)

/-- The frame that the newest eight superframes of engine `n` carry in their slices, and the local count of the first (R58, R62). -/
def Spec.received (s : State) (n : Eng) : Option (List Byte × BitVec 24) :=
  match s.ohSlices n with
  | some (r :: l) => if s.rxState n = 7 then some ((r :: l).flatMap (s.sliceBytes n), r.cnt) else none
  | _ => none
/-- A frame is acted on (R62): under lock, in its place, without error, of FORMAT 1 and of the expected number. -/
def Spec.acted (s : State) (n : Eng) (f : List Byte) (l0 : BitVec 24) : Prop :=
  crc16 f = 0 ∧ f.getD 0 0#8 = 1#8 ∧ s.bit (RX_STAT n) RX_STAT_OH_LOCK = true
    ∧ (l0.toNat + s.fld (ENG_SF_OFS n) ENG_SF_OFS_OFS) % 8 = 0
    ∧ beVal (f.extract 2 5) = (l0 + BitVec.ofNat 24 (s.fld (ENG_SF_OFS n) ENG_SF_OFS_OFS)).toNat
/-- What a received frame may change: engine `n`, the time unit and its events. -/
def Spec.frameFrame (s t : State) (n : Eng) : Prop :=
  Only s t (fun a => (0x1000000 + 0x80000 * n.val ≤ a ∧ a < 0x1080000 + 0x80000 * n.val) ∨ (0x200000 ≤ a ∧ a < 0x201000)
      ∨ (0x201000 + 0x20 * n.val ≤ a ∧ a < 0x201020 + 0x20 * n.val) ∨ a = FC_STAT)
      (fun u => { u with eng := [], drn := [], col := .init, time := .init, fresh := 0 })
    ∧ (∀ m, m ≠ n.val → t.engS m = s.engS m) ∧ ∀ d, { t.drnS d with evpend := 0#16 } = { s.drnS d with evpend := 0#16 }
/-- R62, R67–R71: an overhead frame received; the hunt for lock; a frame that is acted on and the gait message it carries. The hunt keeps the
latest good frame of each phase (DEDUCED, log 48). -/
def Obligations.OverheadFrames : Prop :=
  ∀ (s : State) (n : Eng) (f : List Byte) (l0 : BitVec 24), s.Wf →
    let b := fun i => (f.getD i 0#8).toNat
    let oh := (s.engS n).oh
    let held := s.bit (RX_STAT n) RX_STAT_OH_LOCK
    let msn := BitVec.ofNat 24 (beVal (f.extract 2 5))
    let mine := (s.engS n).prop.st = 1 ∧ b 49 = s.fld (NEG_TX_STAT n) NEG_TX_STAT_TID
      ∧ beVal (f.extract 51 54) = (s.engS n).prop.s.toNat
    let d := Spec.lead s n (s.engS n).prop.s.toNat
    (Spec.received s n = none → Gives (.overheadFrameReceive n) s fun t => Unchanged s t)
    ∧ (Spec.received s n = some (f, l0) → (Gives (.overheadFrameReceive n) s fun t => Spec.frameFrame s t n) ∧ f.length = 256)
    ∧ (Spec.received s n = some (f, l0) → held = false → crc16 f = 0 → f.getD 0 0#8 = 1#8 →
      Gives (.overheadFrameReceive n) s fun t =>
        if oh.at_ l0 = some (msn - 8#24, l0 - 8#24) then t.bit (RX_STAT n) RX_STAT_OH_LOCK = true
          ∧ t.reg (ENG_SF_OFS n) = BitVec.ofNat 32 (0x80000000 + (msn - l0).toNat)
          ∧ (t.engS n).oh.qual = f.extract 72 104
        else t.regs = s.regs ∧ (t.engS n).oh = { oh with good := (msn, l0) :: oh.good.filter fun g => (l0 - g.2).toNat % 8 != 0 })
    ∧ (Spec.received s n = some (f, l0) → held = true → (l0.toNat + s.fld (ENG_SF_OFS n) ENG_SF_OFS_OFS) % 8 = 0 → crc16 f ≠ 0 →
      Gives (.overheadFrameReceive n) s fun t => (t.engS n).oh.bad = oh.bad + 1
        ∧ t.bit (RX_STAT n) RX_STAT_OH_LOCK = decide (oh.fails < 3) ∧ (oh.fails < 3 → (t.engS n).oh.fails = oh.fails + 1))
    ∧ (Spec.received s n = some (f, l0) → Spec.acted s n f l0 → Gives (.overheadFrameReceive n) s fun t =>
      (t.engS n).oh.qual = f.extract 72 104 ∧ (t.engS n).oh.fails = 0
      ∧ (b 40 = 1 → b 41 ≠ s.fld (NEG_RX_STAT n) NEG_RX_STAT_TID → s.negRxState n ≠ 3 →
        t.negRxState n = 1 ∧ t.fld (NEG_RX_STAT n) NEG_RX_STAT_TID = b 41 ∧ t.fld (NEG_RX_S n) NEG_RX_S_S = beVal (f.extract 43 46)
          ∧ t.fld (NEG_RX_PROP n) NEG_RX_PROP_INDEX = b 42 % 16 ∧ t.bit (NEG_RX_PROP n) NEG_RX_PROP_NEW = true
          ∧ (t.drnS n).evpend.getLsbD 6 = true ∧ (t.engS n).resp.blocks = [])
      ∧ (b 40 = 2 → b 41 = s.fld (NEG_RX_STAT n) NEG_RX_STAT_TID → s.negRxState n = 2 → (s.engS n).resp.catchUp = false →
        beVal (f.extract 43 46) = s.fld (NEG_RX_S n) NEG_RX_S_S →
        2 ≤ ((s.engS n).resp.lt - s.sfRx n).toNat → ((s.engS n).resp.lt - s.sfRx n).toNat < 2 ^ 23 →
        t.negRxState n = 3 ∧ (t.engS n).resp.blocks = []
          ∧ ∀ x ∈ (s.engS n).resp.blocks, PendSwap.mk x true (.named (s.engS n).resp.lt) true ∈ (t.engS n).swaps)
      ∧ (b 40 = 3 → b 41 = s.fld (NEG_RX_STAT n) NEG_RX_STAT_TID → s.negRxState n = 1 → t.negRxState n = 7)
      ∧ (b 48 = 1 → mine → 32 ≤ d → d < 2 ^ 23 → t.fld (NEG_TX_STAT n) NEG_TX_STAT_STATE = 2
        ∧ ∀ x ∈ (s.engS n).prop.blocks, PendSwap.mk x false (.named (s.engS n).prop.s) true ∈ (t.engS n).swaps)
      ∧ (b 48 = 2 → mine → t.fld (NEG_TX_STAT n) NEG_TX_STAT_STATE = 4 ∧ (t.engS n).prop.blocks = []
        ∧ t.fld (NEG_TX_STAT n) NEG_TX_STAT_REASON = (if 1 ≤ b 50 ∧ b 50 ≤ 7 then b 50 else 7)))

/-! Converters, calibration and capture (03_converters_and_capture.md). -/

/-- The receiver is acquiring or locked (R162). -/
abbrev Spec.receiving (s : State) (n : Eng) : Prop := 2 ≤ s.rxState n ∧ s.rxState n ≤ 7
/-- What a change of the receiver's state may change beside the words of `A`: RX_STAT, what is lost with lock, and a mirror. -/
def Spec.rxFrame (s t : State) (n : Eng) (A : List Nat) : Prop :=
  Only s t (fun a => a ∈ A ∨ a ∈ [RX_STAT n, RX_FREQ n, RX_CD_EST n, ENG_SF_OFS n, GLO_HINT_RX n, POOL_MIRROR_STAT, FC_STAT]
      ∨ (0x600100 ≤ a ∧ a < 0x600260)) (fun u => { u with eng := [], drn := [], col := .init, pwr := .init })
    ∧ UnitBut State.engS s t n (fun e => { e with acq := .init, oh := .init, uncSf := 0, rxp := .init })
    ∧ ∀ d, { t.drnS d with evpend := 0#16 } = { s.drnS d with evpend := 0#16 }
/-- The receiver is in a state; a change of state signals line 10 (R398), and leaving LOCKED drops READY, overhead lock and what rests
on it (R62, R171, R172). -/
def Spec.entered (s t : State) (n : Eng) (st : Nat) : Prop :=
  t.rxState n = st ∧ (s.rxState n ≠ st → (t.drnS n).evpend.getLsbD 10 = true)
    ∧ (s.rxState n = 7 → st ≠ 7 → t.bit (RX_STAT n) RX_STAT_READY = false ∧ t.bit (RX_STAT n) RX_STAT_OH_LOCK = false
      ∧ t.bit (ENG_SF_OFS n) ENG_SF_OFS_VALID = false ∧ t.bit (GLO_HINT_RX n) GLO_HINT_RX_VALID = false)
/-- The tracked values of a slice. -/
def Spec.track (s : State) (n : Eng) (a : Fin 4) (k : Fin 68) : Track := Tab.get (s.engS n).track (fun _ => .init) (a.val * 68 + k.val)
/-- A tracked value moves one step at most towards the measured one and is held in its range (R92, R94). -/
def Spec.toward (lim v m : Int) : Int := max (-lim) (min lim (v + max (-1) (min 1 (m - v))))
/-- A tracked value at the limit of its range (R92, R94). -/
def Spec.atLimit (x : Track) : Bool := x.off.natAbs == 512 || x.gain.natAbs == 1638 || x.skew.natAbs == 2048 || x.bw.natAbs == 1000
/-- The bits of spare `sp` of converter `c` in its map word, and PASS and DONE in CONV_SPARE_STAT (R95, R96, R98). -/
def Spec.spareWord (n : Eng) (c : Fin 8) : Nat := if c.val < 4 then CONV_ADC_MAP n c else CONV_DAC_MAP n (c - 4)
def Spec.spareBit (c : Fin 8) (sp : Fin 4) : Nat := if c.val < 4 then 4 * c + sp else 2 * (c - 4) + sp

/-- Own samples of a spare that differ by more than 2 codes from those of the slice it is to replace (R98): an ADC's as corrected, a DAC's as its
sense comparator measures both. -/
def Spec.spareDiffer (s : State) (n : Eng) (c : Fin 8) (sp : Fin 4) (own act : List Byte) : Nat :=
  if c.val < 4 then s.spareDiffer n c sp own act
  else ((List.range 65536).filter fun j => 2 < ((own.getD j 0#8).toInt - (act.getD j 0#8).toInt).natAbs).length
/-- R84–R98: input selectors, overrange, mismatch tracking and the compare of a spare slice. A tracked value moves one step at most towards what
the loop measures, which is left open, and what ends TRACK_LIMIT is the model's choice (DESIGN CHOICE, log 29). -/
def Obligations.ConverterInputs : Prop :=
  ∀ (s : State) (p : Party) (n : Eng) (v : W) (a : Fin 4), s.Wf →
    let ovr := s.reg (CONV_OVR_STAT n)
    (Spec.served s (CONV_SEL n) →
      (Spec.receiving s n → v &&& 0xFF#32 ≠ 0#32 → Gives (.convSelWrite p n v) s fun t =>
        t.reg (CONV_STAT n) = setFld (s.reg (CONV_STAT n)) CONV_STAT_SEL_REFUSED 1 ∧ OnlyRegsOf s t fun a => a = CONV_STAT n)
      ∧ (¬(Spec.receiving s n ∧ v &&& 0xFF#32 ≠ 0#32) → Gives (.convSelWrite p n v) s fun t =>
        t.reg (CONV_SEL n) = v &&& impOf (CONV_SEL n) ∧ Spec.rxFrame s t n [CONV_SEL n]
        ∧ (s.rxState n = 1 → v &&& 0xFF#32 = 0#32 → Spec.entered s t n 2)
        ∧ (¬(s.rxState n = 1 ∧ v &&& 0xFF#32 = 0#32) → t.rxState n = s.rxState n)))
    ∧ (Gives (.adcSaturation n a) s fun t =>
      t.reg (CONV_OVR_STAT n) = ovr ||| (0x11#32 <<< a.val)
      ∧ t.reg (CONV_CLIP_CNT n a) = BitVec.ofNat 32 (min ((s.reg (CONV_CLIP_CNT n a)).toNat + 1) 0xFFFFFFFF)
      ∧ (ovr.getLsbD a = false → Begun s t (0x100 + 16 * n + a) 1 0 0) ∧ (ovr.getLsbD a = true → t.col = s.col)
      ∧ Only s t (fun b => b = CONV_OVR_STAT n ∨ b = CONV_CLIP_CNT n a ∨ b = FC_STAT) fun u => { u with col := .init })
    ∧ (Gives (.overrangeLiveClear n a) s fun t => t.reg (CONV_OVR_STAT n) = ovr &&& ~~~(0x10#32 <<< a.val)
      ∧ Ended s t (0x100 + 16 * n + a) 1 0 0 ∧ Only s t (fun b => b = CONV_OVR_STAT n ∨ b = FC_STAT) fun u => { u with col := .init })
    ∧ (∀ (k : Fin 68) (ws : List CapWord) (own : List Byte),
      let u := Spec.sampled s n ws
      let st := (u.engS n).rxp.stat.getD a []
      let m := Config.mismatch k st own
      let on : Prop := (u.reg (CONV_SEL n) >>> (2 * a.val)) &&& 3#32 = 0#32 ∧ aboveThr (u.accThr n) (u.engS n).rxp.power = true ∧ st ≠ []
        ∧ u.tracked n a k = true
      (¬on → exec (.sliceTrackUpdate n a k ws own) s = .next u)
      ∧ (on → Gives (.sliceTrackUpdate n a k ws own) s fun t =>
        let x := Spec.track u n a k
        let y := Spec.track t n a k
        y = ⟨Spec.toward 512 x.off (m.getD 0 x.off), Spec.toward 1638 x.gain (m.getD 1 x.gain),
          Spec.toward 2048 x.skew (m.getD 2 x.skew), Spec.toward 1000 x.bw (m.getD 3 x.bw)⟩
        ∧ (∀ j, u.servedSlice n a k = some j → Spec.atLimit y = true → u.holds (0x100 + 16 * n + a) 2 2 j = false →
          (t.reg (CONV_TRACK_LIMIT n a (j / 32))).getLsbD (j % 32) = true ∧ Begun u t (0x100 + 16 * n + a) 2 2 j)
        ∧ (∀ j, u.servedSlice n a k = some j → Spec.atLimit y = false → u.holds (0x100 + 16 * n + a) 2 2 j = true →
          (t.reg (CONV_TRACK_LIMIT n a (j / 32))).getLsbD (j % 32) = false ∧ Ended u t (0x100 + 16 * n + a) 2 2 j)
        ∧ UnitBut State.engS u t n (fun e => { e with track := [] }) ∧ (∀ b j, (b, j) ≠ (a, k) → Spec.track t n b j = Spec.track u n b j)
        ∧ Only u t (fun b => (∃ j, u.servedSlice n a k = some j ∧ b = CONV_TRACK_LIMIT n a (j / 32)) ∨ b = FAR_STAT ∨ b = FC_STAT)
            fun x => { x with eng := [], col := .init, ecc := { x.ecc with queue := [] } }))
    ∧ ∀ (c : Fin 8) (sp : Fin 4) (ws : List CapWord) (own act : List Byte),
      let u := Spec.sampled s n ws
      let st := CONV_SPARE_STAT n (if c.val < 4 then 0 else 1)
      let b := Spec.spareBit c sp
      let runs := (c.val < 4 ∨ sp.val < 2) ∧ (s.reg (Spec.spareWord n c)).getLsbD (8 * sp + 7) = true
        ∧ (s.reg (Spec.spareWord n c + 0x4000)).getLsbD (8 * sp + 7) = false
      (runs → s.ecc.job = none → Gives (.spareCompareDone n c sp ws own act) s fun t => (t.reg st).getLsbD (b + 16) = true
          ∧ (t.reg st).getLsbD b = ((s.reg st).getLsbD b || decide (Spec.spareDiffer u n c sp own act ≤ 4)) ∧ Only u t (fun a => a = st) id)
      ∧ (¬runs → exec (.spareCompareDone n c sp ws own act) s = .next u)

/-- The result of a GO for a step (R109): the first cause that holds, in the order of the codes but for BAD_STEP. -/
def Spec.calRefuse (s : State) (n : Eng) (step : Nat) (mask : Nat) : Nat :=
  let f := s.fld (CONV_CAL_TONE n) CONV_CAL_TONE_FREQ
  if step = 0 then 10 else if Spec.receiving s n then 1
  else if (List.range 4).any fun a => mask.testBit a && (s.reg (CONV_SEL n) >>> (2 * a)) &&& 3#32 != 0#32 then 2
  else if 1 ≤ s.capState n ∧ s.capState n ≤ 3 then 3
  else if step = 2 ∧ (f < 1000 ∨ 40000 < f) then 7
  else if step = 3 ∧ ¬(s.bit (CONV_CAL_STAT n) ⟨16, 16⟩ = true ∧ s.bit (CONV_CAL_STAT n) ⟨17, 17⟩ = true) then 8 else 0
/-- What a write of CONV_CAL_CTL may change. -/
def Spec.calFrame (s t : State) (n : Eng) : Prop :=
  UnitBut State.engS s t n (fun e => { e with calRun := 0 })
    ∧ UnitBut State.drnS s t n (fun e => { e with evpend := 0 })
    ∧ Only s t (fun a => a = CONV_CAL_CTL n ∨ a = CONV_CAL_STAT n) fun u => { u with eng := [], drn := [] }
/-- A GO for a step, while no step runs (R101, R107–R109). -/
def Spec.calGo (c : Instr) (s : State) (n : Eng) (step : Nat) (v : W) : Prop :=
  let w := setFld v CONV_CAL_CTL_STEP step
  let r := Spec.calRefuse s n step (getFld v CONV_CAL_CTL_MASK)
  (s.engS n).calRun = 0 → Gives c s fun t =>
    t.reg (CONV_CAL_CTL n) = w &&& 0x3F#32 ∧ t.fld (CONV_CAL_STAT n) CONV_CAL_STAT_ERR = r ∧ Spec.calFrame s t n
    ∧ (r ≠ 0 → (t.engS n).calRun = 0 ∧ t.fld (CONV_CAL_STAT n) CONV_CAL_STAT_STATE = s.fld (CONV_CAL_STAT n) CONV_CAL_STAT_STATE)
    ∧ (r = 0 → (t.engS n).calRun = step ∧ t.fld (CONV_CAL_STAT n) CONV_CAL_STAT_STATE = (if step = 3 then 2 else 1)
      ∧ t.fld (CONV_CAL_STAT n) CONV_CAL_STAT_DONE = (if step = 1 then 0 else s.fld (CONV_CAL_STAT n) CONV_CAL_STAT_DONE))
/-- A step has ended with a result (R109): IDLE, the result in ERR, and line 11. -/
def Spec.calEnds (s t : State) (n : Eng) (err : Nat) : Prop :=
  (t.engS n).calRun = 0 ∧ t.fld (CONV_CAL_STAT n) CONV_CAL_STAT_STATE = 0 ∧ t.fld (CONV_CAL_STAT n) CONV_CAL_STAT_ERR = err
    ∧ (t.drnS n).evpend.getLsbD 11 = true ∧ UnitBut State.drnS s t n (fun e => { e with evpend := 0 })
    ∧ UnitBut State.engS s t n (fun e => { e with calRun := 0, cal := [], tone := [] })
/-- The sums held for slice `k` of ADC `a`. -/
def Spec.sums (l : List (List SliceSum)) (a k : Nat) : SliceSum := (l.getD a []).getD k ⟨0, 0, false⟩
/-- The 16,384 codes of slice `k` of ADC `a` in a step, and their sums (R102, R103). -/
def Spec.codes (m : CalMeas) (a k : Nat) : List Int :=
  (List.range 16384).map fun j => ((m.codes.getD a []).getD (64 * j + k) 0#8).toInt
def Spec.sliceOf (m : CalMeas) (a k : Nat) : SliceSum :=
  let l := Spec.codes m a k
  ⟨l.sum, (l.map fun c => c.natAbs ^ 2).sum, l.any fun c => c == 127 || c == -128⟩
/-- The rows of a GO of CONV_CAL_CTL, by STEP. -/
def Spec.calRow (step : Fin 4) (p : Party) (n : Eng) (v : W) : Instr :=
  if step = 0 then .calNoStep p n v else if step = 1 then .calDark p n v else if step = 2 then .calTone p n v else .calCompute p n v
/-- DARK and TONE overwrite the capture memory of the ADCs of MASK with their codes, and nothing else of memory (R101). -/
def Spec.codesKept (s t : State) (n : Eng) (mask : List Nat) (m : CalMeas) : Prop :=
  let key := fun (a i : Nat) => 0x20000000 + n.val * 0x400000 + a * 0x100000 + i
  (∀ a ∈ mask, ∀ i < 2 ^ 20, t.byte (key a i) = (m.codes.getD a []).getD i 0#8)
    ∧ BytesBut s t (fun k => ∃ a ∈ mask, key a 0 ≤ k ∧ k < key a 0 + 2 ^ 20)
    ∧ Only s t (fun a => a = CONV_CAL_STAT n ∨ Spec.integrity a)
        fun u => { u with eng := [], drn := [], mem := [], poison := [], ecc := .init, fresh := 0 }
/-- The gains that COMPUTE leaves for ADC `a` (R104, R105), where the quotients are 16-bit values: `amp` are the amplitudes a[k], in 2^-64 code. -/
def Spec.gains (t : State) (n : Eng) (a : Nat) (amp : Nat → Nat) (target : Nat) : Prop :=
  let tot := ((List.range 64).map amp).sum
  let G := rneDiv (target * 16384 * 64 * 2 ^ 64 : Nat) tot
  let g := fun k => rneDiv (tot * 16384 : Nat) (64 * amp k : Nat)
  (0 < tot → G < 65536 → t.fld (CONV_ADC_CORR n a) ⟨31, 16⟩ = G.toNat)
    ∧ ∀ k < 64, 0 < amp k → g k < 65536 → t.fld (CONV_SLICE_CORR n a k) ⟨31, 16⟩ = (g k).toNat
/-- The stored TONE samples of ADC `a` under the tables of `t` (R106). -/
def Spec.corrected (s t : State) (n : Eng) (a : Nat) : List Int :=
  (List.range 1048576).map fun i => toned (s.byte (0x20000000 + n.val * 0x400000 + a * 0x100000 + i)).toInt
    (t.fld (CONV_ADC_CORR n a) ⟨31, 16⟩) (t.fld (CONV_SLICE_CORR n a (i % 64)) ⟨31, 16⟩)
    (t.fld (CONV_ADC_CORR n a) ⟨15, 0⟩) (t.fld (CONV_SLICE_CORR n a (i % 64)) ⟨15, 0⟩)
/-- R101–R109: the steps of system calibration. CLIPPED goes before NO_TONE, offsets wrap, a[k] of a negative radicand and a gain that does not
fit are left open, and COMPUTE takes the samples from capture memory as the model has it (log 30); ABORT goes before GO (DEDUCED, log 41). -/
def Obligations.Calibration : Prop :=
  ∀ (s : State) (p : Party) (n : Eng) (v : W) (m : CalMeas), s.Wf →
    let mask := (List.range 4).filter fun a => (s.fld (CONV_CAL_CTL n) CONV_CAL_CTL_MASK).testBit a
    let dark := (s.engS n).cal
    let amp := s.fld (CONV_CAL_TONE n) CONV_CAL_TONE_AMP
    let d := Spec.sums dark
    let x := Spec.sliceOf m
    let clipped := mask.any fun a => (List.range 64).any fun k => (x a k).sat
    (Spec.served s (CONV_CAL_CTL n) → ∀ step : Fin 4,
      (v.getLsbD 30 = false → Spec.calGo (Spec.calRow step p n v) s n step v)
      ∧ ∃ a b, exec (.calAbort p n (setFld v CONV_CAL_CTL_STEP step &&& 0x7FFFFFFF#32)) s = .next a
        ∧ exec (Spec.calRow step p n (v &&& 0xBFFFFFFF#32)) a = .next b ∧ exec (Spec.calRow step p n (v ||| 0x40000000#32)) s = .next b)
    ∧ (Spec.served s (CONV_CAL_CTL n) → v.getLsbD 31 = false → Gives (.calAbort p n v) s fun t =>
      t.reg (CONV_CAL_CTL n) = v &&& 0x3F#32 ∧ Spec.calFrame s t n
      ∧ ((s.engS n).calRun ≠ 0 → Spec.calEnds s t n 9)
      ∧ ((s.engS n).calRun = 0 → t.reg (CONV_CAL_STAT n) = s.reg (CONV_CAL_STAT n)))
    ∧ (((s.engS n).calRun = 0 ∨ 3 < (s.engS n).calRun) → Gives (.calStepDone n m) s fun t => Unchanged s t)
    ∧ ((s.engS n).calRun = 1 → Gives (.calStepDone n m) s fun t => Spec.codesKept s t n mask m ∧
      if mask.any fun a => (List.range 64).any fun k => decide (16 * 2 ^ 28 < 16384 * ((x a k).sxx : Int) - (x a k).sx * (x a k).sx) then
        Spec.calEnds s t n 4 ∧ (t.engS n).cal = dark
      else Spec.calEnds s t n 0 ∧ (∀ (a : Fin 4) (k : Fin 64), Spec.sums (t.engS n).cal a k = x a k)
        ∧ t.bit (CONV_CAL_STAT n) ⟨16, 16⟩ = true)
    ∧ ((s.engS n).calRun = 2 → Gives (.calStepDone n m) s fun t => Spec.codesKept s t n mask m ∧
      if clipped = true then Spec.calEnds s t n 6
      else if dark = [] then Spec.calEnds s t n 5 ∨ Spec.calEnds s t n 0
      else if mask.any fun a => decide (32 * ((List.range 64).map fun k =>
          16384 * ((x a k).sxx : Int) - 2 * (d a k).sx * (x a k).sx + (d a k).sx * (d a k).sx).sum < (amp : Int) * amp * 64 * 2 ^ 28)
        then Spec.calEnds s t n 5
      else Spec.calEnds s t n 0 ∧ (∀ (a : Fin 4) (k : Fin 64), Spec.sums (t.engS n).tone a k = x a k)
        ∧ t.bit (CONV_CAL_STAT n) ⟨17, 17⟩ = true)
    ∧ ((s.engS n).calRun = 3 → s.pendBlk n 10 = true → Gives (.calStepDone n m) s fun t =>
      Spec.calEnds s t n 0 ∧ t.bit (CONV_CAL_STAT n) ⟨18, 18⟩ = true ∧ (mask ≠ [] → t.bit (ENG_SWAP_STAT n) ENG_SWAP_STAT_WRITE_BLOCKED = true)
      ∧ Only s t (fun b => b = CONV_CAL_STAT n ∨ b = ENG_SWAP_STAT n ∨ ∃ a ∈ mask, b = CONV_CAL_SPUR n a)
          fun u => { u with eng := [], drn := [], fresh := 0 })
    ∧ ((s.engS n).calRun = 3 → s.pendBlk n 10 = false → Gives (.calStepDone n m) s fun t =>
      Spec.calEnds s t n 0 ∧ t.bit (CONV_CAL_STAT n) ⟨18, 18⟩ = true
      ∧ (∀ a ∈ mask,
        let tot := ((List.range 64).map fun k => (d a k).sx).sum
        t.fld (CONV_ADC_CORR n a) ⟨15, 0⟩ = uns 16 (rneDiv tot 4096)
        ∧ (∀ k < 64, t.fld (CONV_SLICE_CORR n a k) ⟨15, 0⟩ = uns 16 (rneDiv (64 * (d a k).sx - tot) 4096))
        ∧ Spec.gains t n a (fun k => ampOf (d a k) (Spec.sums (s.engS n).tone a k)) amp
        ∧ (let spur := spurOf (s.engSr n) (s.fld (CONV_CAL_TONE n) CONV_CAL_TONE_FREQ) (Spec.corrected s t n a)
          t.fld (CONV_CAL_SPUR n a) CONV_CAL_SPUR_SPUR = uns 16 spur ∧ t.bit (CONV_CAL_STAT n) ⟨8 + a, 8 + a⟩ = decide (spur ≤ -450)))
      ∧ Only s t (fun b => b = CONV_CAL_STAT n ∨ ∃ a ∈ mask, b = CONV_ADC_CORR n a ∨ b = CONV_CAL_SPUR n a
          ∨ (CONV_SLICE_CORR n a 0 ≤ b ∧ b < CONV_SLICE_CORR n a 64)) fun u => { u with eng := [], drn := [], fresh := 0 })

/-- Record length and post-trigger count in use (R111). -/
def Spec.recLen (s : State) (n : Eng) : Nat :=
  let l := s.fld (CAP_LEN n) CAP_LEN_L
  if l = 0 then 2 ^ 20 else min (2 ^ 20) (max 256 (l / 256 * 256))
def Spec.postLen (s : State) (n : Eng) : Nat := min (Spec.recLen s n) (s.fld (CAP_POST n) CAP_POST_T / 256 * 256)
/-- What a capture command of engine `n` may change. -/
def Spec.capFrame (s t : State) (A : List Nat) : Prop :=
  Only s t (fun a => a ∈ A) (fun u => { u with eng := [] })
def Spec.capRegs (n : Eng) : List Nat :=
  [CAP_CTL n, CAP_STAT n, CAP_TRIG_IDX n, CAP_PEND_IDX n, CAP_TSTAMP_LO n, CAP_TSTAMP_HI n, CAP_START n, CAP_COUNT n, CAP_TRIG_OVERRUN n]
/-- A trigger reaches the capture of engine `n` (R112, R114, R115); the time trigger fires once (R115). -/
def Spec.triggered (s t : State) (n : Eng) (src : Nat) : Prop :=
  let st := s.capState n
  let c : Cap := { (s.engS n).cap with timed := (s.engS n).cap.timed || src == 2 }
  let idx := c.written % Spec.recLen s n
  { t.engS n with cap := .init } = { s.engS n with cap := .init }
  ∧ if st = 1 ∨ st = 2 then t.capState n = 3 ∧ t.fld (CAP_STAT n) CAP_STAT_TRIG_SRC = src
      ∧ t.bit (CAP_STAT n) CAP_STAT_SHORT_PRE = (s.bit (CAP_STAT n) CAP_STAT_SHORT_PRE || st == 1)
      ∧ t.fld (CAP_TRIG_IDX n) CAP_TRIG_IDX_IDX = idx ∧ (t.engS n).cap = { c with trigAt := c.written }
      ∧ t.reg (CAP_TSTAMP_LO n) = BitVec.ofNat 32 s.stamp ∧ t.reg (CAP_TSTAMP_HI n) = BitVec.ofNat 32 (s.stamp / 2 ^ 32)
    else if st = 3 then
      if c.held = none then (t.engS n).cap = { c with held := some (BitVec.ofNat 2 src, idx) }
        ∧ t.fld (CAP_STAT n) CAP_STAT_PEND_SRC = src ∧ t.fld (CAP_PEND_IDX n) CAP_PEND_IDX_IDX = idx ∧ t.capState n = 3
      else t.reg (CAP_TRIG_OVERRUN n) = BitVec.ofNat 32 (min ((s.reg (CAP_TRIG_OVERRUN n)).toNat + 1) 0xFFFFFFFF) ∧ (t.engS n).cap = c
    else (t.engS n).cap = c ∧ ∀ a ∈ Spec.capRegs n, t.reg a = s.reg a
/-- What datapath words may change: the engine, its registers, events of drones, capture memory with what protects it, and the pin
TRIG_OUT. -/
def Spec.sampleFrame (s t : State) (n : Eng) : Prop :=
  Only s t (fun a => (0x1000000 + 0x80000 * n.val ≤ a ∧ a < 0x1080000 + 0x80000 * n.val) ∨ Spec.integrity a)
      (fun x => { x with eng := [], drn := [], mem := [], poison := [], ecc := .init, trigOut := 0 })
    ∧ (∀ m, m ≠ n.val → t.engS m = s.engS m) ∧ (∀ d, { t.drnS d with evpend := 0#16 } = { s.drnS d with evpend := 0#16 })
    ∧ BytesBut s t (fun k => 0x20000000 + n.val * 0x400000 ≤ k ∧ k < 0x20400000 + n.val * 0x400000)
/-- R110–R118: arming, triggers and the end of a capture. L and T are taken as the registers hold them (log 31), and DISARM goes before ARM (DEDUCED,
log 41). A command brings the datapath words since the engine's last one: while a
capture runs they go to the memory of the selected ADCs, in turn, modulo L. -/
def Obligations.Capture : Prop :=
  ∀ (s : State) (p : Party) (n : Eng) (v : W) (ws : List CapWord), s.Wf →
    let u := Spec.sampled s n ws
    let c := (u.engS n).cap
    let busy := (1 ≤ s.capState n ∧ s.capState n ≤ 3)
    let mine := fun (x t : State) => UnitBut State.engS x t n (fun e => { e with cap := .init })
    let past := fun (x : State) =>
      decide (2 ^ 47 ≤ (x.fld (CAP_TRIG_TIME_HI n) CAP_TRIG_TIME_HI_T * 2 ^ 32 + (x.reg (CAP_TRIG_TIME_LO n)).toNat + 2 ^ 48 - x.stamp) % 2 ^ 48)
    let due : Prop := (past u = true ∨ u.fld (CAP_TRIG_TIME_HI n) CAP_TRIG_TIME_HI_T * 2 ^ 32 + (u.reg (CAP_TRIG_TIME_LO n)).toNat = u.stamp)
      ∧ u.bit (CAP_CTL n) CAP_CTL_SRC_TIME = true ∧ (1 ≤ u.capState n ∧ u.capState n ≤ 3) ∧ c.timed = false
    (Spec.served s (CAP_CTL n) → v.getLsbD 30 = false →
      ((busy ∨ (s.engS n).calRun ≠ 0) → Gives (.capArm p n v) s fun t =>
        t.bit (CAP_STAT n) CAP_STAT_ARM_REFUSED = true ∧ t.capState n = s.capState n ∧ t.engS n = s.engS n
        ∧ OnlyRegsOf s t fun a => a = CAP_CTL n ∨ a = CAP_STAT n)
      ∧ (¬busy → (s.engS n).calRun = 0 → Gives (.capArm p n v) s fun t =>
        t.capState n = 1 ∧ t.bit (CAP_STAT n) CAP_STAT_PEND = false ∧ (t.engS n).cap = .init
        ∧ t.bit (CAP_STAT n) CAP_STAT_LATE = ((v &&& impOf (CAP_CTL n)).getLsbD CAP_CTL_SRC_TIME.lo && past s)
        ∧ t.reg (CAP_TRIG_IDX n) = 0 ∧ t.reg (CAP_PEND_IDX n) = 0 ∧ mine s t ∧ Spec.capFrame s t (Spec.capRegs n)))
    ∧ (Spec.served s (CAP_CTL n) → ∃ a b, exec (.capDisarm p n (v &&& 0x7FFFFFFF#32) []) s = .next a
        ∧ exec (.capArm p n (v &&& 0xBFFFFFFF#32)) a = .next b
        ∧ exec (.capArm p n (v ||| 0x40000000#32)) s = .next b ∧ exec (.capDisarm p n (v ||| 0x80000000#32) []) s = .next b)
    ∧ (Spec.served s (CAP_CTL n) → v.getLsbD 31 = false → Gives (.capDisarm p n v ws) s fun t =>
      t.capState n = 0 ∧ t.reg (CAP_CTL n) = v &&& 0x3FFFFFFF#32 &&& impOf (CAP_CTL n) ∧ (t.engS n).cap = { c with held := none }
      ∧ mine u t ∧ Spec.capFrame u t [CAP_CTL n, CAP_STAT n])
    ∧ (u.capState n = 1 → Spec.recLen u n - Spec.postLen u n ≤ c.written → Gives (.capPretriggerFull n ws) s fun t =>
      t.reg (CAP_STAT n) = setFld (u.reg (CAP_STAT n)) CAP_STAT_STATE 2 ∧ mine u t ∧ Spec.capFrame u t [CAP_STAT n])
    ∧ (¬(u.capState n = 1 ∧ Spec.recLen u n - Spec.postLen u n ≤ c.written) → exec (.capPretriggerFull n ws) s = .next u)
    ∧ (∀ (edge : Bool) (l : List (Eng × List CapWord)), Gives (.capTriggerPin edge l) s fun t =>
      ∀ m : Eng, ((∀ e ∈ l, e.1 ≠ m) → if s.bit (CAP_CTL m) CAP_CTL_SRC_PIN = true ∧ s.bit (CAP_CTL m) CAP_CTL_EDGE = !edge
        then Spec.triggered s t m 1 else t.engS m = s.engS m ∧ ∀ a ∈ Spec.capRegs m, t.reg a = s.reg a)
      ∧ ((s.bit (CAP_CTL m) CAP_CTL_SRC_PIN = false ∨ s.bit (CAP_CTL m) CAP_CTL_EDGE = edge) →
        t.engS m = s.engS m ∧ ∀ a ∈ Spec.capRegs m, t.reg a = s.reg a))
    ∧ (∀ edge : Bool, (∀ m : Eng, s.bit (CAP_CTL m) CAP_CTL_SRC_PIN = decide (m = n)) → s.bit (CAP_CTL n) CAP_CTL_EDGE = !edge →
      Gives (.capTriggerPin edge [(n, ws)]) s fun t => Spec.triggered u t n 1
        ∧ Only u t (fun a => a ∈ Spec.capRegs n) fun x => { x with eng := [], trigOut := 0 })
    ∧ (due → Gives (.capTriggerTime n ws) s fun t => Spec.triggered u t n 2 ∧ mine u t
      ∧ Only u t (fun a => a ∈ Spec.capRegs n) fun x => { x with eng := [], trigOut := 0 })
    ∧ (¬due → exec (.capTriggerTime n ws) s = .next u)
    ∧ (u.capState n = 3 → c.trigAt + Spec.postLen u n ≤ c.written → Gives (.capPosttriggerDone n ws) s fun t =>
      t.capState n = 4 ∧ t.bit (CAP_STAT n) CAP_STAT_PEND = c.held.isSome
      ∧ t.fld (CAP_COUNT n) CAP_COUNT_CNT = min c.written (Spec.recLen u n)
      ∧ t.fld (CAP_START n) CAP_START_IDX = (if Spec.recLen u n ≤ c.written then c.written % Spec.recLen u n else 0)
      ∧ (t.engS n).cap = { c with held := none } ∧ mine u t ∧ Spec.capFrame u t [CAP_STAT n, CAP_START n, CAP_COUNT n])
    ∧ (¬(u.capState n = 3 ∧ c.trigAt + Spec.postLen u n ≤ c.written) → exec (.capPosttriggerDone n ws) s = .next u)
    ∧ (Gives (.capPretriggerFull n ws) s fun t => Spec.sampleFrame s t n)
    ∧ (∀ w : CapWord, busy → s.inRun n = true → (s.engS n).cap.tail = none →
      Gives (.capPretriggerFull n [w]) s fun t =>
        let i := (s.engS n).cap.written % Spec.recLen s n
        (t.engS n).cap.written = (s.engS n).cap.written + 256
        ∧ t.fld (CAP_STAT n) CAP_STAT_WPTR = (i + 256) % Spec.recLen s n
        ∧ (s.fld (CAP_CTL n) CAP_CTL_POINT ≠ 1 → ∀ (a : Fin 4) (j : Fin 256), (s.fld (CAP_CTL n) CAP_CTL_MASK).testBit a = true →
          t.byte (capKey n (a * 0x100000 + i + j)) = (w.getD a []).getD j 0#8)
        ∧ BytesBut s t (fun k => ∃ a : Fin 4, (s.fld (CAP_CTL n) CAP_CTL_MASK).testBit a = true
          ∧ capKey n (a * 0x100000 + i) ≤ k ∧ k < capKey n (a * 0x100000 + i + 256))
        ∧ (s.bit (CAP_STAT n) CAP_STAT_LATE = true → s.bit (CAP_CTL n) CAP_CTL_SRC_TIME = true → (s.engS n).cap.timed = false →
          s.capState n ≠ 3 → t.capState n = 3 ∧ t.fld (CAP_STAT n) CAP_STAT_TRIG_SRC = 2))
    ∧ Gives .trigOutPulseEnd s fun t =>
      t = { s with trigOut := s.trigOut - 1, out := if s.trigOut = 1 then [.trigOut false] else [] }

/-! The receiver (05_receive_chain.md). -/

/-- R163, R166: RX_CTL, and power above and below threshold for DWELL, after the datapath words that a command brings. That RESTART in POWER does
not restart DWELL and that taps are reset in spite of FREEZE are the model's choices (log 69), how periods count log 28's. -/
def Obligations.ReceiverControl : Prop :=
  ∀ (s : State) (p : Party) (n : Eng) (v : W) (ws : List CapWord), s.Wf →
    let st := s.rxState n
    let u := Spec.sampled s n ws
    let line := s.reg (CONV_SEL n) &&& 0xFF#32 = 0#32
    let en := s.bit (RX_CTL n) RX_CTL_EN
    let taps := fun (t : State) => (t.engS n).rxp.taps = []
    let up := u.rxState n = 2 ∧ u.heldDwell n (u.engS n).rxp.above = true
    let low := 3 ≤ u.rxState n ∧ u.rxState n ≤ 6 ∧ u.heldDwell n (u.engS n).rxp.below = true
    (Spec.served s (RX_CTL n) →
      ((en = false ∨ st = 0) → Gives (.rxEnable p n v) s fun t => Spec.entered s t n (if line then 2 else 1)
        ∧ t.reg (RX_CTL n) = setFld (s.reg (RX_CTL n)) RX_CTL_EN 1 ∧ Spec.rxFrame s t n [RX_CTL n])
      ∧ (en = true → st ≠ 0 → v.getLsbD 1 = false → Gives (.rxEnable p n v) s fun t =>
        t.reg (RX_CTL n) = s.reg (RX_CTL n) ∧ OnlyRegsOf s t fun _ => False)
      ∧ (Gives (.rxDisable p n v) s fun t => t.reg (RX_CTL n) = setFld (s.reg (RX_CTL n)) RX_CTL_EN 0
        ∧ Spec.rxFrame s t n [RX_CTL n] ∧ Spec.entered s t n 0
        ∧ (st ≠ 0 → t.bit (RX_STAT n) RX_STAT_OH_LOCK = false ∧ t.bit (ENG_SF_OFS n) ENG_SF_OFS_VALID = false))
      ∧ (en = true → v.getLsbD 0 = true → 2 ≤ st → Gives (.rxRestart p n v) s fun t => Spec.entered s t n 2
        ∧ taps t ∧ t.reg (RX_CD_EST n) = 0 ∧ Spec.rxFrame s t n [RX_CTL n])
      ∧ (en = true → v.getLsbD 0 = true → st = 1 → Gives (.rxRestart p n v) s fun t => OnlyRegsOf s t fun _ => False)
      ∧ exec (.rxEnable p n (v ||| 2#32)) s = exec (.rxRestart p n (v ||| 1#32)) s
      ∧ exec (.rxRestart p n (v &&& ~~~1#32)) s = exec (.rxDisable p n v) s)
    ∧ (up → Gives (.rxPowerQualified n ws) s fun t => Spec.entered u t n 3 ∧ t.reg (RX_CD_EST n) = 0 ∧ Spec.rxFrame u t n [])
    ∧ (¬up → exec (.rxPowerQualified n ws) s = .next u)
    ∧ (low → Gives (.rxPowerLost n ws) s fun t => Spec.entered u t n 2 ∧ taps t ∧ Spec.rxFrame u t n [])
    ∧ (¬low → exec (.rxPowerLost n ws) s = .next u)

/-- The index of a best metric of a list: the earliest of the largest (R150). -/
def Spec.isBest (l : List Nat) (i : Nat) : Prop :=
  i < l.length ∧ (∀ x ∈ l, x ≤ l.getD i 0) ∧ ∀ x ∈ l.take i, x < l.getD i 0
/-- Bound E on symbol errors (R164). -/
def Spec.errBound (s : State) (n : Eng) : Nat := min 32 (s.fld (RX_ACQ_SYNC n) RX_ACQ_SYNC_E)
/-- The step and half-width of the coarse pass (R150). -/
def Spec.scanStep (s : State) (n : Eng) : Nat := 10 * max 1 (s.fld (RX_CD_SCAN n) RX_CD_SCAN_STEP)
def Spec.scanHalf (s : State) (n : Eng) : Nat := s.fld (RX_CD_SCAN n) RX_CD_SCAN_RANGE * 1000 / Spec.scanStep s n
/-- The trials of a pass of the scan that are done: D in 1/8 ps/nm and metric. -/
def Spec.trials (s : State) (n : Eng) (fine : Bool) : List (Int × Nat) :=
  ((s.engS n).rxp.scan.filter fun t => t.1 == fine).map fun t => t.2
/-- What an expected position may change: the receiver's state and what it follows, and what the superframes demapped and deframed count. -/
def Spec.posFrame (s t : State) (n : Eng) : Prop :=
  Only s t (fun a => a ∈ [RX_STAT n, RX_FREQ n, RX_CD_EST n, ENG_SF_OFS n, GLO_HINT_RX n, POOL_MIRROR_STAT, FC_STAT, RX_SYNCQ_SF n,
      RX_REPLACE_CNT n, RX_LOCK_LOSS_CNT n, GAIT_STAT n, RX_DM_ERR_CNT n, GLO_STAT n, GLO_SAT_CNT n] ∨ (0x600100 ≤ a ∧ a < 0x600260))
      (fun x => { x with eng := [], drn := [], col := .init, pwr := .init, cnt := .init })
    ∧ UnitBut State.engS s t n (fun e => { e with acq := .init, oh := .init, uncSf := 0, rxp := .init })
    ∧ ∀ d, { t.drnS d with evpend := 0#16 } = { s.drnS d with evpend := 0#16 }
/-- R150, R164–R170, R173: the scan, the hunt, the candidate and the following of the sync word, after the datapath words that a command
brings. Ties, what a dB value without a logarithm reads, and when a register acts are as log 28 has them, and an epoch is compared with the one last observed (DEDUCED, log 49); the period whose power is the
superframe's is the model's choice (log 69), and a fine trial that is no whole number of ps/nm is left between its neighbours (log 3). -/
def Obligations.ReceiverAcquisition : Prop :=
  ∀ (s : State) (n : Eng) (ws : List CapWord), s.Wf →
    let u := Spec.sampled s n ws
    let st := u.rxState n
    let acq := (u.engS n).acq
    let r := (u.engS n).rxp
    let dwell := if acq.rconv then u.fld (RX_ACQ_SYNC n) RX_ACQ_SYNC_RCONV else u.fld (RX_ACQ_TIME n) RX_ACQ_TIME_CONV
    let k := Spec.scanHalf u n
    let coarse := Spec.trials u n false
    let fine := Spec.trials u n true
    (fine = [] → coarse.length < 2 * k + 1 → u.scanTrial n = (false,
      8 * (sgn 24 (u.fld (RX_CD_SCAN_CTR n) RX_CD_SCAN_CTR_CENTRE) + ((coarse.length : Int) - k) * Spec.scanStep u n)))
    ∧ (∀ c : Nat, (fine ≠ [] ∨ 2 * k + 1 ≤ coarse.length) → Spec.isBest (coarse.map fun t => t.2) c →
      u.scanTrial n = (true, (coarse.getD c (0, 0)).1 + ((fine.length : Int) - 8) * Spec.scanStep u n))
    ∧ (∀ c m : Nat, st = 3 → 17 ≤ fine.length → Spec.isBest (coarse.map fun t => t.2) c → Spec.isBest (fine.map fun t => t.2) m →
      let d8 := (fine.getD m (0, 0)).1
      Gives (.cdScanComplete n ws) s fun t => Spec.entered u t n 4 ∧ Only u t
          (fun a => a = RX_STAT n ∨ a = RX_CD_EST n) (fun x => { x with eng := [], drn := [], fresh := 0 })
        ∧ t.bit (RX_CD_EST n) RX_CD_EST_VALID = true ∧ (t.engS n).acq.repl = false
        ∧ (d8 % 8 = 0 → t.fld (RX_CD_EST n) RX_CD_EST_EST = uns 24 (d8 / 8))
        ∧ (d8 % 8 ≠ 0 → t.fld (RX_CD_EST n) RX_CD_EST_EST = uns 24 (d8 / 8) ∨ t.fld (RX_CD_EST n) RX_CD_EST_EST = uns 24 (d8 / 8 + 1))
        ∧ t.bit (RX_STAT n) RX_STAT_CD_EDGE = (u.bit (RX_STAT n) RX_STAT_CD_EDGE || c == 0 || c + 1 == coarse.length))
    ∧ (¬(st = 3 ∧ 17 ≤ fine.length) → exec (.cdScanComplete n ws) s = .next u)
    ∧ (st = 4 → u.elapsed n acq.conv0 dwell = true → Gives (.convergeDwellEnd n ws) s fun t =>
      Spec.entered u t n 5 ∧ Spec.rxFrame u t n [])
    ∧ (¬(st = 4 ∧ u.elapsed n acq.conv0 dwell = true) → exec (.convergeDwellEnd n ws) s = .next u)
    ∧ (let e := Spec.errBound u n
      let t0 := r.firstHeld r.seen
      (∀ q b, st = 5 → t0 ≤ q → q < r.symN → r.hitAt e q = some b → (∀ i, t0 ≤ i → i < q → r.hitAt e i = none) →
        Gives (.syncHit n ws) s fun t => Spec.entered u t n 6
          ∧ (t.engS n).acq.pos = q ∧ (t.engS n).acq.out1 = b.2.1 ∧ (t.engS n).acq.count = 1 ∧ Spec.rxFrame u t n [])
      ∧ (st = 5 → (∀ i, t0 ≤ i → i < r.symN → r.hitAt e i = none) → Gives (.syncHit n ws) s fun t =>
        UnitBut State.engS u t n (fun x => { x with rxp := { x.rxp with seen := 0 } }) ∧ Only u t (fun _ => False) fun x => { x with eng := [] })
      ∧ (st ≠ 5 → exec (.syncHit n ws) s = .next u))
    ∧ (let hunts := (st = 5 ∨ st = 6 ∨ (st = 4 ∧ acq.repl = true))
        ∧ u.elapsed n (if acq.repl then acq.conv0 else acq.hunt0) (if acq.repl then 50 else acq.limit) = true
      (hunts → acq.repl = true → Gives (.huntLimitExpiry n ws) s fun t => Spec.entered u t n 3
        ∧ t.bit (RX_STAT n) RX_STAT_REPLACE_SLOW = true ∧ (t.engS n).acq.repl = false ∧ Spec.rxFrame u t n [])
      ∧ (hunts → acq.repl = false → Gives (.huntLimitExpiry n ws) s fun t => Spec.entered u t n 2
        ∧ t.bit (RX_STAT n) RX_STAT_ACQ_FAIL = true
        ∧ t.reg (RX_ACQ_FAIL_CNT n) = BitVec.ofNat 32 (min ((u.reg (RX_ACQ_FAIL_CNT n)).toNat + 1) 0xFFFFFFFF)
        ∧ (u.bit (RX_STAT n) RX_STAT_ACQ_FAIL = false → Told u t (0x109 + 16 * n) 0x0A 0 0)
        ∧ Spec.rxFrame u t n [RX_ACQ_FAIL_CNT n])
      ∧ (¬hunts → exec (.huntLimitExpiry n ws) s = .next u))
    ∧ ((st < 6 ∨ u.syncReady n = false ∨ u.syncObs n = none) → exec (.expectedPosition n ws) s = .next u)
    ∧ ∀ o : SyncObs, u.syncReady n = true → u.syncObs n = some o →
      let hit := o.errs ≤ Spec.errBound u n
      let ep := if o.y0 < o.y1 then false else if o.y1 < o.y0 then true else u.bit (GAIT_STAT n) GAIT_STAT_EPOCH_RX
      let replaced := acq.pref.elim False fun q => q ^ 100 * 10 ^ u.fld (RX_ACQ_SYNC n) RX_ACQ_SYNC_STEP < r.power ^ 100
      (6 ≤ st → Gives (.expectedPosition n ws) s fun t => Spec.posFrame u t n
        ∧ t.fld (RX_STAT n) RX_STAT_SYNC_ERR = min o.errs 255 ∧ (t.engS n).acq.peak = o.peak)
      ∧ (st = 6 → hit → acq.count < 3 → Gives (.expectedPosition n ws) s fun t =>
        t.rxState n = 6 ∧ (t.engS n).acq.pos = acq.pos + 65536 ∧ (t.engS n).acq.count = acq.count + 1)
      ∧ (st = 6 → hit → 3 ≤ acq.count → Gives (.expectedPosition n ws) s fun t => Spec.entered u t n 7
        ∧ t.bit (RX_STAT n) RX_STAT_POL_SWAP = acq.out1 ∧ t.fld (RX_STAT n) RX_STAT_ROT = o.rot % 4
        ∧ t.bit (GAIT_STAT n) GAIT_STAT_EPOCH_RX = ep ∧ (t.engS n).acq.pos = acq.pos + 65536
        ∧ (ep ≠ u.bit (GAIT_STAT n) GAIT_STAT_EPOCH_RX → t.bit (GAIT_STAT n) GAIT_STAT_EPOCH_MISMATCH = true
          ∧ Told u t (0x10D + 16 * n) 0x0C 3 (u.fld (ENG_SF_RX n) ENG_SF_RX_COUNT)))
      ∧ (st = 6 → ¬hit → Gives (.expectedPosition n ws) s fun t => o.peak.elim (Spec.entered u t n 5) fun k =>
        t.rxState n = 6 ∧ (t.engS n).acq.pos = k.1 ∧ (t.engS n).acq.out1 = k.2.1 ∧ (t.engS n).acq.count = 1)
      ∧ (st = 7 → hit → Gives (.expectedPosition n ws) s fun t => t.rxState n = 7 ∧ (t.engS n).acq.miss = 0
        ∧ (t.engS n).acq.pos = acq.pos + 65536 ∧ t.fld (RX_STAT n) RX_STAT_ROT = o.rot % 4
        ∧ t.reg (RX_SYNCQ_SF n) = BitVec.ofNat 32 (0x80000000 + u.fld (ENG_SF_RX n) ENG_SF_RX_COUNT)
        ∧ (t.engS n).acq.qpwr = u.syncPower n (acq.pos + 65536)
        ∧ (t.engS n).acq.qsnr = u.syncSnr n (acq.pos + 65536) o ∧ (t.engS n).acq.snrs = (some (u.syncSnr n (acq.pos + 65536) o) :: acq.snrs).take 8
        ∧ (t.engS n).acq.pref = some r.power)
      ∧ (st = 7 → ¬hit → replaced → Gives (.expectedPosition n ws) s fun t => Spec.entered u t n 4
        ∧ t.bit (RX_STAT n) RX_STAT_SIGNAL_REPLACED = true ∧ (t.engS n).acq.repl = true ∧ (t.engS n).rxp.taps = []
        ∧ t.reg (RX_REPLACE_CNT n) = BitVec.ofNat 32 (min ((u.reg (RX_REPLACE_CNT n)).toNat + 1) 0xFFFFFFFF))
      ∧ (st = 7 → ¬hit → ¬replaced → 7 ≤ acq.miss → Gives (.expectedPosition n ws) s fun t => Spec.entered u t n 4
        ∧ t.bit (RX_STAT n) RX_STAT_LOCK_LOST = true
        ∧ t.reg (RX_LOCK_LOSS_CNT n) = BitVec.ofNat 32 (min ((u.reg (RX_LOCK_LOSS_CNT n)).toNat + 1) 0xFFFFFFFF))
      ∧ (st = 7 → ¬hit → ¬replaced → acq.miss < 7 → Gives (.expectedPosition n ws) s fun t =>
        t.rxState n = 7 ∧ (t.engS n).acq.miss = acq.miss + 1 ∧ (t.engS n).acq.pos = acq.pos + 65536)

/-- The ten nibbles of an ADJUST message (R157): start, slot, code 1, the value most significant first, and their xor. -/
def Spec.adjust (slot : Nat) (v : Int) : List (BitVec 4) :=
  let w := BitVec.ofInt 24 v
  let b : List (BitVec 4) := [BitVec.ofNat 4 slot, 1#4, w.extractLsb' 20 4, w.extractLsb' 16 4, w.extractLsb' 12 4, w.extractLsb' 8 4,
    w.extractLsb' 4 4, w.extractLsb' 0 4]
  0#4 :: b ++ [b.foldl (· ^^^ ·) 0#4]
/-- R153, R154, R156, R157, R173: the quality registers, laser feedback and the equaliser's snapshot. RESET goes before SNAP (DEDUCED, log 41), the
quality words are latched for each party (DEDUCED, log 60), and the unit centre is 0x4000 (DEDUCED, log 64). -/
def Obligations.ReceiverFeedback : Prop :=
  ∀ (s : State) (p : Party) (n : Eng) (v : W), s.Wf →
    (Spec.served s (RX_SYNCQ_SF n) → Gives (.rxSyncqRead p n) s fun t => t.out = [.read p (s.reg (RX_SYNCQ_SF n))]
      ∧ t.latched p (RX_SYNCQ_PWR n) = (s.engS n).acq.qpwr.setWidth 32 ∧ t.latched p (RX_SYNCQ_SNR n) = (s.engS n).acq.qsnr.setWidth 32
      ∧ (∀ q b, (q, b) ≠ (p, RX_SYNCQ_PWR n) → (q, b) ≠ (p, RX_SYNCQ_SNR n) → b < 2 ^ 32 → t.latched q b = s.latched q b)
      ∧ Only s t (fun _ => False) fun u => { u with latch := [] })
    ∧ (∀ l : List (Eng × List CapWord),
      let u := (Op.each l fun e => Op.adcIn e.1 e.2).run s.quiet
      let due := (List.finRange 48).filter fun m : Eng => (l.any fun e => e.1 == m) && u.tuneDue m
      let msg := fun m : Eng =>
        let w := u.reg (RX_TUNE_CFG m)
        let r := (u.engS m).rxp
        let x := rneDiv ((getFld w RX_TUNE_CFG_GAIN : Int) * r.tsum * 1000) (256 * 2 ^ 44 * (max r.tcnt 1 : Nat))
        let y := max (-(getFld w RX_TUNE_CFG_MAX_STEP : Int)) (min (getFld w RX_TUNE_CFG_MAX_STEP) x)
        if bitFld w RX_TUNE_CFG_EN = true ∧ 4 ≤ u.rxState m ∧ getFld w RX_TUNE_CFG_DEADBAND ≤ y.natAbs
            ∧ (∃ i < 12, u.inRun (12 * (m.val / 12) + i) = true) then
          [Output.tune (m.val / 12) (Spec.adjust (m.val % 12) y ++ [15#4, 15#4])] else []
      Gives (.tunePeriodEnd l) s fun t => t.out = u.out ++ due.flatMap msg
        ∧ (∀ m ∈ due, t.engS m = { u.engS m with rxp := { (u.engS m).rxp with tsum := 0, tcnt := 0, tune0 := (u.engS m).rxp.wordN } })
        ∧ (∀ m : Eng, m ∉ due → t.engS m = u.engS m) ∧ Only u t (fun _ => False) fun x => { x with eng := [] })
    ∧ (Spec.served s (RX_EQ_CTL n) → v.getLsbD 2 = false → Gives (.eqReset p n v) s fun t =>
      t.bit (RX_EQ_CTL n) RX_EQ_CTL_FREEZE = v.getLsbD 0 ∧ (t.engS n).rxp = { (s.engS n).rxp with taps := [] }
      ∧ UnitBut State.engS s t n (fun e => { e with rxp := .init }) ∧ Only s t (fun a => a = RX_EQ_CTL n) fun u => { u with eng := [] })
    ∧ (Spec.served s (RX_EQ_CTL n) → exec (.eqReset p n (v ||| 4#32)) s = exec (.eqSnap p n (v ||| 2#32) []) s)
    ∧ (∀ ws : List CapWord, Spec.served s (RX_EQ_CTL n) → v.getLsbD 1 = false → Gives (.eqSnap p n v ws) s fun t =>
      let u := Spec.sampled s n ws
      let nt := u.fld (RX_EQ_CFG n + 0x4000) RX_EQ_CFG_NTAPS
      let taps := if v.getLsbD 0 = false ∧ u.rxState n < 4 then [] else (u.engS n).rxp.taps
      t.bit (RX_EQ_CTL n) RX_EQ_CTL_FREEZE = v.getLsbD 0 ∧ (t.engS n).rxp = { (u.engS n).rxp with taps := taps }
      ∧ (∀ (f : Fin 4) (i : Fin 63), t.reg (RX_EQ_TAP n f i) = if nt ≤ i.val then 0#32
        else if taps = [] then (if (f = 0 ∨ f = 3) ∧ i.val = (nt - 1) / 2 then 0x4000#32 else 0#32)
        else BitVec.ofInt 16 (taps.getD (63 * f + i) (0, 0)).2 ++ BitVec.ofInt 16 (taps.getD (63 * f + i) (0, 0)).1)
      ∧ UnitBut State.engS u t n (fun e => { e with rxp := .init })
      ∧ Only u t (fun a => a = RX_EQ_CTL n ∨ (RX_EQ_TAP n 0 0 ≤ a ∧ a ≤ RX_EQ_TAP n 3 62)) fun x => { x with eng := [] })

/-! Glohiord and the decoder pool (06_glohiord_engine.md, 07_decoder_pool.md). -/

/-- The neighbours of an engine in the order of R184: n - 2, n - 1, n + 1, n + 2. -/
def Spec.neighbour (n : Eng) (j : Fin 4) : Option Nat :=
  let m : Int := (n.val : Int) + (if j = 0 then -2 else if j = 1 then -1 else if j = 2 then 1 else 2)
  if 0 ≤ m ∧ m < 48 then some m.toNat else none
/-- Neighbour `m` is usable by engine `n` on a side (R185), unless it is under test (R456); the edge between their tiles carries it. -/
def Spec.usable (s : State) (n : Eng) (rx : Bool) (m : Nat) : Bool :=
  ((s.stS m).run.elim true fun g => g.kind != 0) && (if rx then s.rxState m == 7 && s.engSr m == s.engSr n
    else s.bit (TX_STAT m) TX_STAT_ON && (s.gait m (s.txAct m)).rate == (s.gait n (s.txAct n)).rate)
    && (m / 8 == n.val / 8 || !(s.edgeS (if m < n.val then 2 * (m / 8) + 1 else 2 * (n.val / 8))).down)
/-- The pattern of usable neighbours of a side. -/
def Spec.pattern (s : State) (n : Eng) (rx : Bool) : Nat :=
  ((List.finRange 4).map fun j => ((Spec.neighbour n j).elim 0 fun m => if Spec.usable s n rx m then 2 ^ j.val else 0)).sum
/-- A superframe whose output saturated sets SAT and counts once (R191). -/
def Spec.saturated (s t : State) (n : Eng) : Prop :=
  t.reg (GLO_STAT n) = setFld (s.reg (GLO_STAT n)) GLO_STAT_SAT 1
    ∧ t.reg (GLO_SAT_CNT n) = BitVec.ofNat 32 (min ((s.reg (GLO_SAT_CNT n)).toNat + 1) 0xFFFFFFFF)
    ∧ Only s t (fun a => a = GLO_STAT n ∨ a = GLO_SAT_CNT n) fun u => { u with eng := [] }
/-- R184, R185, R188, R190–R194, R197: seen patterns, term descriptors, saturation, and the pages of the library. A neighbour that is usable no more
is absent from a symbol of the superframe in progress on, which one is left open (log 27); when the pattern changes the command tells (log 40). -/
def Obligations.GlohiordStage : Prop :=
  ∀ (s : State) (p : Party) (n : Eng) (v : W), s.Wf →
    (∀ rx : Bool,
      let seen := s.fld (GLO_OCC n) (if rx then GLO_OCC_RX_SEEN else GLO_OCC_TX_SEEN)
      let new := Spec.pattern s n rx
      (seen = new → Gives (.seenPatternChange n rx) s fun t => Unchanged s t)
      ∧ (seen ≠ new → Gives (.seenPatternChange n rx) s fun t =>
        t.fld (GLO_OCC n) (if rx then GLO_OCC_RX_SEEN else GLO_OCC_TX_SEEN) = new
        ∧ (∀ j : Fin 4, t.bit (GLO_HWOFS n (if rx then 1 else 0) j) GLO_HWOFS_VALID = new.testBit j)
        ∧ (s.bit (GLO_CFG n) (if rx then GLO_CFG_EV_RX else GLO_CFG_EV_TX) = true → s.gloHeld n rx = false →
          (t.drnS n).evpend.getLsbD (if rx then 4 else 3) = true)
        ∧ (s.bit (GLO_CFG n) (if rx then GLO_CFG_EV_RX else GLO_CFG_EV_TX) = true → s.gloHeld n rx = true →
          (if rx then (t.engS n).occRx else (t.engS n).occTx) = true ∧ t.drnS n = s.drnS n)
        ∧ (∀ (j : Fin 4) (g : GloRec), s.gloCur n rx = some g → (g.nbr.getD j none).isSome →
          (Spec.neighbour n j).elim false (Spec.usable s n rx) = false →
          ∃ g', t.gloCur n rx = some g' ∧ (g'.gone.any fun x => x.1 == j.val) = true)
        ∧ UnitBut State.engS s t n (fun e => { e with occTx := false, occRx := false, sfs := [], rxp := { e.rxp with sfs := [] } })
        ∧ UnitBut State.drnS s t n (fun e => { e with evpend := 0 })
        ∧ Only s t (fun a => a = GLO_OCC n ∨ ∃ j : Fin 4, a = GLO_HWOFS n (if rx then 1 else 0) j)
            fun u => { u with eng := [], drn := [], fresh := 0 }))
    ∧ (∀ (side : Fin 2) (k : Fin 128), Spec.served s (GLO_TERM n side k) →
      let on := if side = 1 then s.fld (RX_MODE n + 0x4000) RX_MODE_GLO = 1 else s.fld (TX_MODE n + 0x4000) TX_MODE_GLO = 1
      let bad := 5 ≤ getFld v GLO_TERM_SRC_A ∨ 5 ≤ getFld v GLO_TERM_SRC_B ∨ 5 ≤ getFld v GLO_TERM_SRC_C
      Gives (.gloTermWrite p n side k v) s fun t =>
        (on → t.reg (GLO_STAT n) = setFld (s.reg (GLO_STAT n)) GLO_STAT_TERM_REFUSED 1 ∧ OnlyRegsOf s t fun a => a = GLO_STAT n)
        ∧ (¬on → bad → t.reg (GLO_TERM n side k) = setFld v GLO_TERM_EN 0 &&& impOf (GLO_TERM n side k)
          ∧ t.reg (GLO_STAT n) = setFld (s.reg (GLO_STAT n)) GLO_STAT_TERM_REFUSED 1
          ∧ OnlyRegsOf s t fun a => a = GLO_STAT n ∨ a = GLO_TERM n side k)
        ∧ (¬on → ¬bad → t.reg (GLO_TERM n side k) = v &&& impOf (GLO_TERM n side k) ∧ OnlyRegsOf s t fun a => a = GLO_TERM n side k))
    ∧ (∀ r : SfRec, (s.engS n).sfs.find? (fun r => !r.sat && s.txSat n r) = some r →
      Gives (.gloOutputSaturation n false) s fun t => Spec.saturated s t n
        ∧ (t.engS n).sfs = (s.engS n).sfs.map (fun q => if q.gen = r.gen ∧ q.sn = r.sn then { q with sat := true } else q)
        ∧ UnitBut State.engS s t n fun e => { e with sfs := [] })
    ∧ (∀ r : RxSf, (s.engS n).rxp.sfs.find? (fun r => !r.sat && s.rxSat n r) = some r →
      Gives (.gloOutputSaturation n true) s fun t => Spec.saturated s t n
        ∧ (t.engS n).rxp.sfs = (s.engS n).rxp.sfs.map (fun q => if q.cnt = r.cnt then { q with sat := true } else q)
        ∧ UnitBut State.engS s t n fun e => { e with rxp := { e.rxp with sfs := [] } })
    ∧ ((s.engS n).sfs.find? (fun r => !r.sat && s.txSat n r) = none → Gives (.gloOutputSaturation n false) s fun t => Unchanged s t)
    ∧ ((s.engS n).rxp.sfs.find? (fun r => !r.sat && s.rxSat n r) = none → Gives (.gloOutputSaturation n true) s fun t => Unchanged s t)
    ∧ (Spec.served s (GLO_PAGE_CTL n) →
      let g := getFld v GLO_PAGE_CTL_PAGE
      let isOpen := s.bit (GLO_PAGE_STAT n) GLO_PAGE_STAT_IS_OPEN
      let cur := s.fld (GLO_PAGE_STAT n) GLO_PAGE_STAT_PAGE
      let refuse := isOpen = true ∨ gloPage (s.reg (GLO_SEL n + 0x4000)) false = g ∨ gloPage (s.reg (GLO_SEL n + 0x4000)) true = g
        ∨ (s.pendBlk n 6 = true ∧ gloPage (s.reg (GLO_SEL n)) false = g) ∨ (s.pendBlk n 7 = true ∧ gloPage (s.reg (GLO_SEL n)) true = g)
      (v.getLsbD 30 = false → refuse → Gives (.pageOpen p n v) s fun t => t.reg (GLO_PAGE_CTL n) = v &&& 0x7FF#32
        ∧ t.reg (GLO_PAGE_STAT n) = setFld (s.reg (GLO_PAGE_STAT n)) GLO_PAGE_STAT_OPEN_REFUSED 1
        ∧ OnlyRegsOf s t fun a => a = GLO_PAGE_CTL n ∨ a = GLO_PAGE_STAT n)
      ∧ (v.getLsbD 30 = false → ¬refuse → Gives (.pageOpen p n v) s fun t => t.reg (GLO_PAGE_CTL n) = v &&& 0x7FF#32
        ∧ t.bit (GLO_PAGE_STAT n) GLO_PAGE_STAT_IS_OPEN = true ∧ t.fld (GLO_PAGE_STAT n) GLO_PAGE_STAT_PAGE = g
        ∧ t.reg (GLO_PAGE_VALID n (g / 32)) = s.reg (GLO_PAGE_VALID n (g / 32)) &&& ~~~(1#32 <<< (g % 32))
        ∧ OnlyRegsOf s t fun a => a = GLO_PAGE_CTL n ∨ a = GLO_PAGE_STAT n ∨ a = GLO_PAGE_VALID n (g / 32))
      ∧ (v.getLsbD 31 = false → isOpen = true → Gives (.pageClose p n v) s fun t => t.reg (GLO_PAGE_CTL n) = v &&& 0x7FF#32
        ∧ t.bit (GLO_PAGE_STAT n) GLO_PAGE_STAT_IS_OPEN = false
        ∧ t.reg (GLO_PAGE_VALID n (cur / 32)) = s.reg (GLO_PAGE_VALID n (cur / 32)) ||| (1#32 <<< (cur % 32))
        ∧ OnlyRegsOf s t fun a => a = GLO_PAGE_CTL n ∨ a = GLO_PAGE_STAT n ∨ a = GLO_PAGE_VALID n (cur / 32))
      ∧ (v.getLsbD 31 = false → isOpen = false → Gives (.pageClose p n v) s fun t =>
        t.reg (GLO_PAGE_CTL n) = v &&& 0x7FF#32 ∧ OnlyRegsOf s t fun a => a = GLO_PAGE_CTL n)
      ∧ ∃ a b, exec (.pageClose p n (v &&& 0x7FFFFFFF#32)) s = .next a ∧ exec (.pageOpen p n (v &&& 0xBFFFFFFF#32)) a = .next b
        ∧ exec (.pageOpen p n (v ||| 0x40000000#32)) s = .next b ∧ exec (.pageClose p n (v ||| 0x80000000#32)) s = .next b)
    ∧ ∀ (page : Fin 2048) (k : Fin 128), s.pwr.dead = false → s.domState n < 3 → (s.stS n).run = none →
      let key := 0x10180000 + 0x400000 * n.val + 0x200 * page.val + 4 * k.val
      if s.bit (GLO_PAGE_STAT n) GLO_PAGE_STAT_IS_OPEN = true ∧ s.fld (GLO_PAGE_STAT n) GLO_PAGE_STAT_PAGE = page then
        Gives (.kernelPageWrite p n page k v) s fun t => t.word key = v ∧ BytesBut s t (fun a => key ≤ a ∧ a < key + 4)
          ∧ Only s t Spec.integrity fun u => { u with mem := [], poison := [], ecc := .init }
      else Gives (.kernelPageWrite p n page k v) s fun t =>
        t.reg (GLO_STAT n) = setFld (s.reg (GLO_STAT n)) GLO_STAT_WRITE_DISCARDED 1
        ∧ t.reg (GLO_DISCARD_CNT n) = BitVec.ofNat 32 (min ((s.reg (GLO_DISCARD_CNT n)).toNat + 1) 0xFFFFFFFF)
        ∧ OnlyRegsOf s t fun a => a = GLO_STAT n ∨ a = GLO_DISCARD_CNT n

/-- The engines that receive a stream of edge link `k`: neighbours of its sender on the other side of the link (R184, R200). -/
def Spec.receivers (k : Fin 5) (up : Bool) (stream : Fin 4) : List Nat :=
  let sender := 8 * k.val + 6 + stream.val / 2 + (if up then 0 else 2)
  (if up then [8 * k.val + 8, 8 * k.val + 9] else [8 * k.val + 6, 8 * k.val + 7]).filter fun m => m ≤ sender + 2 ∧ sender ≤ m + 2
/-- R200: a group of a stream over an edge link, judged by its CRC-16, and what takes a direction down and up; a link without power
carries none. The group comes with the command (log 40), and which groups failed stays known for the terms that read them (log 27). -/
def Obligations.EdgeLinks : Prop :=
  ∀ (s : State) (k : Fin 5) (up : Bool) (stream : Fin 4) (grp : Fin 2048) (bs : List Byte), s.Wf →
    let key := 2 * k.val + (if up then 1 else 0)
    let e := s.edgeS key
    let good := crc16 bs = 0
    let on := ∃ i : Fin 4, s.inRun (8 * k.val + 6 + i.val) = true
    let sender := 8 * k.val + 6 + stream.val / 2 + (if up then 0 else 2)
    let place := (if stream.val % 2 = 1 then s.fld (ENG_SF_RX sender) ENG_SF_RX_COUNT else s.fld (ENG_SF_TX sender) ENG_SF_TX_SN) * 2048 + grp
    let bad := if good then 0 else e.bad.getD stream 0 + 1
    let run := if good then min 64 (e.good.getD stream 0 + 1) else 0
    let falls := e.down = false ∧ 8 ≤ bad
    let back := e.down = true ∧ 64 ≤ run ∧ ∀ i : Fin 4, i ≠ stream → 64 ≤ e.good.getD i 0
    (¬on → Gives (.edgeGroupReceive k up stream grp bs) s fun t => Unchanged s t)
    ∧ (on → e.bad.length = 4 → e.good.length = 4 → Gives (.edgeGroupReceive k up stream grp bs) s fun t =>
      (∀ m : Eng, t.reg (GLO_EDGE_ERR_CNT m) = if ¬good ∧ m.val ∈ Spec.receivers k up stream
          then BitVec.ofNat 32 (min ((s.reg (GLO_EDGE_ERR_CNT m)).toNat + 1) 0xFFFFFFFF) else s.reg (GLO_EDGE_ERR_CNT m))
      ∧ (∀ m : Eng, t.reg (GLO_STAT m) = if ¬good ∧ m.val ∈ Spec.receivers k up stream
          then setFld (s.reg (GLO_STAT m)) GLO_STAT_EDGE_ERR 1 else s.reg (GLO_STAT m))
      ∧ (falls → t.edgeS key = { EdgeSt.init with down := true, fail := ((stream.val, place) :: e.fail).take 65536 }
        ∧ Begun s t (0x10 + k) 0x10 2 (if up then 1 else 0))
      ∧ (back → t.edgeS key = { EdgeSt.init with fail := e.fail } ∧ Ended s t (0x10 + k) 0x10 2 (if up then 1 else 0))
      ∧ (¬falls → ¬back → t.edgeS key = { e with
            bad := (e.bad.set stream bad).map (min 8), good := e.good.set stream run
            fail := if good then e.fail else ((stream.val, place) :: e.fail).take 65536 } ∧ t.col = s.col)
      ∧ (∀ j, j ≠ key → t.edgeS j = s.edgeS j)
      ∧ Only s t (fun a => a = FC_STAT ∨ ∃ m ∈ Spec.receivers k up stream, a = GLO_EDGE_ERR_CNT m ∨ a = GLO_STAT m)
          fun u => { u with edge := [], col := .init })

/-- A 32-bit count that stops at 0xFFFF_FFFF. -/
def Spec.counted (s t : State) (a k : Nat) : Prop := t.reg a = BitVec.ofNat 32 (min ((s.reg a).toNat + k) 0xFFFFFFFF)
/-- R220, R222, R224, R227, R231, R232, R237: a codeword decoded by its unit, the counters of an engine, and a unit in error. -/
def Obligations.DecodedCodewords : Prop :=
  ∀ (s : State) (p : Party) (n : Eng), s.Wf →
    let e := s.engS n
    (∀ (w : Nat) (m : Option MirrorCmp),
      ((s.cwDue n w = none ∨ ∃ r, s.cwDue n w = some r ∧ r.dec = []) → Gives (.codewordDecoded n w m) s fun t => Unchanged s t)
      ∧ ∀ (r : RxSf) (u : Nat), s.cwDue n w = some r → r.dec[w % r.dec.length]? = some u →
        let x := decodeCw r.g.oh (cwGather (e.rxp.of r.lk).sfs r.g w)
        let bits := cwBits r.g.oh
        let c := m.getD ⟨true, !x.synd⟩
        let compared := s.fld POOL_MIRROR_STAT POOL_MIRROR_STAT_STATE = 2 ∧ s.mir.target = u
          ∧ s.fld POOL_MIRROR_STAT POOL_MIRROR_STAT_COMPARED < 4096
          ∧ s.mir.since.elim True fun x => 1 ≤ (r.cnt - x).toNat ∧ (r.cnt - x).toNat < 2 ^ 23
        Gives (.codewordDecoded n w m) s fun t =>
        Spec.counted s t (FEC_CW n) 1 ∧ Spec.counted s t (FEC_LDPC_FAIL n) (if x.synd then 1 else 0)
        ∧ Spec.counted s t (FEC_BCH_UNCORR n) (if x.uncor then 1 else 0)
        ∧ Spec.counted s t (FEC_BCH_CORR n) (if x.uncor then 0 else x.bch)
        ∧ t.bit (FEC_STAT n) FEC_STAT_LDPC_FAIL = (s.bit (FEC_STAT n) FEC_STAT_LDPC_FAIL || x.synd)
        ∧ t.bit (FEC_STAT n) FEC_STAT_UNCORR = (s.bit (FEC_STAT n) FEC_STAT_UNCORR || x.uncor)
        ∧ (x.uncor = true → (t.engS n).uncSf = e.uncSf + 1 ∧ (t.engS n).ber = e.ber ∧ (t.engS n).fecErr = e.fecErr
          ∧ (t.engS n).fecBit = e.fecBit)
        ∧ (x.uncor = false → (t.engS n).fecErr = (e.fecErr + x.pre) % 2 ^ 64 ∧ (t.engS n).fecBit = (e.fecBit + bits) % 2 ^ 64
          ∧ (t.engS n).ber = (((e.ber.getD 0 (0, 0)).1 + x.pre, (e.ber.getD 0 (0, 0)).2 + bits) :: e.ber.drop 1)
          ∧ (t.engS n).uncSf = e.uncSf)
        ∧ (x.uncor = true → s.bit (FEC_STAT n) FEC_STAT_UNCORR = false → Told s t (0x10B + 16 * n) 0x14 3 (t.reg (FEC_CW n)).toNat)
        ∧ ((x.uncor = false ∨ s.bit (FEC_STAT n) FEC_STAT_UNCORR = true) → t.col = s.col)
        ∧ (t.engS n).rxp.cws = (⟨r.lk, w, w * r.g.cwLen / 125456, x.bits, x.uncor⟩ :: e.rxp.cws).take 512
        ∧ (compared → t.fld POOL_MIRROR_STAT POOL_MIRROR_STAT_COMPARED = s.fld POOL_MIRROR_STAT POOL_MIRROR_STAT_COMPARED + 1
          ∧ t.mir = { s.mir with same := s.mir.same && (c.same || (x.synd && c.sOk)) })
        ∧ (¬compared → t.mir = s.mir ∧ t.reg POOL_MIRROR_STAT = s.reg POOL_MIRROR_STAT)
        ∧ UnitBut State.engS s t n (fun x => { x with uncSf := 0, fecErr := 0, fecBit := 0, ber := [], rxp := { x.rxp with
            cws := [], sfs := [], deal := ⟨0, 0⟩, runs := [], clean := false } })
        ∧ Only s t (fun a => a ∈ [FEC_CW n, FEC_LDPC_FAIL n, FEC_BCH_UNCORR n, FEC_BCH_CORR n, RX_DM_ERR_CNT n, FEC_STAT n,
            POOL_MIRROR_STAT, FC_STAT]) fun u => { u with eng := [], cnt := .init, col := .init, mir := .init })
    ∧ (∀ (x : Bool) (inc : Nat), s.pwr.dead = false →
      let c := if x then e.fecBit else e.fecErr
      Gives (.fecCounterRead p n x inc) s fun t => t.out = [.read p (BitVec.ofNat 32 c)]
        ∧ t.latched p (if x then FEC_BITS_HI n else FEC_ERR_HI n) = BitVec.ofNat 32 (c / 2 ^ 32)
        ∧ (if x then (t.engS n).fecBit else (t.engS n).fecErr) = inc % 2 ^ 64
        ∧ UnitBut State.engS s t n (fun y => if x then { y with fecBit := 0 } else { y with fecErr := 0 })
        ∧ Only s t (fun _ => False) fun u => { u with eng := [], latch := [] })
    ∧ ∀ u : Fin 88, Gives (.decUnitError n u) s fun t => Told s t (0x10B + 16 * n) 0x16 2 u
      ∧ (s.bit FAR_CFG FAR_CFG_AUTO_UNIT = false → t.ecc = s.ecc)
      ∧ Only s t (fun a => a = FAR_STAT ∨ a = FC_STAT) fun x => { x with col := .init, ecc := { x.ecc with queue := [] } }

/-- The state of a decoder unit (R235). -/
def Spec.unit (s : State) (u : Nat) : Nat := s.fld (POOL_UNIT u) POOL_UNIT_STATE
/-- R226–R229: a unit becomes FREE; the mirror is started, aborted and ended. An aborted mirror shows STATE 3 (DESIGN CHOICE, log 69), and ABORT goes
before GO (DEDUCED, log 41). -/
def Obligations.DecoderUnits : Prop :=
  ∀ (s : State) (p : Party) (v : W), s.Wf →
    let tgt := getFld v POOL_MIRROR_CTL_TARGET
    let sp := getFld v POOL_MIRROR_CTL_SPARE
    let st := s.fld POOL_MIRROR_STAT POOL_MIRROR_STAT_STATE
    let err := if ¬(sp < 88 ∧ Spec.unit s sp = 0) then 1 else if ¬(tgt < 88 ∧ Spec.unit s tgt = 1) then 2
      else if st = 1 ∨ st = 2 then 3 else 0
    let since := ((s.engS (s.fld (POOL_UNIT tgt) POOL_UNIT_OWNER)).rxp.sfs.find? fun r => r.fed.isSome).map fun r => r.cnt
    (∀ u : Fin 88, (Spec.unit s u = 5 → Gives (.unitFree u) s fun t => Spec.unit t u = 0
        ∧ Only s t (fun a => a = POOL_UNIT u ∨ a = FC_STAT) fun x => { x with col := .init })
      ∧ (Spec.unit s u ≠ 5 → Gives (.unitFree u) s fun t => Unchanged s t))
    ∧ (s.pwr.dead = false → v.getLsbD 30 = false → err ≠ 0 → Gives (.mirrorGo p v) s fun t =>
      t.reg POOL_MIRROR_CTL = v &&& impOf POOL_MIRROR_CTL &&& 0x3FFFFFFF#32
      ∧ t.reg POOL_MIRROR_STAT = setFld (s.reg POOL_MIRROR_STAT) POOL_MIRROR_STAT_ERR err
      ∧ OnlyRegsOf s t fun a => a = POOL_MIRROR_CTL ∨ a = POOL_MIRROR_STAT)
    ∧ (s.pwr.dead = false → v.getLsbD 30 = false → err = 0 → s.inRun (52 + sp / 8) = true →
        (s.pwr.cmd.isSome ∨ (s.stw.waiting = false ∧ s.pwr.poolW = none)) → Gives (.mirrorGo p v) s fun t =>
      t.reg POOL_MIRROR_STAT = 0x80000000#32 ∧ Spec.unit t sp = 2 ∧ t.fld (POOL_UNIT sp) POOL_UNIT_OWNER = s.fld (POOL_UNIT tgt) POOL_UNIT_OWNER
      ∧ t.mir = ⟨s.fld (POOL_UNIT tgt) POOL_UNIT_OWNER, tgt, sp, true, false, since⟩
      ∧ Only s t (fun a => a = POOL_MIRROR_CTL ∨ a = POOL_MIRROR_STAT ∨ a = POOL_UNIT sp ∨ a = POOL_UNIT s.mir.spare ∨ a = FC_STAT)
          fun x => { x with mir := .init, col := .init })
    ∧ (s.pwr.dead = false → v.getLsbD 30 = false → err = 0 → s.inRun (52 + sp / 8) = false → Gives (.mirrorGo p v) s fun t =>
      Spec.unit t sp = 2 ∧ t.mir = ⟨s.fld (POOL_UNIT tgt) POOL_UNIT_OWNER, tgt, sp, true, false, since⟩
      ∧ (s.pwr.cmd.isSome → t.reg POOL_MIRROR_STAT = 0x40000000#32 ∧ t.pwr.poolW = some (52 + sp / 8)))
    ∧ (s.pwr.dead = false → v.getLsbD 31 = false → Gives (.mirrorAbort p v) s fun t =>
      (Spec.unit s s.mir.spare = 2 → t.fld POOL_MIRROR_STAT POOL_MIRROR_STAT_STATE = 3
        ∧ t.bit POOL_MIRROR_STAT POOL_MIRROR_STAT_ABORTED = true ∧ t.bit POOL_MIRROR_STAT POOL_MIRROR_STAT_PASS = false
        ∧ Spec.unit t s.mir.spare = 0 ∧ (t.drnS 52).evpend.getLsbD 12 = true)
      ∧ (Spec.unit s s.mir.spare ≠ 2 → OnlyRegsOf s t fun a => a = POOL_MIRROR_CTL)
      ∧ UnitBut State.drnS s t 52 (fun e => { e with evpend := 0 })
      ∧ Only s t (fun a => a = POOL_MIRROR_CTL ∨ a = POOL_MIRROR_STAT ∨ a = POOL_UNIT s.mir.spare ∨ a = FC_STAT)
          fun x => { x with drn := [], pwr := .init, col := .init })
    ∧ (s.ecc.job = none → st = 2 → s.fld POOL_MIRROR_STAT POOL_MIRROR_STAT_COMPARED = 4096 → Gives .mirrorDone s fun t =>
      t.reg POOL_MIRROR_STAT = setFld (setFld (s.reg POOL_MIRROR_STAT) POOL_MIRROR_STAT_STATE 3) POOL_MIRROR_STAT_PASS
        (if s.mir.same then 1 else 0)
      ∧ (t.drnS 52).evpend.getLsbD 12 = true ∧ UnitBut State.drnS s t 52 (fun e => { e with evpend := 0 })
      ∧ Only s t (fun a => a = POOL_MIRROR_STAT) fun x => { x with drn := [] })
    ∧ (s.ecc.job = none → (st ≠ 2 ∨ s.fld POOL_MIRROR_STAT POOL_MIRROR_STAT_COMPARED ≠ 4096) → Gives .mirrorDone s fun t => Unchanged s t)

/-! Client contexts (08_clients_and_delivery.md). -/

/-- An active or pending calendar entry names the context (R241). -/
def Spec.inCalendar (s : State) (c : Nat) : Prop :=
  ∃ n : Eng, ∃ i : Fin 320, ((s.reg (CAL_IN n i + 0x30000)).getLsbD 31 = true ∧ s.fld (CAL_IN n i + 0x30000) CAL_IN_CTX = c)
    ∨ ((s.reg (CAL_OUT n i + 0x30000)).getLsbD 31 = true ∧ s.fld (CAL_OUT n i + 0x30000) CAL_IN_CTX = c)
    ∨ (s.pendBlk n 13 = true ∧ (s.reg (CAL_IN n i)).getLsbD 31 = true ∧ s.fld (CAL_IN n i) CAL_IN_CTX = c)
    ∨ (s.pendBlk n 14 = true ∧ (s.reg (CAL_OUT n i)).getLsbD 31 = true ∧ s.fld (CAL_OUT n i) CAL_IN_CTX = c)
/-- A command of the mapper ended with a result (R266). -/
def Spec.cliErr (s t : State) (e : Nat) : Prop := t.reg CLI_CMD_STAT = setFld (s.reg CLI_CMD_STAT) CLI_CMD_STAT_ERR e
/-- A context enters a state, which signals line 12 of the mapper's drone (R241, R398). -/
def Spec.ctxEnters (s t : State) (c : Fin 4096) (st : Nat) : Prop :=
  t.reg (CTX_STAT c) = setFld (s.reg (CTX_STAT c)) CTX_STAT_STATE st ∧ (t.drnS 53).evpend = (s.drnS 53).evpend ||| (1#16 <<< 12)
    ∧ UnitBut State.drnS s t 53 (fun e => { e with evpend := 0 })
/-- No lane of the port of first lane `q` is in a loop that goes back to its own receiver (R285). -/
def Spec.noLoop (s : State) (h q : Nat) : Prop :=
  ∀ i, i < portLanes (s.reg (PORT_CFG h q)) → s.fld (LANE_CTL h (q + i)) LANE_CTL_LOOP = 0 ∨ s.fld (LANE_CTL h (q + i)) LANE_CTL_LOOP = 3
/-- No lane of the context's port, or of any PHY of its group, is. -/
def Spec.unlooped (s : State) (c : Nat) : Prop := ∀ k : Nat, Spec.noLoop s (s.phyOf (s.ctxPort c) k / 64) (s.phyOf (s.ctxPort c) k % 64)
/-- R241, R261, R265–R267: ADMIT, DRAIN, DELETE, an unknown OP, and the end of draining. That DRAINED is judged by RD and ACC is log 42's
(DEDUCED). -/
def Obligations.ContextCommands : Prop :=
  ∀ (s : State) (p : Party) (c : Fin 4096), s.Wf →
    let st := s.ctxState c
    let bad := fun (i : Instr) (e : Nat) => Gives i s fun t => Spec.cliErr s t e ∧ OnlyRegsOf s t fun a => a = CLI_CMD_STAT
    let moved := fun (t : State) => Only s t (fun a => a = CLI_CMD_STAT ∨ a = CTX_STAT c) fun u => { u with drn := [] }
    let zero := fun (t : State) => t.ctxS c = .init ∧ t.reg (CTX_LIM c) = 0 ∧ t.reg (CTX_ACC c) = 0
    let cleared := fun (t : State) (f : State → State) => zero t ∧ (∀ m, m ≠ c.val → t.ctxS m = s.ctxS m)
      ∧ Only s t (fun a => a ∈ [CLI_CMD_STAT, CTX_STAT c, CTX_LIM c, CTX_ACC c]) f
    (s.pwr.dead = false →
      (st = 3 → Gives (.admitCtx p c) s fun t => Spec.ctxEnters s t c 1 ∧ Spec.cliErr s t 0 ∧ moved t)
      ∧ (st = 1 ∨ st = 2 → bad (.admitCtx p c) 1)
      ∧ (st = 0 → s.ctxOk c = true → Gives (.admitCtx p c) s fun t => Spec.ctxEnters s t c 1 ∧ Spec.cliErr s t 0
        ∧ cleared t (fun u => { u with drn := [], ctx := [] }) ∧ t.out = [])
      ∧ (st = 0 → s.ctxOk c = false → bad (.admitCtx p c) 2)
      ∧ (st = 1 → Gives (.drain p c) s fun t => Spec.ctxEnters s t c 2 ∧ Spec.cliErr s t 0 ∧ moved t)
      ∧ (st ≠ 1 → bad (.drain p c) 1)
      ∧ (st = 0 → bad (.delete p c) 1)
      ∧ (st ≠ 0 → Spec.inCalendar s c → bad (.delete p c) 3)
      ∧ (st ≠ 0 → ¬Spec.inCalendar s c → Gives (.delete p c) s fun t => t.ctxState c = 0 ∧ zero t ∧ Spec.cliErr s t 0
        ∧ .rein c (reinPay (s.fld (CTX_LIM c) CTX_LIM_LIM) c (decide (2 ≤ st)) true) ∈ t.out
        ∧ (Spec.unlooped s c → Spec.ctxEnters s t c 0 ∧ cleared t fun u => { u with drn := [], ctx := [], lane := [], fresh := 0 }))
      ∧ (∀ op : Fin 8, op.val = 0 ∨ 4 ≤ op.val → bad (.cliBadOp p op c) 4))
    ∧ (let done := st = 2 ∧ (s.ctxS c).rd.toNat = s.fld (CTX_ACC c) CTX_ACC_ACC
        ∧ ∃ n : Eng, ∃ i : Fin 320, (s.reg (CAL_IN n i + 0x30000)).getLsbD 31 = true ∧ s.fld (CAL_IN n i + 0x30000) CAL_IN_CTX = c
      (done → Gives (.ctxDrained c) s fun t => Spec.ctxEnters s t c 3 ∧ Only s t (fun a => a = CTX_STAT c) fun u => { u with drn := [] })
      ∧ (¬done → Gives (.ctxDrained c) s fun t => Unchanged s t))

/-- Credit holds for one more block (R252). -/
def Spec.credit (s : State) (c : Nat) : Prop :=
  let d := (s.fld (CTX_LIM c) CTX_LIM_LIM + 2 ^ 24 - s.fld (CTX_ACC c) CTX_ACC_ACC) % 2 ^ 24
  1 ≤ d ∧ d < 2 ^ 23
/-- The blocks that leave in egress streams, in order. -/
def Spec.sent (t : State) : List (Nat × Blk) := t.out.filterMap fun o => match o with | .egress c b => some (c, b) | _ => none
/-- Blocks leave in order, errored ones as the error block, and are counted (R250). -/
def Spec.delivered (s t : State) (c : Nat) (bs : List (Blk × Bool)) : Prop :=
  let bad := (bs.filter fun b => b.2).length
  Spec.sent t = (bs.map fun b => (c, if b.2 then .err else b.1)) ∧ t.reg (CTX_ERRORED c) = (if bad = 0 then s.reg (CTX_ERRORED c)
      else BitVec.ofNat 32 (min ((s.reg (CTX_ERRORED c)).toNat + bad) 0xFFFFFFFF))
    ∧ t.bit (CTX_STAT c) CTX_STAT_ERRORED = (s.bit (CTX_STAT c) CTX_STAT_ERRORED || decide (bad ≠ 0))
/-- What traffic of a context may change. -/
def Spec.ctxFrame (s t : State) (c : Nat) (A : List Nat) : Prop :=
  Only s t (fun a => a ∈ A) (fun u => { u with ctx := [], cnt := .init }) ∧ ∀ m, m ≠ c → t.ctxS m = s.ctxS m
/-- What traffic that writes words of the client buffer may change (R260): the memory-integrity block learns of the writes. -/
def Spec.bufFrame (s t : State) (c : Nat) (A : List Nat) : Prop :=
  Only s t (fun a => a ∈ A ∨ Spec.integrity a) (fun u => { u with ctx := [], cnt := .init, eng := [], ecc := .init, poison := [] })
    ∧ ∀ m, m ≠ c → t.ctxS m = s.ctxS m
/-- What blocks that leave for the context's port may change, unless a lane of it is looped: the lanes too. `buf` tells that words of the
client buffer were written. -/
def Spec.sendFrame (s t : State) (c : Nat) (buf : Bool) (A : List Nat) : Prop :=
  Spec.unlooped s c → Only s t (fun a => a ∈ A ∨ (buf = true ∧ Spec.integrity a)) (fun u => { u with
      ctx := [], cnt := .init, lane := [], eng := [], fresh := 0, ecc := if buf then .init else u.ecc, poison := if buf then [] else u.poison })
    ∧ ∀ m, m ≠ c → t.ctxS m = s.ctxS m
/-- No injection is armed for the client buffer (R418). -/
def Spec.unarmed (s : State) : Prop := s.bit ECC_FLIP_CTL ECC_FLIP_CTL_ARM = false ∨ s.fld ECC_FLIP_CTL ECC_FLIP_CTL_REGION ≠ 0x60
/-- The context's queue takes one more block, into a word of the ingress half of the client buffer (R260), which is not poisoned any more
(R415). Which word is free (log 70). -/
def Spec.enqueued (s t : State) (c : Nat) (b : Blk) (bad gen : Bool) : Prop :=
  ∃ w, w < 0x400000 ∧ (t.ctxS c).queue = (s.ctxS c).queue ++ [⟨b, bad, gen, w⟩] ∧ t.poisoned (bufKey w) = false
/-- R239, R249–R253, R260: blocks that arrive, runs at the egress, a gap in their sequence, and the rein period; for a context whose PTP
messages the device does not edit (R319) and holds none of. Readings of the model: slack after marked blocks (log 32), the window and its
schedule (logs 42, 63). -/
def Obligations.ClientTraffic : Prop :=
  ∀ (s : State) (c : Fin 4096), s.Wf → s.ptpCtx c = false → (s.ctxS c).fin = .init → (s.ctxS c).fout = .init →
    let x := s.ctxS c
    (∀ (b : Blk) (phy : Fin 32) (rs : List RsCount),
      let arrives := Instr.clientBlockArrival c b phy rs
      let framed := s.ctxType c ≠ 2
      let inF := framed ∧ (x.inFrame = true ∨ b.start = true)
      let ends := b.term.isSome
      let kept := fun (t : State) => (t.ctxS c).queue = x.queue ∧ Spec.ctxFrame s t c [CTX_REFUSED c, CTX_STAT c]
      let refused := fun (t : State) => t.reg (CTX_REFUSED c) = BitVec.ofNat 32 (min ((s.reg (CTX_REFUSED c)).toNat + 1) 0xFFFFFFFF)
        ∧ t.reg (CTX_STAT c) = setFld (s.reg (CTX_STAT c)) CTX_STAT_REFUSED 1
      (b.drop = true → ¬inF → Gives arrives s fun t => Only s t (fun _ => False) fun u => { u with cnt := .init })
      ∧ (¬(b.drop = true ∧ ¬inF) → ¬(x.cutting = true ∧ b.start = false) → Spec.credit s c → Gives arrives s fun t =>
        t.fld (CTX_ACC c) CTX_ACC_ACC = (s.fld (CTX_ACC c) CTX_ACC_ACC + 1) % 2 ^ 24
        ∧ Spec.enqueued s t c b (b.hdr == 0#2 || b.hdr == 3#2) false ∧ ((t.ctxS c).inFrame = true ↔ inF ∧ ¬ends)
        ∧ Spec.bufFrame s t c [CTX_ACC c])
      ∧ (¬(b.drop = true ∧ ¬inF) → ¬(x.cutting = true ∧ b.start = false) → ¬Spec.credit s c → Gives arrives s fun t =>
        refused t ∧ (if inF ∧ ¬ends then Spec.enqueued s t c .err false true ∧ (t.ctxS c).cutting = true
          ∧ Spec.bufFrame s t c [CTX_REFUSED c, CTX_STAT c] else kept t))
      ∧ (¬(b.drop = true ∧ ¬inF) → x.cutting = true → b.start = false → Gives arrives s fun t => refused t ∧ kept t
        ∧ (t.ctxS c).cutting = !ends))
    ∧ (∀ n : Eng,
      let first := (s.engS n).rxp.runs.find? fun d => d.ctx == c.val
      let run := Instr.sequenceRunArrival c n
      (first = none → Gives run s fun t => Unchanged s t)
      ∧ ∀ d, first = some d →
        let here := s.ctxState c ≠ 0
        let down := s.ctxCom c = true ∧ (s.calAll true false).any fun e => e.ctx == c.val && !s.bit (RX_STAT e.eng) RX_STAT_READY
        let held := fun (t : State) (rs : List Run) => ∃ l : List QBlk, rs = [⟨d.seq, l, d.slack, s.time.c⟩]
          ∧ l.map (fun q => (q.blk, q.bad)) = d.bs
          ∧ ∀ q ∈ l, q.gen = false ∧ 0x400000 ≤ q.word ∧ q.word < 0x800000 ∧ t.poisoned (bufKey q.word) = false
        let near := (x.seqRx - d.seq).toNat ≤ x.slack
        let late := d.bad = true ∨ (¬near ∧ 2 ^ 23 ≤ (d.seq - x.seqRx).toNat)
        let taken := fun (t : State) => (t.engS n).rxp.runs = (s.engS n).rxp.runs.erase d
          ∧ UnitBut State.engS s t n fun e => { e with rxp := { e.rxp with runs := [] } }
        let gone := fun (t : State) => taken t ∧ Only s t (fun _ => False) fun u => { u with eng := [] }
        (¬here → Gives run s gone)
        ∧ (here → d.com = true → down → Gives run s fun t => Spec.sent t = (d.bs.map fun _ => (c.val, .lf))
          ∧ Spec.sendFrame s t c false [] ∧ taken t)
        ∧ (here → d.com = true → ¬down → Gives run s fun t => Spec.delivered s t c d.bs
          ∧ Spec.sendFrame s t c false [CTX_ERRORED c, CTX_STAT c] ∧ taken t ∧ (t.ctxS c).seqRx = x.seqRx)
        ∧ (here → d.com = false → late → Gives run s gone)
        ∧ (here → d.com = false → ¬late → ¬near → x.runs = [] → Gives run s fun t =>
          held t (t.ctxS c).runs ∧ (t.ctxS c).seqRx = x.seqRx ∧ t.out = [] ∧ taken t ∧ Spec.bufFrame s t c [])
        ∧ (here → d.com = false → ¬late → near → x.runs = [] → Spec.unarmed s → Gives run s fun t => Spec.delivered s t c d.bs
          ∧ (t.ctxS c).runs = [] ∧ (t.ctxS c).seqRx = d.seq + BitVec.ofNat 24 d.bs.length ∧ (t.ctxS c).slack = d.slack ∧ taken t
          ∧ Spec.sendFrame s t c true [CTX_ERRORED c, CTX_STAT c]))
    ∧ ((∀ r ∈ x.runs, s.time.c < r.t + 2500) → Gives (.seqGapTimeout c) s fun t => Unchanged s t)
    -- a block whose word is poisoned leaves as the error block (R250, R415)
    ∧ (∀ r : Run, x.runs = [r] → r.t + 2500 ≤ s.time.c → (∀ b ∈ r.bs, s.injAt (bufKey b.word) = false) → Gives (.seqGapTimeout c) s fun t =>
      Spec.delivered s t c (r.bs.map fun b => (b.blk, b.bad || s.poisoned (bufKey b.word))) ∧ t.reg (CTX_LOST c) = BitVec.ofNat 32 (min ((s.reg (CTX_LOST c)).toNat + (r.seq - x.seqRx).toNat) 0xFFFFFFFF)
      ∧ t.bit (CTX_STAT c) CTX_STAT_SEQ_GAP = true ∧ (t.ctxS c).runs = [] ∧ (t.ctxS c).seqRx = r.seq + BitVec.ofNat 24 r.bs.length
      ∧ ((∀ b ∈ r.bs, s.poisoned (bufKey b.word) = false) → Spec.sendFrame s t c false [CTX_ERRORED c, CTX_STAT c, CTX_LOST c]))
    ∧ ∀ el : List Nat, Gives (.reinPeriod el) s fun t =>
      let lim := s.fld (CTX_LIM c) CTX_LIM_LIM
      let v := (x.rd.toNat + s.window c el) % 2 ^ 24
      t.fld (CTX_LIM c) CTX_LIM_LIM = (if s.ctxState c = 1 ∧ (v + 2 ^ 24 - lim) % 2 ^ 24 < 2 ^ 23 then v else lim)
      ∧ (s.ctxState c ≠ 0 ↔ Output.rein c (reinPay (t.fld (CTX_LIM c) CTX_LIM_LIM) c (decide (2 ≤ s.ctxState c)) false) ∈ t.out)
      ∧ ((∀ m, s.ctxState m ≠ 0 → Spec.unlooped s m) →
        Only s t (fun a => CTX_LIM 0 ≤ a ∧ a ≤ CTX_LIM 4095 ∧ a % 32 = CTX_LIM 0 % 32) fun u => { u with lane := [], fresh := 0 })

/-! Host lanes and ports, the management port and the test port (09_harness_lanes.md, 20_package_and_ratings.md). -/

/-- What events of lanes and ports of harness `h` may change: the words of `A`, the ports' status, and the collector. -/
def Spec.harFrame (s t : State) (h : Harn) (A : Nat → Prop) : Prop :=
  Only s t (fun a => A a ∨ (PORT_STAT h 0 ≤ a ∧ a ≤ PORT_STAT h 63) ∨ a = FC_STAT) (fun u => { u with lane := [], drn := [], col := .init, cnt := .init })
    ∧ (∀ m, m < 64 * h.val ∨ 64 * h.val + 71 ≤ m → t.laneS m = s.laneS m) ∧ UnitBut State.drnS s t (48 + h) (fun e => { e with evpend := 0 })
/-- What blocks that reach the receivers of harness `h` may change: its registers, the contexts of its ports, and what the memory-integrity
block knows of their buffer words. -/
def Spec.rxFrame2 (s t : State) (h : Harn) : Prop :=
  Only s t (fun a => (HRN_STAT h ≤ a ∧ a < HRN_STAT h + 0x100000) ∨ (CTX_CFG 0 ≤ a ∧ a < CTX_CFG 4096) ∨ a = FC_STAT ∨ Spec.integrity a)
      (fun u => { u with lane := [], ctx := [], drn := [], col := .init, cnt := .init, ecc := .init, poison := [] })
    ∧ (∀ m, m < 64 * h.val ∨ 64 * h.val + 71 ≤ m → t.laneS m = s.laneS m) ∧ UnitBut State.drnS s t (48 + h) (fun e => { e with evpend := 0 })
/-- A command after which a lane may begin to send: where no lane of its port is looped, its blocks reach no receiver. -/
def Spec.sendsFrame (s t : State) (h : Harn) (l : Fin 64) (A : Nat → Prop) : Prop :=
  Spec.rxFrame2 s t h ∧ ((∀ q, s.portAt h l = some q → Spec.noLoop s h q) → Spec.harFrame s t h A)
/-- What a lane's transmitter does shows at its pads when it changes (R287): 0 sends, 1 electrical idle, 2 off. -/
def Spec.shown (s t : State) (h : Harn) (l : Fin 64) : Prop :=
  t.lanePads h l ≠ s.lanePads h l → Output.laneTx (64 * h + l) (t.lanePads h l) ∈ t.out
/-- The bit pair of a PAM4 level, and of the inverted level (R273, R274). -/
def Spec.pam (inv : Bool) (v : BitVec 2) : List Bool :=
  match (if inv then 3#2 - v else v) with | 0#2 => [false, false] | 1#2 => [false, true] | 2#2 => [true, true] | _ => [true, false]
/-- A lane is in a state of R278: a change signals line 12; one from LOCKED is latched; one to OFF or ADAPT stops a calibration. -/
def Spec.laneIn (s t : State) (h : Harn) (l : Fin 64) (st : Nat) : Prop :=
  t.laneState h l = st ∧ (s.laneState h l ≠ st → (t.drnS (48 + h)).evpend.getLsbD 12 = true
    ∧ (s.laneState h l = 3 → t.bit (LANE_STAT h l) LANE_STAT_LOCK_LOST = true)
    ∧ (st < 2 → t.bit (LANE_STAT h l) LANE_STAT_CAL_BUSY = false
      ∧ (s.bit (LANE_STAT h l) LANE_STAT_CAL_BUSY = true → t.fld (LANE_STAT h l) LANE_STAT_CAL_ERR = 2)))
/-- ALIGNED of a port shows whether it is aligned (R279, R281); a change signals line 13, and its loss is latched (R283, R398). -/
def Spec.alignedNow (s t : State) (h : Harn) (q : Nat) : Prop :=
  t.bit (PORT_STAT h q) PORT_STAT_ALIGNED = t.portAligned h q
    ∧ (t.portAligned h q ≠ s.bit (PORT_STAT h q) PORT_STAT_ALIGNED → (t.drnS (48 + h)).evpend.getLsbD 13 = true)
    ∧ (s.bit (PORT_STAT h q) PORT_STAT_ALIGNED = true → t.portAligned h q = false → t.bit (PORT_STAT h q) PORT_STAT_ALIGN_LOST = true)
/-- GROUP_UP shows whether every PHY of the FlexE group that names first lane `g` is aligned (R293; PRESUMED, log 17). -/
def Spec.groupNow (t : State) (h : Harn) (g : Nat) : Prop :=
  t.bit (PORT_STAT h g) PORT_STAT_GROUP_UP = true ↔
    t.phys (64 * h + g) ≠ [] ∧ ∀ x ∈ t.phys (64 * h + g), t.bit (PORT_STAT h x) PORT_STAT_ALIGNED = true
/-- The number of lanes of a port (R275). -/
def Spec.portLanes (w : W) : Nat :=
  let t := getFld w PORT_CFG_TYPE
  if t = 0 ∨ t = 3 then 2 else if t = 1 then 4 else if t = 2 then 8 else 2 ^ getFld w PORT_CFG_NLANES
/-- The cases of R276. -/
abbrev Spec.portBad (s : State) (h : Harn) (q : Fin 64) (v : W) : Prop :=
  q.val % Spec.portLanes v ≠ 0 ∨ 5 ≤ getFld v PORT_CFG_TYPE
    ∨ (∃ x : Fin 64, x ≠ q ∧ s.bit (PORT_CFG h x) PORT_CFG_EN = true ∧ x.val < q.val + Spec.portLanes v
      ∧ q.val < x.val + Spec.portLanes (s.reg (PORT_CFG h x)))
    ∨ (getFld v PORT_CFG_TYPE = 3 ∧ getFld v PORT_CFG_GROUP ≠ q ∧ ¬(s.bit (PORT_CFG h (getFld v PORT_CFG_GROUP)) PORT_CFG_EN = true
      ∧ s.fld (PORT_CFG h (getFld v PORT_CFG_GROUP)) PORT_CFG_TYPE = 3
      ∧ s.fld (PORT_CFG h (getFld v PORT_CFG_GROUP)) PORT_CFG_GROUP = getFld v PORT_CFG_GROUP))
    ∨ (getFld v PORT_CFG_TYPE = 3 ∧ 32 ≤ ((s.phys (64 * h + getFld v PORT_CFG_GROUP)).filter fun x => x != q.val).length)
/-- R275–R283: port configuration, bring-up, lock, loss of signal, and local fault into the contexts of a port. GROUP_UP is log 17's
(PRESUMED), what a lane without an enabled port does log 69's, and readings of lane events and loops are those of logs 35 and 44. -/
def Obligations.HostPorts : Prop :=
  ∀ (s : State) (p : Party) (h : Harn) (l : Fin 64) (v : W), s.Wf →
    let st := s.laneState h l
    let port := s.portAt h l
    let x := s.laneS (64 * h + l)
    let loop := s.fld (LANE_CTL h l) LANE_CTL_LOOP
    let stat := fun a => a = LANE_STAT h l
    (Spec.served s (PORT_CFG h l) →
      let busy := ¬(s.portCtx h l).isEmpty
      let bad := v.getLsbD 31 = true ∧ Spec.portBad s h l v
      Gives (.portCfgWrite p h l v) s fun t =>
        (busy ∨ bad → t.bit (HRN_STAT h) HRN_STAT_PORT_BUSY = (s.bit (HRN_STAT h) HRN_STAT_PORT_BUSY || decide busy)
          ∧ t.bit (HRN_STAT h) HRN_STAT_PORT_BAD = (s.bit (HRN_STAT h) HRN_STAT_PORT_BAD || decide bad)
          ∧ OnlyRegsOf s t fun a => a = HRN_STAT h)
        ∧ (¬busy → ¬bad → t.reg (PORT_CFG h l) = v &&& impOf (PORT_CFG h l) ∧ Spec.alignedNow s t h l
          ∧ Spec.groupNow t h (s.fld (PORT_CFG h l) PORT_CFG_GROUP) ∧ Spec.groupNow t h (getFld v PORT_CFG_GROUP)
          ∧ (∀ m, { t.laneS m with wait := false, fifo := [] } = { s.laneS m with wait := false, fifo := [] })
          ∧ Spec.harFrame s t h fun a => a = PORT_CFG h l))
    ∧ (Spec.served s (LANE_CFG h l) → Gives (.laneCfgWrite p h l v) s fun t => t.reg (LANE_CFG h l) = v &&& impOf (LANE_CFG h l)
      ∧ (t.laneS (64 * h + l)).tx = (v.getLsbD 31 && (x.tx || port.isSome))
      ∧ ((x.tx = true ∨ st < 2 ∨ loop = 0 ∨ loop = 3) →
        Spec.laneIn s t h l (if v.getLsbD 31 = false then 0 else if st = 0 ∧ s.lanePower h l = 0 ∧ port.isSome then 1 else st))
      ∧ Spec.shown s t h l ∧ Spec.sendsFrame s t h l fun a => a = LANE_CFG h l ∨ a = LANE_STAT h l)
    ∧ (∀ ppm : Int, (st = 1 → ppm.natAbs ≤ 300 → Gives (.laneAdaptDone h l ppm) s fun t => Spec.laneIn s t h l 2 ∧ Spec.harFrame s t h stat)
      ∧ (¬(st = 1 ∧ ppm.natAbs ≤ 300) → Gives (.laneAdaptDone h l ppm) s fun t => Unchanged s t))
    ∧ (Gives (.laneSignalLoss h l) s fun t => Spec.laneIn s t h l (if 2 ≤ st then 1 else st) ∧ (t.laneS (64 * h + l)).cdr = false
      ∧ Spec.harFrame s t h stat)
    ∧ (∀ (locked deskewed : Bool) (rs : RsCount),
      let eth := port.elim False fun q => s.fld (PORT_CFG h q) PORT_CFG_TYPE ≠ 4
      (¬eth → Gives (.ethLaneLockChange h l locked deskewed rs) s fun t => Unchanged s t)
      ∧ (eth → Gives (.ethLaneLockChange h l locked deskewed rs) s fun t =>
        Spec.laneIn s t h l (if st = 2 ∧ locked then 3 else if st = 3 ∧ ¬locked then 2 else st)
        ∧ (∀ q, port = some q → (t.laneS (64 * h + q)).locked = deskewed ∧ t.bit (PORT_STAT h q) PORT_STAT_ALIGNED = t.portAligned h q)
        ∧ Spec.harFrame s t h stat))
    ∧ (∀ (lv : List (BitVec 2)) (now : Nat),
      let nat := port.elim False fun q => s.fld (PORT_CFG h q) PORT_CFG_TYPE = 4
      let self := loop = 1 ∨ loop = 2
      let inv := Bool.xor (s.bit (LANE_CFG h l) LANE_CFG_RX_INV) (s.bit (LANE_CFG h l) LANE_CFG_TX_INV)
      let held := x.rxBits ++ lv.flatMap (Spec.pam (s.bit (LANE_CFG h l) LANE_CFG_RX_INV))
      let bits := if x.skip then held.drop 1 else held
      let ok := bits.getD 0 false ≠ bits.getD 1 false
      let hist := (decide ok :: x.hist).take 64
      let bad := (hist.filter fun y => !y).length
      let run := Instr.nativeBlockReceive h l lv now
      (port = none → Gives run s fun t => Unchanged s t)
      ∧ (port ≠ none → self → exec run s = exec (.nativeBlockReceive h l [] 0) s ∧ Gives run s fun t => Spec.rxFrame2 s t h)
      -- the bits of an Ethernet lane go to its PCS, which is not modelled (log 71)
      ∧ (port ≠ none → ¬nat → ¬self → Gives run s fun t => UnitBut State.laneS s t (64 * h + l) (fun y => { y with rxPcs := 0 })
        ∧ Only s t (fun _ => False) fun u => { u with lane := [] })
      ∧ (port ≠ none → loop = 3 → s.lanePads h l = 0 → Gives run s fun t =>
        Output.lane (64 * h + l) (if inv then lv.map fun v => 3#2 - v else lv) ∈ t.out)
      ∧ (nat → ¬self → st < 2 → Gives run s fun t => { t with out := [] } = s.quiet)
      ∧ (nat → ¬self → 2 ≤ st → bits.length < 66 → Gives run s fun t => (t.laneS (64 * h + l)).rxBits = bits
        ∧ UnitBut State.laneS s t (64 * h + l) (fun y => { y with rxBits := [], skip := false, now := 0 })
        ∧ Only s t (fun _ => False) fun u => { u with lane := [] })
      ∧ (nat → ¬self → 2 ≤ st → 66 ≤ bits.length → Gives run s fun t =>
        t.fld (LANE_STAT h l) LANE_STAT_INVALID = bad ∧ (t.laneS (64 * h + l)).hist = hist ∧ (t.laneS (64 * h + l)).rxBits = bits.drop 66
        ∧ Spec.laneIn s t h l (if st = 2 ∧ ok ∧ x.good = 63 then 3 else if st ≠ 2 ∧ 16 ≤ bad then 2 else st)
        ∧ (st = 2 → ¬ok → (t.laneS (64 * h + l)).good = 0 ∧ (t.laneS (64 * h + l)).slips = x.slips + 1 ∧ (t.laneS (64 * h + l)).skip = true)
        ∧ (∀ q, port = some q → t.bit (PORT_STAT h q) PORT_STAT_ALIGNED = t.portAligned h q) ∧ Spec.rxFrame2 s t h))
    ∧ (let fault := s.bit (PORT_CFG h l) PORT_CFG_EN = true ∧ s.bit (PORT_STAT h l) PORT_STAT_ALIGNED = false
      (¬fault → Gives (.localFaultInsert h l) s fun t => Unchanged s t)
      ∧ (fault → Gives (.localFaultInsert h l) s fun t =>
        (∀ c : Fin 4096,
          let mine := c.val ∈ s.portCtx h l ∧ s.ctxState c = 1 ∧ Spec.credit s c
          (mine → t.fld (CTX_ACC c) CTX_ACC_ACC = (s.fld (CTX_ACC c) CTX_ACC_ACC + 1) % 2 ^ 24
            ∧ (s.ptpCtx c = false → (s.ctxS c).fin = .init → Spec.enqueued s t c .lf false false))
          ∧ (¬mine → t.reg (CTX_ACC c) = s.reg (CTX_ACC c) ∧ t.ctxS c = s.ctxS c))
        ∧ Only s t (fun a => (CTX_ACC 0 ≤ a ∧ a ≤ CTX_ACC 4095 ∧ a % 32 = CTX_ACC 0 % 32) ∨ Spec.integrity a) fun u =>
          { u with ctx := [], cnt := .init, ecc := .init, poison := [] }))

/-- The taps of LANE_TXEQ (R297). -/
def Spec.taps (v : W) : List Int :=
  [(v.extractLsb' 24 6).toInt, (v.extractLsb' 18 6).toInt, (v.extractLsb' 12 6).toInt, (v.extractLsb' 6 6).toInt, (v.extractLsb' 0 6).toInt]
/-- A context of the lane's port or group is not IDLE. -/
def Spec.laneUsed (s : State) (h : Harn) (l : Fin 64) : Prop := (s.portAt h l).elim False fun q => ¬(s.portCtx h q).isEmpty
/-- A quotient is one of the two whole numbers beside it: the spec rounds it no further (log 3). -/
def Spec.between (num den : Int) (P : Int → Prop) : Prop := P (num / den) ∨ (num % den ≠ 0 ∧ P (num / den + 1))
/-- A point of the sweep of a lane calibration is inside the eye: at most 1e-6 of 2^20 decisions differ (R290). -/
def Spec.eyePoint (m : Nat) : Bool := decide (m * 1000000 ≤ 2 ^ 20)
/-- LANE_EYE of one eye: 0.1 mV and mUI, at its centre phase and threshold (R290). Where the centre lies and which way the width is rounded
are log 71's (DESIGN CHOICE). -/
def Spec.eye (e : EyeScan) (w : W) : Prop :=
  let p := e.getD (midIdx (fun r => r.any Spec.eyePoint) e) []
  let at_ := midIdx Spec.eyePoint p
  (w >>> 16).toNat = 5 * (p.filter Spec.eyePoint).length % 65536
    ∧ Spec.between (1000 * ((e.filter fun r => r[at_]?.any Spec.eyePoint).length : Nat)) 64 fun x => (w.toNat % 65536 : Nat) = x % 65536
/-- R284–R291: the transmit equaliser, test loops, lane power, and lane calibration. Each LANE_CTL word here acts on one of its fields
and keeps the others; a word that is refused changes LANE_STAT.CTL_REFUSED alone. CAL_GO while a calibration runs is log 69's, and the order in
which the fields of a word act is log 44's. -/
def Obligations.LaneControl : Prop :=
  ∀ (s : State) (p : Party) (h : Harn) (l : Fin 64) (v : W), s.Wf →
    let x := s.laneS (64 * h + l)
    let st := s.laneState h l
    let pst := s.lanePower h l
    let busy := s.bit (LANE_STAT h l) LANE_STAT_CAL_BUSY
    let loop := s.fld (LANE_CTL h l) LANE_CTL_LOOP
    let ctl := fun a => a = LANE_CTL h l ∨ a = LANE_STAT h l
    let active := setFld (s.reg (LANE_CTL h l)) LANE_CTL_POWER 0
    let refused := fun (i : Instr) (c : W) => Gives i s fun t => t.reg (LANE_STAT h l) = setFld (s.reg (LANE_STAT h l)) LANE_STAT_CTL_REFUSED 1
      ∧ t.reg (LANE_CTL h l) = c ∧ OnlyRegsOf s t ctl
    (Spec.served s (LANE_TXEQ h l) →
      (32 < ((Spec.taps v).map Int.natAbs).sum → Gives (.laneTxeqWrite p h l v) s fun t =>
        t.reg (LANE_STAT h l) = setFld (s.reg (LANE_STAT h l)) LANE_STAT_TXEQ_BAD 1 ∧ OnlyRegsOf s t fun a => a = LANE_STAT h l)
      ∧ (((Spec.taps v).map Int.natAbs).sum ≤ 32 → x.ramp = none → Gives (.laneTxeqWrite p h l v) s fun t =>
        t.reg (LANE_TXEQ h l) = v &&& impOf (LANE_TXEQ h l)
        ∧ t.laneS (64 * h + l) = { x with ramp := some (Spec.taps (s.reg (LANE_TXEQ h l)), 0, v, 0) }
        ∧ (∀ m, m ≠ 64 * h.val + l.val → t.laneS m = s.laneS m) ∧ Only s t (fun a => a = LANE_TXEQ h l) fun u => { u with lane := [] })
      ∧ (∀ a e w k, ((Spec.taps v).map Int.natAbs).sum ≤ 32 → x.ramp = some (a, e, w, k) → Gives (.laneTxeqWrite p h l v) s fun t =>
        t.laneS (64 * h + l) = { x with ramp := some (List.zipWith (fun c b => c * (16 - (k : Int)) + b * 16 ^ e * k) a (Spec.taps w), e + 1, v, 0) }))
    ∧ (Gives (.txeqStep h l) s fun t => (x.ramp = none → t.laneS (64 * h + l) = x)
      ∧ (∀ a e w k, x.ramp = some (a, e, w, k) → t.laneS (64 * h + l) = { x with ramp := if k < 15 then some (a, e, w, k + 1) else none })
      ∧ (∀ m, m ≠ 64 * h.val + l.val → t.laneS m = s.laneS m) ∧ Only s t (fun _ => False) fun u => { u with lane := [] })
    ∧ (Spec.served s (LANE_CTL h l) → v.getLsbD 31 = false → v.getLsbD 30 = false →
      let lp := getFld v LANE_CTL_LOOP
      let pw := getFld v LANE_CTL_POWER
      (lp ≠ 0 → Spec.laneUsed s h l → pw = 0 → pst = 0 → refused (.laneLoopWrite p h l v) active)
      ∧ ((lp = 0 ∨ ¬Spec.laneUsed s h l) → pw = 0 → pst = 0 → Gives (.laneLoopWrite p h l v) s fun t =>
        t.fld (LANE_CTL h l) LANE_CTL_LOOP = lp
        ∧ (lp ≠ loop → t.bit (LANE_STAT h l) LANE_STAT_CAL_BUSY = false ∧ (busy = true → t.fld (LANE_STAT h l) LANE_STAT_CAL_ERR = 2)
          ∧ Spec.laneIn s t h l (if (lp = 1 ∨ lp = 2) ∧ st ≠ 0 then 1 else st))
        ∧ (lp = loop → t.laneState h l = st ∧ t.bit (LANE_STAT h l) LANE_STAT_CAL_BUSY = busy) ∧ Spec.harFrame s t h ctl)
      ∧ (lp = loop → loop = 0 → (pw = 3 ∨ (pw ≠ 0 ∧ (Spec.laneUsed s h l ∨ busy = true))) → refused (.lanePowerWrite p h l v) (s.reg (LANE_CTL h l)))
      ∧ (lp = loop → loop = 0 → (pw = 1 ∨ pw = 2) → ¬(Spec.laneUsed s h l ∨ busy = true) → Gives (.lanePowerWrite p h l v) s fun t =>
        t.fld (LANE_CTL h l) LANE_CTL_POWER = pw ∧ t.lanePower h l = pw ∧ Spec.laneIn s t h l 0
        ∧ (pw = 2 → (t.laneS (64 * h + l)).cdr = false) ∧ Spec.shown s t h l ∧ Spec.harFrame s t h ctl)
      ∧ (lp = loop → loop = 0 → pw = 0 → Gives (.lanePowerWrite p h l v) s fun t => t.lanePower h l = 0
        ∧ t.fld (LANE_CTL h l) LANE_CTL_POWER = 0
        ∧ Spec.laneIn s t h l (if pst ≠ 0 ∧ s.bit (LANE_CFG h l) LANE_CFG_EN then (if pst = 1 ∧ x.cdr then 2 else 1) else st)
        ∧ Spec.shown s t h l ∧ Spec.sendsFrame s t h l ctl)
      ∧ (lp = loop → loop = 0 → pw = 0 → pst = 0 →
        ((st < 2) → Gives (.laneCalGo p h l v) s fun t => t.reg (LANE_STAT h l)
            = setFld (setFld (s.reg (LANE_STAT h l)) LANE_STAT_CAL_ERR 1) LANE_STAT_CTL_REFUSED 1
          ∧ t.reg (LANE_CTL h l) = active ∧ OnlyRegsOf s t ctl)
        ∧ (2 ≤ st → Gives (.laneCalGo p h l v) s fun t => t.bit (LANE_STAT h l) LANE_STAT_CAL_BUSY = true
          ∧ t.fld (LANE_STAT h l) LANE_STAT_CAL_ERR = 0 ∧ t.laneState h l = st ∧ Spec.harFrame s t h ctl)
        ∧ Gives (.laneCalAbort p h l v) s fun t => t.bit (LANE_STAT h l) LANE_STAT_CAL_BUSY = false
          ∧ t.fld (LANE_STAT h l) LANE_STAT_CAL_ERR = (if busy then 2 else s.fld (LANE_STAT h l) LANE_STAT_CAL_ERR)
          ∧ (∀ i : Fin 3, t.reg (LANE_EYE h l i) = s.reg (LANE_EYE h l i)) ∧ Spec.harFrame s t h ctl))
    ∧ ∀ eyes : List EyeScan,
      (busy = false → Gives (.laneCalDone h l eyes) s fun t => Unchanged s t)
      ∧ (busy = true → Gives (.laneCalDone h l eyes) s fun t =>
        let low := ∃ i : Fin 3, (t.reg (LANE_EYE h l i) >>> 16).toNat < 60 ∨ (t.reg (LANE_EYE h l i)).toNat % 65536 < 150
        (∀ i : Fin 3, Spec.eye (eyes.getD i []) (t.reg (LANE_EYE h l i)))
        ∧ t.bit (LANE_STAT h l) LANE_STAT_CAL_BUSY = false ∧ t.bit (LANE_STAT h l) LANE_STAT_CAL_DONE = true
        ∧ (t.bit (LANE_STAT h l) LANE_STAT_EYE_LOW = true ↔ s.bit (LANE_STAT h l) LANE_STAT_EYE_LOW = true ∨ low) ∧ t.laneState h l = st
        ∧ OnlyRegsOf s t fun a => a = LANE_STAT h l ∨ ∃ i : Fin 3, a = LANE_EYE h l i)

/-- The reset of the port's MSI-X state and configuration space, which touches nothing else (R301). -/
def Spec.portReset (s t : State) (A : Nat → Prop) : Prop :=
  (∀ a, MSIX_TABLE 0 ≤ a → a < MSIX_PBA 8 → t.reg a = rstOf a) ∧ t.pcie = .init ∧ t.out = []
    ∧ Only s t (fun a => A a ∨ (MSIX_TABLE 0 ≤ a ∧ a < MSIX_PBA 8)) fun u => { u with pcie := .init }
/-- The link is down: SPEED, WIDTH, LINK_UP and FLIT read 0, and DOWN_CNT counts a link that was up (R302). -/
def Spec.linkDown (s t : State) : Prop :=
  t.reg PCIE_STAT = BitVec.ofNat 32 ((s.fld PCIE_STAT PCIE_STAT_DOWN_CNT + if s.bit PCIE_STAT PCIE_STAT_LINK_UP then 1 else 0) % 65536)
/-- The codes of the test port's instructions that take control of the pins, in the model's own numbering (log 23). -/
abbrev Spec.takesPins (ir : Fin 16) : Prop := ir = 0 ∨ (3 ≤ ir.val ∧ ir.val ≤ 6)
/-- What the data register that an instruction selects captures (R537): the pins, IDCODE, or the bit of BYPASS. -/
def Spec.captures (ir : Nat) (pins : List Bool) : List Bool :=
  if ir = 0 ∨ ir = 2 ∨ ir = 5 ∨ ir = 6 then pins else if ir = 1 then (List.range 32).map fun i => (0x25120D5B#32).getLsbD i else [false]
/-- R298, R301, R302, R529, R537, R538: resets and loss of the PCIe port never touch the rest of the device; the link trains; the test port. The
port's MSI-X state and link-down reading are log 45's; the numbering of the test port's instructions and its data registers are log 23's
(PRESUMED). -/
def Obligations.ManagementAndTestPorts : Prop :=
  ∀ s : State, s.Wf →
    let pins := fun t : State => t.tap.drive ≠ s.tap.drive → Output.testPins t.tap.drive.1 t.tap.drive.2 ∈ t.out
    (Gives .pciePerst s fun t => Spec.portReset s t (fun a => a = PCIE_STAT) ∧ Spec.linkDown s t)
    ∧ (Gives .pcieHotReset s fun t => Spec.portReset s t (fun a => a = PCIE_STAT) ∧ Spec.linkDown s t)
    ∧ (Gives .pcieLinkDown s fun t => Spec.portReset s t (fun a => a = PCIE_STAT) ∧ Spec.linkDown s t)
    ∧ (Gives .pcieFlr s fun t => Spec.portReset s t fun _ => False)
    ∧ (∀ (speed : Fin 7) (width : BitVec 4) (flit : Bool), s.pwr.dead = false →
      let trains := s.pwr.ready = true ∧ 1 ≤ speed.val ∧ width.toNat ∈ [1, 2, 4, 8]
      (¬trains → Gives (.pcieLinkUp speed width flit) s fun t => Unchanged s t)
      ∧ (trains → Gives (.pcieLinkUp speed width flit) s fun t => t.fld PCIE_STAT PCIE_STAT_SPEED = speed ∧ t.fld PCIE_STAT PCIE_STAT_WIDTH = width.toNat
      ∧ t.bit PCIE_STAT PCIE_STAT_LINK_UP = true ∧ t.bit PCIE_STAT PCIE_STAT_FLIT = flit
      ∧ t.fld PCIE_STAT PCIE_STAT_DOWN_CNT = s.fld PCIE_STAT PCIE_STAT_DOWN_CNT ∧ OnlyRegsOf s t fun a => a = PCIE_STAT))
    ∧ (∀ ir : Fin 16, s.pwr.dead = false →
      let st := s.fld STW_CMD_STAT STW_CMD_STAT_STATE
      let other := 7 ≤ ir.val ∨ (Spec.takesPins ir ∧ st ≠ 0 ∧ st ≠ 4)
      let held := if other then 15 else ir.val
      (Gives (.tapInstructionLoad ir none) s fun t => t.tap = ⟨held, s.tap.cells⟩ ∧ pins t ∧ Only s t (fun _ => False) fun u => { u with tap := ⟨0, []⟩ })
      -- as many bits leave at TDO as TDI brings; the boundary cells take what is left in the register
      ∧ ∀ x : TapScan, let l := Spec.captures held x.pins ++ x.tdi
        Gives (.tapInstructionLoad ir (some x)) s fun t => Output.tdo (l.take x.tdi.length) ∈ t.out
          ∧ t.tap = ⟨held, if held = 0 ∨ held = 2 ∨ held = 5 ∨ held = 6 then l.drop x.tdi.length else s.tap.cells⟩
          ∧ pins t ∧ Only s t (fun _ => False) fun u => { u with tap := ⟨0, []⟩ })
    ∧ (s.pwr.dead = false → Gives .tapReset s fun t => t.tap = ⟨1, s.tap.cells⟩ ∧ pins t ∧ Only s t (fun _ => False) fun u => { u with tap := ⟨0, []⟩ })

/-! The time unit and its timing ports (10_time_unit.md). -/

/-- A scale after a rate is loaded at counter value `c`: O becomes O + R · 2^-48 · 0.8 · (C − A) ns, to the nearest 2^-32 ns with halves
to even (R305). -/
def Spec.loaded (c : Nat) (r : Int) (x : Scale) : Scale :=
  { x with o := rneDiv (327680 * x.o + 4 * x.r * ((c : Int) - x.a)) 327680, r := r, a := c }
/-- The 40-bit range of a rate (R305). -/
def Spec.rate (r : Int) : Int := max (-2 ^ 39) (min (2 ^ 39 - 1) r)
/-- Vector 58 is raised when a bit of TU_STAT [7:0] rises or a scale's state changes, and by nothing else (R540); a change of a scale's
state signals line 14 of the time drone (R398). -/
def Spec.vec58 (s t : State) : Prop :=
  let moved := t.stampSt ≠ s.stampSt ∨ t.lineSt ≠ s.lineSt
  let rise := (t.reg TU_STAT &&& ~~~s.reg TU_STAT) &&& 0xFF#32 ≠ 0#32 ∨ moved
  let masked := (s.reg (MSIX_TABLE 235)).getLsbD 0
  (t.out.contains (.msix 58) = true ↔ rise ∧ masked = false)
    ∧ (t.reg (MSIX_PBA 1) = if rise ∧ masked = true then s.reg (MSIX_PBA 1) ||| (1#32 <<< 26) else s.reg (MSIX_PBA 1))
    ∧ ((t.drnS 54).evpend.getLsbD 14 = true ↔ (s.drnS 54).evpend.getLsbD 14 = true ∨ moved)
/-- What a command of the servo may change: the words of `A`, TU_STAT, the scales, I, the last sample and the pending step. -/
def Spec.servoFrame (s t : State) (A : List Nat) : Prop :=
  Only s t (fun a => a ∈ A ∨ a ∈ [TU_STAT, MSIX_PBA 1, FC_STAT]) (fun u => { u with time := .init, drn := [], col := .init, fresh := 0 })
    ∧ UnitBut State.drnS s t 54 (fun e => { e with evpend := 0 }) ∧ { t.time with stamp := .init, line := .init, integ := 0, last := none, pend := 0, acc := 0 }
      = { s.time with stamp := .init, line := .init, integ := 0, last := none, pend := 0, acc := 0 }
    ∧ Spec.vec58 s t
/-- Neither scale is in HOLDOVER nor stamp time in STEP_HELD, and no condition says so (R313, R314). -/
def Spec.tracking (t : State) : Prop :=
  t.stampSt = 1 ∧ t.lineSt = 1 ∧ t.holds 2 0x1C 0 0 = false ∧ t.holds 2 0x1D 2 0 = false
/-- Line time runs at I plus a slew of `d` / (TC · 10^7 ns), held within LSLEW (R316); `d` in 2^-48 of 0.2 ns. -/
def Spec.slewed (t : State) (d : Int) : Prop :=
  let tc := t.fld TU_LINE_CFG TU_LINE_CFG_TC
  let lim := (t.fld TU_LINE_CFG TU_LINE_CFG_LSLEW : Int) * 2 ^ 48
  let is := fun x => t.time.line.r = Spec.rate (t.time.integ + x)
  if tc = 0 ∨ lim * (50000000 * tc) < (d.natAbs : Int) * 1000000000 then Spec.between (d.sign * lim) 1000000000 is
  else Spec.between d (50000000 * tc) is
/-- TU_STEP_PEND holds a value (R314). -/
def Spec.pendIs (t : State) (e : Int) : Prop :=
  t.time.pend = e ∧ (t.reg TU_STEP_PEND_HI ++ t.reg TU_STEP_PEND_LO) = BitVec.ofInt 64 (e % 2 ^ 48)
/-- A sample `e` of source `src` (0 for a phase adjustment) is handled by the state of stamp time (R312, R314). -/
def Spec.sampleTaken (s t : State) (e : Int) (src : Nat) : Prop :=
  let x := s.time
  let y := t.time
  let fits := e.natAbs ≤ s.fld TU_SRV_LIM TU_SRV_LIM_STEP_THR * 65536
  let moved := { x.stamp with o := x.stamp.o + s.fld TU_SRV_GAIN TU_SRV_GAIN_KP * e }
  let sat := s.bit TU_STAT TU_STAT_RATE_SAT
  let taken := Spec.tracking t ∧ t.bit TU_STAT TU_STAT_SRC_OK = true ∧ y.acc = x.c ∧ y.last = if src = 0 then x.last else some (x.c, src)
  (s.stampSt = 0 → taken ∧ y.integ = x.integ ∧ y.stamp = { x.stamp with o := x.stamp.o + e * 65536 } ∧ y.line = Spec.loaded x.c y.line.r y.stamp
    ∧ 2 * (scaleNum x.c y.line - scaleNum x.c y.stamp).natAbs ≤ 327680 ∧ Spec.slewed t 0)
  ∧ (s.stampSt ≠ 0 → fits → taken ∧ Spec.slewed t (scaleNum x.c y.stamp - scaleNum x.c x.line)
    ∧ y.line = Spec.loaded x.c y.line.r x.line
    ∧ (s.stampSt = 3 → Spec.pendIs t 0)
    ∧ (x.last.elim True (fun l => src = 0 ∨ l.2 ≠ src) → y.integ = x.integ ∧ y.stamp = moved ∧ t.bit TU_STAT TU_STAT_RATE_SAT = sat)
    ∧ (∀ c0 k, x.last = some (c0, k) → src ≠ 0 → k = src →
      Spec.between (s.fld TU_SRV_GAIN TU_SRV_GAIN_KI * e * 327680) (4 * (max 1 (x.c - c0) : Nat)) fun d =>
        y.integ = Spec.rate (x.integ + d) ∧ y.stamp = Spec.loaded x.c y.integ moved
        ∧ t.bit TU_STAT TU_STAT_RATE_SAT = (sat || decide (y.integ ≠ x.integ + d))))
  ∧ (s.stampSt ≠ 0 → ¬fits → Spec.pendIs t e ∧ Spec.counted s t TU_STEP_REF_CNT 1 ∧ t.bit TU_STAT TU_STAT_STEP_REFUSED = true
    ∧ t.stampSt = 3 ∧ y.integ = x.integ ∧ y.last = x.last
    ∧ (s.stampSt = 3 → y.stamp = x.stamp ∧ y.line = x.line ∧ t.lineSt = s.lineSt)
    ∧ (s.stampSt ≠ 3 → y.stamp = Spec.loaded x.c x.integ x.stamp ∧ t.holds 2 0x1D 2 0 = true
      ∧ (s.lineSt ≠ 1 → y.line = x.line ∧ t.lineSt = s.lineSt)
      ∧ (s.lineSt = 1 → y.line = Spec.loaded x.c x.integ x.line ∧ t.lineSt = 2 ∧ t.bit TU_STAT TU_STAT_HOLDOVER = true
        ∧ t.holds 2 0x1C 0 0 = true)))
/-- Each scale that tracks enters HOLDOVER and runs at I (R313). -/
def Spec.heldOver (s t : State) : Prop :=
  let x := s.time
  let a := s.stampSt = 1
  let b := s.lineSt = 1
  t.stampSt = (if a then 2 else s.stampSt) ∧ t.lineSt = (if b then 2 else s.lineSt)
    ∧ t.time.stamp = (if a then Spec.loaded x.c x.integ x.stamp else x.stamp)
    ∧ t.time.line = (if b then Spec.loaded x.c x.integ x.line else x.line) ∧ t.time.integ = x.integ ∧ t.time.pend = x.pend
    ∧ (a ∨ b → t.bit TU_STAT TU_STAT_HOLDOVER = true ∧ Begun s t 2 0x1C 0 ((if a then 1 else 0) + if b then 2 else 0))
    ∧ (¬(a ∨ b) → t.col = s.col)
/-- The signed 48.16 value of a HI word over a held LO word (R328). -/
def Spec.pair (hi lo : W) : Int := (hi.setWidth 16 ++ lo).toInt
def Spec.steps : List Nat := [TU_STEP_PEND_LO, TU_STEP_PEND_HI, TU_STEP_REF_CNT]

/-- R304–R316, R322, R323: the counter and the two scales, samples, the servo's states, steps, and PPS. A quotient that the rules do not
round is left between its two neighbours (log 3). That the half second between PPS edges is counted on C is log 13's, and the first sample's
line time log 62's (DEDUCED). -/
def Obligations.TimeServo : Prop :=
  ∀ (s : State) (p : Party) (v : W), s.Wf → s.pwr.dead = false →
    let x := s.time
    let src := s.fld TU_SRV_CFG TU_SRV_CFG_SRC
    (src = 1 → Gives (.tuMeasCommit p v) s fun t => Spec.sampleTaken s t (Spec.pair v x.measLo) 1 ∧ Spec.servoFrame s t Spec.steps)
    ∧ (src ≠ 1 → Gives (.tuMeasCommit p v) s fun t => Unchanged s t)
    ∧ (src = 0 → Gives (.tuAdjCommit p v) s fun t => Spec.sampleTaken s t (Spec.pair v x.adjLo) 0 ∧ Spec.servoFrame s t Spec.steps)
    ∧ (src ≠ 0 → Gives (.tuAdjCommit p v) s fun t => Unchanged s t)
    ∧ (src = 0 → Gives (.rateCommit p false v) s fun t =>
      t = { s.quiet with time := { x with stamp := Spec.loaded x.c (v.setWidth 8 ++ x.rateLo).toInt x.stamp } })
    ∧ (src ≠ 0 → Gives (.rateCommit p false v) s fun t => Unchanged s t)
    ∧ (Gives (.rateCommit p true v) s fun t => Unchanged s t)
    ∧ (∀ line hi : Bool,
      let put := fun k : Scale => { k with e := if hi then v.setWidth 16 ++ k.e.setWidth 32 else k.e.extractLsb' 32 16 ++ v }
      let unset := (if line then s.lineSt else s.stampSt) = 0
      (unset → Gives (.epochWrite p line hi v) s fun t =>
        t = { s.quiet with time := if line then { x with line := put x.line } else { x with stamp := put x.stamp } })
      ∧ (¬unset → Gives (.epochWrite p line hi v) s fun t => t.bit TU_STAT TU_STAT_CMD_REFUSED = true ∧ t.time = x
        ∧ t.stampSt = s.stampSt ∧ t.lineSt = s.lineSt ∧ Spec.servoFrame s t []))
    ∧ (Gives (.tuSrcWrite p v) s fun t => t.reg TU_SRV_CFG = v &&& impOf TU_SRV_CFG
      ∧ t.time.last = (if getFld v TU_SRV_CFG_SRC = src then x.last else none)
      ∧ (getFld v TU_SRV_CFG_SRC = 0 → Spec.heldOver s t)
      ∧ (getFld v TU_SRV_CFG_SRC ≠ 0 → { t.time with last := none } = { x with last := none } ∧ t.reg TU_STAT = s.reg TU_STAT ∧ t.col = s.col)
      ∧ Spec.servoFrame s t [TU_SRV_CFG])
    ∧ (let late := 1250000 * s.fld TU_SRV_LIM TU_SRV_LIM_TIMEOUT ≤ x.c - x.acc
      (late → Gives .sampleTimeout s fun t => t.bit TU_STAT TU_STAT_SRC_OK = false ∧ Spec.heldOver s t ∧ t.time.last = x.last
        ∧ t.time.acc = x.acc ∧ Spec.servoFrame s t [])
      ∧ (¬late → Gives .sampleTimeout s fun t => Unchanged s t))
    ∧ (∀ m : Option Int,
      (s.stampSt = 3 → Gives (.stepAccept p m) s fun t => Spec.tracking t
        ∧ t.time = { x with stamp := { x.stamp with o := x.stamp.o + x.pend * 65536 }, line := Spec.loaded x.c x.integ x.line }
        ∧ Spec.counted s t TU_STEP_CNT 1 ∧ t.bit TU_STAT TU_STAT_STEPPED = true
        ∧ t.reg TU_DISCARD_CNT = (if m.isSome then BitVec.ofNat 32 (min ((s.reg TU_DISCARD_CNT).toNat + 1) 0xFFFFFFFF) else s.reg TU_DISCARD_CNT)
        ∧ t.bit TU_STAT TU_STAT_DISCARD = (s.bit TU_STAT TU_STAT_DISCARD || m.isSome)
        ∧ Spec.servoFrame s t [TU_STEP_CNT, TU_DISCARD_CNT])
      ∧ (s.stampSt ≠ 3 → Gives (.stepAccept p m) s fun t => t.bit TU_STAT TU_STAT_CMD_REFUSED = true
        ∧ (m = none → t.time = x ∧ t.stampSt = s.stampSt ∧ t.lineSt = s.lineSt) ∧ (∀ e, m = some e → Spec.sampleTaken s t e src)
        ∧ Spec.servoFrame s t Spec.steps))
    ∧ (Gives (.resetTime p) s fun t => t.stampSt = 0 ∧ t.lineSt = 0 ∧ t.holds 2 0x1C 0 0 = false ∧ t.holds 2 0x1D 2 0 = false
      ∧ t.time = { x with stamp := ⟨0, 0, 0, x.c⟩, line := ⟨0, 0, 0, x.c⟩, integ := 0, pend := 0, ppsOut := false, held := t.time.held }
      ∧ Spec.pendIs t 0 ∧ (∀ h : Harn, t.heldTx h = [] ∧ t.reg (LAUNCH_DROP_CNT h)
        = BitVec.ofNat 32 (min ((s.reg (LAUNCH_DROP_CNT h)).toNat + (s.heldTx h).length) 0xFFFFFFFF))
      ∧ (x.ppsOut = true → .ppsOut false ∈ t.out) ∧ Spec.vec58 s t
      ∧ ∀ a ∈ [TU_CTL, TU_SRV_CFG, TU_SRV_GAIN, TU_SRV_LIM, TU_LINE_CFG, TU_STEP_REF_CNT, TU_STEP_CNT, TU_DISCARD_CNT], t.reg a = s.reg a)
    ∧ (∀ line : Bool,
      let k := if line then x.line else x.stamp
      let c := if line then 1 else 0
      let ts := scaleNum x.c k / (5 * 2 ^ 32)
      let is := fun (t : State) (a : Nat) (w : Int) => t.latched p a = BitVec.ofInt 32 w
      Gives (.tuNowRead p line) s fun t => t.out = [.read p (BitVec.ofInt 32 ts)] ∧ is t (NOW_TS_HI c) (ts % 2 ^ 48 / 2 ^ 32)
        ∧ is t (NOW_SEC_LO c) (ts / 65536 / 1000000000) ∧ is t (NOW_SEC_HI c) (ts / 65536 / 1000000000 / 2 ^ 32 % 2 ^ 16)
        ∧ is t (NOW_NSEC c) (ts / 65536 % 1000000000) ∧ { t with latch := s.latch, out := [] } = s.quiet)
    ∧ (∀ rising : Bool,
      let wrong := rising = s.bit TU_PPS_CFG TU_PPS_CFG_IN_EDGE
      let soon := x.ppsIn.elim False fun c0 => (x.c : Int) - c0 < 625000000
      let dly := ((s.reg TU_PPS_IN_DLY).setWidth 16).toInt
      let ts := (scaleNum x.c x.stamp - dly * 2 ^ 47) / (5 * 2 ^ 32)
      let m := -ts % (10 ^ 9 * 65536)
      (wrong → Gives (.ppsInEdge rising) s fun t => Unchanged s t)
      ∧ (¬wrong → soon → Gives (.ppsInEdge rising) s fun t => t.bit TU_STAT TU_STAT_PPS_GLITCH = true ∧ t.time = x ∧ Spec.servoFrame s t [])
      ∧ (¬wrong → ¬soon → Gives (.ppsInEdge rising) s fun t => t.time.ppsIn = some x.c
        ∧ (t.reg TU_PPS_IN_TS_HI ++ t.reg TU_PPS_IN_TS_LO) = BitVec.ofInt 64 (ts % 2 ^ 48)
        ∧ (src = 3 → Spec.sampleTaken s t (if 5 * 10 ^ 8 * 65536 < m then m - 10 ^ 9 * 65536 else m) 3)
        ∧ (src ≠ 3 → t.time = { x with ppsIn := some x.c } ∧ t.reg TU_STAT = s.reg TU_STAT)))
    ∧ (let line := s.bit TU_PPS_CFG TU_PPS_CFG_OUT_CLASS
      let st := if line then s.lineSt else s.stampSt
      -- within 1.6 ns, 104,857 steps of 2^-16 ns, of a whole second
      let off := (scaleNum x.c (if line then x.line else x.stamp) / (5 * 2 ^ 32) + 104857) % (10 ^ 9 * 65536)
      let rise := s.bit TU_PPS_CFG TU_PPS_CFG_OUT_EN = true ∧ st ≠ 0 ∧ x.ppsOut = false ∧ off ≤ 209714
      (rise → Gives .ppsOutSecond s fun t => t = { s.quiet with time := { x with ppsOut := true, rise := x.c }, out := [.ppsOut true] })
      ∧ (¬rise → Gives .ppsOutSecond s fun t => Unchanged s t))
    ∧ (let fall := x.ppsOut = true ∧ 1250 * s.fld TU_PPS_CFG TU_PPS_CFG_WIDTH ≤ x.c - x.rise
      (fall → Gives .ppsOutWidthEnd s fun t => t = { s.quiet with time := { x with ppsOut := false }, out := [.ppsOut false] })
      ∧ (¬fall → Gives .ppsOutWidthEnd s fun t => Unchanged s t))

/-- The descriptor at a ring index of TXQ_BASE (R329). -/
def Spec.desc (s : State) (h : Harn) (i : Nat) : Desc :=
  let k := ((s.reg (TXQ_BASE h)).toNat + 16 * i) % 2 ^ 25
  ⟨i, s.word k, s.word (k + 4), (s.word (k + 12)).setWidth 16 ++ s.word (k + 8)⟩
/-- Bytes are in comb memory from `k` on, unless the steward holds them (R351). -/
def Spec.put (s t : State) (k : Nat) (l : List Byte) : Prop :=
  if s.combHeld k l.length then t.bit STW_CMD_STAT STW_CMD_STAT_WRITE_BLOCKED = true
  else ∀ i ∈ List.range l.length, k + i < 2 ^ 25 → t.byte (k + i) = l.getD i 0#8
/-- A descriptor's completion entry, at its own index of TXC_BASE (log 12), and line 13 of the time drone (R329, R398). -/
def Spec.completed (s t : State) (h : Harn) (d : Desc) (status : Nat) : Prop :=
  Spec.put s t (((s.reg (TXC_BASE h)).toNat + 16 * d.slot) % 2 ^ 25)
    (leBytes 4 (status * 2 ^ 24 + (d.word1.extractLsb' 16 8).toNat) ++ leBytes 8 (scaleTs s.time.c s.time.stamp) ++ leBytes 4 0)
    ∧ (t.drnS 54).evpend.getLsbD 13 = true
/-- The lanes' clocks for the frame of a descriptor: LENGTH and 8 bytes of preamble, at 160 bits a clock and lane. That no gap follows is
log 12's (DESIGN CHOICE). -/
def Spec.sendClks (s : State) (h : Harn) (d : Desc) : Nat :=
  let b := 160 * Spec.portLanes (s.reg (PORT_CFG h (s.fld (TU_TPORT_CFG h) TU_TPORT_CFG_LANE)))
  (8 * ((d.word1.extractLsb' 0 11).toNat + 8) + (b - 1)) / b
/-- How far a launch time lies ahead of line time, in 2^-16 ns (R321). -/
def Spec.ahead (s : State) (d : Desc) : Int := (d.launch - BitVec.ofNat 48 (scaleTs s.time.c s.time.line)).toInt
/-- The frame of a descriptor leaves, or is dropped while the port is not aligned (R320, R321); nothing shows at held pads (R479). ONE_STEP
edits it (log 14). -/
def Spec.tpSent (s t : State) (h : Harn) (d : Desc) (late : Bool) : Prop :=
  let up := s.bit (PORT_STAT h (s.fld (TU_TPORT_CFG h) TU_TPORT_CFG_LANE)) PORT_STAT_ALIGNED
  let f := s.bytes (d.addr.toNat % 2 ^ 25) (d.word1.extractLsb' 0 11).toNat
  (up = false → t.out = [] ∧ Spec.counted s t (LAUNCH_DROP_CNT h) 1 ∧ Spec.completed s t h d 2
      ∧ t.reg (LAUNCH_LATE_CNT h) = s.reg (LAUNCH_LATE_CNT h) ∧ t.time.busy = s.time.busy)
    ∧ (up = true → t.out = (if s.bit (PWR_DOM (48 + h)) PWR_DOM_PAD_HOLD then []
        else [.frame h (if d.word1.getLsbD 30 then oneStep f (scaleT s.time.c s.time.stamp) else f) late])
      ∧ Tab.get t.time.busy (fun _ => 0) h = s.time.c + Spec.sendClks s h d
      ∧ Spec.completed s t h d (if late then 1 else 0) ∧ t.reg (LAUNCH_DROP_CNT h) = s.reg (LAUNCH_DROP_CNT h)
      ∧ Spec.counted s t (LAUNCH_LATE_CNT h) (if late then 1 else 0))
/-- The frames that wait for a port once one more is there: launched ones first (R321; the order is log 12's). -/
def Spec.waiting (s : State) (h : Harn) (d : Desc) (late : Bool) : List (Desc × Bool) :=
  let l := s.waitTx h
  if d.word1.getLsbD 31 then l.takeWhile (fun y => y.1.word1.getLsbD 31) ++ (d, late) :: l.dropWhile fun y => y.1.word1.getLsbD 31
  else l ++ [(d, late)]
/-- The bytes of the completion entry of a ring index. -/
def Spec.entry (s : State) (h : Harn) (i b : Nat) : Prop :=
  let k := ((s.reg (TXC_BASE h)).toNat + 16 * i) % 2 ^ 25
  k ≤ b ∧ b < k + 16
/-- What timing ports may change: the words of `A`, the bytes of `K`, the marks that a write of comb memory touches, and time drone's lines. -/
def Spec.portFrame (s t : State) (A : List Nat) (K : Nat → Prop) : Prop :=
  Only s t (fun a => a ∈ A ∨ a = STW_CMD_STAT ∨ (0x400000 ≤ a ∧ a < 0x500000))
      (fun u => { u with drn := [], mem := [], poison := [], ecc := .init, time := .init })
    ∧ UnitBut State.drnS s t 54 (fun e => { e with evpend := 0 })
    ∧ { t.time with held := [], wait := [], busy := [] } = { s.time with held := [], wait := [], busy := [] }
    ∧ BytesBut s t K
/-- Of the timing ports only that of harness `h` changes what it holds, what waits, and how long it is busy. -/
def Spec.portOnly (s t : State) (h : Harn) : Prop :=
  ∀ g : Harn, g ≠ h → t.heldTx g = s.heldTx g ∧ t.waitTx g = s.waitTx g ∧ Tab.get t.time.busy (fun _ => 0) g = Tab.get s.time.busy (fun _ => 0) g
/-- The frames `w` wait, and the descriptors `held` are held: the first frame leaves when the port is free and, unless it was launched
itself, it would be gone at the first held launch (R321). -/
def Spec.portGoes (s t : State) (h : Harn) (w : List (Desc × Bool)) (held : List Desc) (A : List Nat) : Prop :=
  t.heldTx h = held ∧ Spec.portOnly s t h ∧ ∀ d late r, w = (d, late) :: r →
    let fits := Tab.get s.time.busy (fun _ => 0) h ≤ s.time.c
      ∧ (d.word1.getLsbD 31 = true ∨ ∀ y, held.head? = some y → (Spec.sendClks s h d : Int) * 262144 ≤ 5 * Spec.ahead s y)
    (fits → Spec.tpSent s t h d late ∧ t.waitTx h = r ∧ Spec.portFrame s t (A ++ [LAUNCH_LATE_CNT h, LAUNCH_DROP_CNT h]) (Spec.entry s h d.slot))
    ∧ (¬fits → t.waitTx h = w ∧ t.out = [] ∧ t.time.busy = s.time.busy ∧ Spec.portFrame s t A fun _ => False)
/-- R320, R321, R329: timing ports, their receive rings, and scheduled launch. How long a frame leaves and the order of waiting frames are
log 12's (DESIGN CHOICE). -/
def Obligations.TimingPorts : Prop :=
  ∀ (s : State) (p : Party) (h : Harn) (v : W), s.Wf → s.pwr.dead = false →
    let en := s.bit (TU_TPORT_CFG h) TU_TPORT_CFG_EN
    let held := s.heldTx h
    let ahead := Spec.ahead s
    (let used := ∃ c ∈ s.ctxLive, s.ctxPort c = 64 * h.val + getFld v TU_TPORT_CFG_LANE;
      (v.getLsbD 31 = true → used → Gives (.tportCfgWrite p h v) s fun t => t.bit TU_STAT TU_STAT_CMD_REFUSED = true ∧ t.time = s.time
        ∧ t.stampSt = s.stampSt ∧ t.lineSt = s.lineSt ∧ Spec.servoFrame s t [])
      ∧ (¬(v.getLsbD 31 = true ∧ used) → Gives (.tportCfgWrite p h v) s fun t =>
        t.reg (TU_TPORT_CFG h) = v &&& impOf (TU_TPORT_CFG h) ∧ OnlyRegsOf s t fun a => a = TU_TPORT_CFG h))
    ∧ (∀ f : List Byte,
      let ptp := ptpFrame f
      let wr := s.fld (RXQ_WR h) RXQ_WR_IDX
      let k := ((s.reg (RXQ_BASE h)).toNat + 2048 * wr) % 2 ^ 25
      let full := (wr + 1) % 64 = s.fld (RXQ_RD h) RXQ_RD_IDX
      (en = false → Gives (.tportRxFrame h f) s fun t => Unchanged s t)
      ∧ (en = true → ptp = false ∨ full → Gives (.tportRxFrame h f) s fun t => Spec.counted s t (RX_DISCARD_CNT h) 1
        ∧ OnlyRegsOf s t fun a => a = RX_DISCARD_CNT h)
      ∧ (en = true → ptp = true → ¬full → Gives (.tportRxFrame h f) s fun t => Spec.put s t k (f.take 2040)
        ∧ Spec.put s t (k + 2040) (leBytes 8 (scaleTs s.time.c s.time.stamp)) ∧ t.fld (RXQ_WR h) RXQ_WR_IDX = (wr + 1) % 64
        ∧ (t.drnS 54).evpend.getLsbD 12 = true ∧ Spec.portFrame s t [RXQ_WR h] (fun b => k ≤ b ∧ b < k + 2048) ∧ t.time = s.time ∧ t.out = []))
    ∧ (let old := s.fld (TXQ_WR h) TXQ_WR_IDX
      let d := Spec.desc s h old
      let qs := [TXQ_WR h, TXQ_RD h]
      let full := 64 ≤ held.length + (s.waitTx h).length
      let at_ := fun (t : State) (i : Nat) => t.fld (TXQ_WR h) TXQ_WR_IDX = i ∧ t.fld (TXQ_RD h) TXQ_RD_IDX = i
      (en = false → Gives (.txqWrWrite p h v) s fun t => t.reg (TXQ_WR h) = v &&& impOf (TXQ_WR h) ∧ OnlyRegsOf s t fun a => a = TXQ_WR h)
      ∧ (en = true → getFld v TXQ_WR_IDX = old ∨ full → Gives (.txqWrWrite p h v) s fun t => at_ t old
        ∧ OnlyRegsOf s t fun a => a = TXQ_WR h ∨ a = TXQ_RD h)
      ∧ (en = true → getFld v TXQ_WR_IDX = (old + 1) % 64 → ¬full → Gives (.txqWrWrite p h v) s fun t => at_ t ((old + 1) % 64)
        ∧ (d.word1.getLsbD 31 = false → Spec.portGoes s t h (Spec.waiting s h d false) held qs)
        ∧ (d.word1.getLsbD 31 = true → ahead d < 0 → Spec.portGoes s t h (Spec.waiting s h d true) held qs)
        ∧ (d.word1.getLsbD 31 = true → 0 ≤ ahead d → t.out = [] ∧ t.waitTx h = s.waitTx h ∧ t.time.busy = s.time.busy ∧ Spec.portFrame s t qs (fun _ => False)
          ∧ Spec.portOnly s t h ∧ ∃ i, i ∈ List.range (held.length + 1) ∧ t.heldTx h = held.take i ++ d :: held.drop i
            ∧ (∀ y ∈ held.take i, ahead y ≤ ahead d) ∧ (∀ y, (held.drop i).head? = some y → ahead d < ahead y))))
    ∧ (held = [] → Gives (.launchDue h) s fun t => Unchanged s t)
    ∧ ∀ d, held.head? = some d →
      (ahead d ≤ 0 → Gives (.launchDue h) s fun t =>
        Spec.portGoes s t h (Spec.waiting s h d (decide (s.time.c < Tab.get s.time.busy (fun _ => 0) h))) held.tail [])
      ∧ (¬ahead d ≤ 0 → Gives (.launchDue h) s fun t => Unchanged s t)

/-! The monitor chain (11_monitor_chain.md). -/

/-- Channel `q` of an engine's chain. -/
def Spec.chan (s : State) (n : Eng) (q : Fin 8) : MonCh := (s.engS n).mon.chan q
/-- The receiver states in which a channel's source is valid (R330). -/
abbrev Spec.sourced (s : State) (n : Eng) (q : Fin 8) : Prop :=
  (if q = 0 then 2 else if q = 7 then 4 else 7) ≤ s.rxState n
/-- A START may be accepted (R337). -/
abbrev Spec.startable (s : State) (n : Eng) : Prop :=
  6 ≤ s.monR n ∧ s.monR n ≤ 12 ∧ s.monNT n ≠ 0 ∧ s.fld (MON_CFG n) MON_CFG_MED ≤ 4
/-- An integrator or comb of five (R331). -/
def Spec.at5 (l : List (BitVec 76)) (i : Nat) : BitVec 76 := l.getD i 0#76
/-- What the chain of an engine may change. -/
def Spec.monFrame (s t : State) (n : Eng) (A : Nat → Prop) : Prop :=
  Only s t A (fun u => { u with eng := [], drn := [] }) ∧ UnitBut State.engS s t n (fun e => { e with mon := .init })
    ∧ UnitBut State.drnS s t n (fun e => { e with evpend := 0 })
/-- `m` is the median of a list of odd length (R333). -/
def Spec.median (l : List Int) (m : Int) : Prop :=
  m ∈ l ∧ 2 * (l.filter fun x => decide (x < m)).length < l.length ∧ 2 * (l.filter fun x => decide (m < x)).length < l.length
/-- One datapath clock of a channel while the chain runs: the raw value, the integrators, the clocks of validity, and, where `cic`, the
combs and the FIR history (R330, R331, R335). -/
def Spec.chanClock (s t : State) (n : Eng) (q : Fin 8) (x : BitVec 16) (cic : Bool) : Prop :=
  let c := Spec.chan s n q
  let d := Spec.chan t n q
  let r := s.monR n
  d.raw = (if Spec.sourced s n q then x else c.raw) ∧ d.since = (if Spec.sourced s n q then c.since + 1 else 0)
    ∧ d.integ.length = 5 ∧ Spec.at5 d.integ 0 = Spec.at5 c.integ 0 + d.raw.signExtend 76
    ∧ (∀ i ∈ [1, 2, 3, 4], Spec.at5 d.integ i = Spec.at5 c.integ i + Spec.at5 d.integ (i - 1))
    ∧ (cic = false → d.comb = c.comb ∧ d.fir = c.fir)
    ∧ (cic = true → d.comb.length = 5 ∧ Spec.at5 d.comb 0 = Spec.at5 d.integ 4
      ∧ (∀ i ∈ [1, 2, 3, 4], Spec.at5 d.comb i = Spec.at5 d.comb (i - 1) - Spec.at5 c.comb (i - 1))
      ∧ d.fir = (BitVec.ofInt 20 (rneDiv (Spec.at5 d.comb 4 - Spec.at5 c.comb 4).toInt (2 ^ (5 * r - 4))) :: c.fir).take 63)
/-- The exact FIR sum of a channel over 2^14, to nearest with halves to even (R332). -/
def Spec.fir (s t : State) (n : Eng) (q : Fin 8) : Int :=
  rneDiv ((List.range (s.monNT n)).map fun i => ((s.reg (MON_FIR n i)).setWidth 16).toInt * ((Spec.chan t n q).fir.getD i 0#20).toInt).sum 16384
/-- What a command with datapath words finds at the clock of its last word `w`, after the words `ws`: the receive chain has taken `w`. -/
def Spec.atClock (s : State) (n : Eng) (ws : List CapWord) (w : CapWord) : State :=
  (Op.all [Op.segOpen n (256 * (s.engS n).rxp.wordN), Op.each ws fun x => Op.all [Op.wordIn n x, Op.symbols n, Op.monClock n x],
    Op.wordIn n w, Op.symbols n]).run s.quiet
/-- A run of the chain begins anew (R337): the histories are cleared, and the last valid raw values stand. -/
def Spec.monAnew (s t : State) (n : Eng) : Prop :=
  t.reg (MON_FINE_CNT n) = 0#32 ∧ (t.engS n).mon.clk = 0 ∧ (t.engS n).mon.cic = 0
    ∧ ∀ q : Fin 8, Spec.chan t n q = { MonCh.init with raw := (Spec.chan s n q).raw }
/-- R330–R340, R344: START, STOP, configuration, a datapath clock of the fine path, the latching reads, LIVE_INV and MON_GD, and the restart
by an immediate swap that changes the symbol rate. STOP acts before START (DEDUCED, log 41); values before START count as 0, and the fixed
pipeline of 8 clocks is timing (DESIGN CHOICE, log 50). -/
def Obligations.MonitorChain : Prop :=
  ∀ (s : State) (p : Party) (n : Eng) (v : W), s.Wf →
    let run := s.bit (MON_STAT n) MON_STAT_RUN
    (Spec.served s (MON_CTL n) → v.getLsbD 30 = false →
      (Spec.startable s n → Gives (.monStart p n v) s fun t => t.bit (MON_STAT n) MON_STAT_RUN = true ∧ Spec.monAnew s t n
        ∧ Spec.monFrame s t n fun a => a = MON_STAT n ∨ a = MON_FINE_CNT n)
      ∧ (¬Spec.startable s n → Gives (.monStart p n v) s fun t =>
        t.reg (MON_STAT n) = setFld (s.reg (MON_STAT n)) MON_STAT_CFG_REFUSED 1 ∧ OnlyRegsOf s t fun a => a = MON_STAT n))
    ∧ (Spec.served s (MON_CTL n) → v.getLsbD 31 = false → Gives (.monStop p n v) s fun t =>
      t.reg (MON_STAT n) = setFld (s.reg (MON_STAT n)) MON_STAT_RUN 0 ∧ OnlyRegsOf s t fun a => a = MON_STAT n)
    ∧ (Spec.served s (MON_CTL n) → ∃ a b, exec (.monStop p n (v &&& 0x7FFFFFFF#32)) s = .next a
      ∧ exec (.monStart p n (v &&& 0xBFFFFFFF#32)) a = .next b ∧ exec (.monStart p n (v ||| 0x40000000#32)) s = .next b
      ∧ exec (.monStop p n (v ||| 0x80000000#32)) s = .next b)
    ∧ (∀ a : W, Spec.served s (MON_CFG n) →
      let cfg := a.toNat = MON_CFG n ∨ (∃ i ∈ List.range 63, a.toNat = MON_FIR n i)
      let ok := a.toNat = MON_OSNR_CORR n ∨ (cfg ∧ run = false)
      (ok → Gives (.monConfigWrite p n a v) s fun t => t.reg a.toNat = v &&& impOf a.toNat ∧ OnlyRegsOf s t fun b => b = a.toNat)
      ∧ (cfg → run = true → Gives (.monConfigWrite p n a v) s fun t =>
        t.reg (MON_STAT n) = setFld (s.reg (MON_STAT n)) MON_STAT_CFG_REFUSED 1 ∧ OnlyRegsOf s t fun b => b = MON_STAT n))
    ∧ (∀ blocks : BitVec 15, Spec.served s (ENG_SWAP_REQ n) → Gives (.swapImmediate p n blocks) s fun t =>
      t.bit (MON_STAT n) MON_STAT_RUN = run
      ∧ (if run = true ∧ t.engSr n ≠ s.engSr n then Spec.monAnew s t n
         else (t.engS n).mon = (s.engS n).mon ∧ t.reg (MON_FINE_CNT n) = s.reg (MON_FINE_CNT n)))
    ∧ (let m : Int := 2 * s.fld (MON_CFG n) MON_CFG_MED + 1
      let r : Int := 2 ^ s.monR n
      let gd := 16 + 5 * (r - 1) + r * ((s.monNT n : Int) - 1) + r * 2 ^ s.fld (MON_CFG n) MON_CFG_DEC * (m - 1)
      Spec.served s (MON_STAT n) →
        (Gives (.readClear p .bar0 (BitVec.ofNat 32 (MON_STAT n)) 0) s fun t => ∃ w : W, t.out = [.read p w]
          ∧ (∀ q : Fin 8, w.getLsbD (8 + q) = !decide (Spec.sourced s n q))
          ∧ setFld w MON_STAT_LIVE_INV 0 = setFld (s.reg (MON_STAT n)) MON_STAT_LIVE_INV 0 ∧ Only s t (fun _ => False) id)
        ∧ (m ≤ 9 → Gives (.readClear p .bar0 (BitVec.ofNat 32 (MON_GD n)) 0) s fun t =>
          t = { s with out := [.read p (BitVec.ofInt 32 (gd % 2 ^ 20))] }))
    ∧ (∀ ws, s.domState n ≠ 0 ∨ ws = [] → Gives (.monFineOutput n ws) s fun t => Unchanged s t)
    ∧ (∀ ws w, s.domState n = 0 → Gives (.monFineOutput n (ws ++ [w])) s fun t =>
      let u := Spec.atClock s n ws w
      let run := u.bit (MON_STAT n) MON_STAT_RUN
      let x := fun q : Fin 8 => u.rawVal n q w
      (run = false → (∀ q : Fin 8, Spec.chan t n q = { Spec.chan u n q with raw := if Spec.sourced u n q then x q else (Spec.chan u n q).raw })
        ∧ Spec.monFrame u t n fun _ => False)
      ∧ (run = true → (∀ q : Fin 8, (Spec.chan u n q).integ.length = 5 ∧ (Spec.chan u n q).comb.length = 5) →
        let m := (u.engS n).mon
        let r := 2 ^ u.monR n
        let cic := (m.clk + 1) % r = 0
        let fine := cic ∧ (m.cic + 1) % 2 ^ u.fld (MON_CFG n) MON_CFG_DEC = 0
        let M := 2 * u.fld (MON_CFG n) MON_CFG_MED + 1
        (t.engS n).mon.clk = m.clk + 1 ∧ (t.engS n).mon.cic = (if cic then m.cic + 1 else m.cic)
        ∧ (∀ q : Fin 8, Spec.chanClock u t n q (x q) (decide cic))
        ∧ (¬fine → (∀ q : Fin 8, (Spec.chan t n q).med = (Spec.chan u n q).med) ∧ Spec.monFrame u t n fun _ => False)
        ∧ (fine → (∀ q : Fin 8,
            let y := Spec.fir u t n q
            let d := Spec.chan t n q
            d.med = (BitVec.ofInt 20 (max (-524288) (min 524287 y)) :: (Spec.chan u n q).med).take 9
            ∧ Spec.median ((List.range M).map fun i => (d.med.getD i 0#20).toInt) ((t.reg (MON_FINE n q)).setWidth 20).toInt
            ∧ (t.reg (MON_FINE n q)).getLsbD 31 = decide (5 * r + r * u.monNT n + r * 2 ^ u.fld (MON_CFG n) MON_CFG_DEC * M ≤ d.since))
          ∧ t.bit (MON_STAT n) MON_STAT_FIR_SAT = (u.bit (MON_STAT n) MON_STAT_FIR_SAT
            || (List.range 8).any fun q => decide (Spec.fir u t n (Fin.ofNat 8 q) < -524288 ∨ 524287 < Spec.fir u t n (Fin.ofNat 8 q)))
          ∧ t.reg (MON_FINE_CNT n) = u.reg (MON_FINE_CNT n) + 1#32
          ∧ (u.bit (MON_CFG n) MON_CFG_EV = true → (t.drnS n).evpend.getLsbD 8 = true)
          ∧ Spec.monFrame u t n fun a => a = MON_STAT n ∨ a = MON_FINE_CNT n ∨ (MON_FINE n 0 ≤ a ∧ a ≤ MON_FINE n 7))))
    ∧ (∀ ws : List CapWord,
      let u := Spec.sampled s n ws
      let w := fun q : Fin 8 => (BitVec.ofBool (decide (Spec.sourced u n q)) ++ (0#15 ++ (Spec.chan u n q).raw) : W)
      let reads := fun t : State => { t with latch := u.latch, out := [] } = { u with out := [] }
      (Spec.served s (MON_FINE n 0) → Gives (.monFineRead p n ws) s fun t => t.out = u.out ++ [.read p (u.reg (MON_FINE n 0))]
        ∧ (∀ q ∈ List.range 7, t.latched p (MON_FINE n (q + 1)) = u.reg (MON_FINE n (q + 1)))
        ∧ t.latched p (MON_FINE_CNT n) = u.reg (MON_FINE_CNT n) ∧ reads t)
      ∧ (Spec.served s (MON_COARSE n 0) → Gives (.monCoarseRead p n ws) s fun t => t.out = u.out ++ [.read p (w 0)]
        ∧ (∀ q : Fin 8, q ≠ 0 → t.latched p (MON_COARSE n q) = w q) ∧ reads t))

/-! The steward and the hive (12_hive_and_firmware.md). -/

/-- An MSI-X vector is raised (R300). -/
def Spec.vector (s t : State) (v : Nat) : Prop :=
  let masked := (s.reg (MSIX_TABLE (4 * v + 3))).getLsbD 0
  (masked = false → .msix v ∈ t.out) ∧ (masked = true → (t.reg (MSIX_PBA (v / 32))).getLsbD (v % 32) = true)
/-- The slot of mailbox 56 that the steward writes next (R359). -/
def Spec.slot (s : State) : Nat := 0x71000 + 64 * (s.fld (HIVE_MBX_D2H_WR 56) HIVE_MBX_D2H_WR_WR % 64)
/-- A steward command has ended with ERR: its message is posted, with the body after ERR (R362, R376). -/
def Spec.stwEnded (s t : State) (op err : Nat) (body : List Byte) : Prop :=
  let w := s.fld (HIVE_MBX_D2H_WR 56) HIVE_MBX_D2H_WR_WR
  t.stw.op = none ∧ t.bit STW_CMD_STAT STW_CMD_STAT_BUSY = false ∧ t.fld STW_CMD_STAT STW_CMD_STAT_ERR = err
    ∧ t.bytes (Spec.slot s) (5 + body.length) = leBytes 4 (op * 2 ^ 24 + 1 + body.length) ++ BitVec.ofNat 8 err :: body
    ∧ t.fld (HIVE_MBX_D2H_WR 56) HIVE_MBX_D2H_WR_WR = (w + 1) % 128
    ∧ (s.bit (HIVE_MBX_CFG 56) HIVE_MBX_CFG_IRQ = true → Spec.vector s t 1)
/-- What a steward command may change: STW_CMD_STAT and the words of `A`, its message and the bytes of `K`, the marks of those words, and
its own hidden state. -/
def Spec.stwFrame (s t : State) (A : List Nat) (K : Nat → Prop) : Prop :=
  Only s t (fun a => a ∈ A ∨ a = STW_CMD_STAT ∨ a = HIVE_MBX_D2H_WR 56 ∨ a = MSIX_PBA 0 ∨ (0x400000 ≤ a ∧ a < 0x500000))
      (fun u => { u with stw := .init, mem := [], poison := [], ecc := .init, fresh := 0 })
    ∧ BytesBut s t fun k => K k ∨ (Spec.slot s ≤ k ∧ k < Spec.slot s + 64)
/-- A command that ends at its GO. -/
def Spec.stwDone (s t : State) (op err : Nat) (body : List Byte) : Prop :=
  Spec.stwEnded s t op err body ∧ t.stwState = s.stwState ∧ t.fld STW_CMD_STAT STW_CMD_STAT_LAST_OP = op ∧ Spec.stwFrame s t [] fun _ => False
/-- A command that runs from its GO on, over the range of its arguments (R351). -/
def Spec.stwRuns (s t : State) (op : Nat) : Prop :=
  t.stw = { s.stw with op := some op, addr := (s.reg STW_ARG_ADDR).toNat, len := (s.reg STW_ARG_LEN).toNat }
    ∧ t.bit STW_CMD_STAT STW_CMD_STAT_BUSY = true ∧ t.fld STW_CMD_STAT STW_CMD_STAT_ERR = 0
    ∧ t.fld STW_CMD_STAT STW_CMD_STAT_LAST_OP = op
    ∧ Only s t (fun a => a = STW_CMD_STAT) (fun u => { u with stw := .init, tap := ⟨0, []⟩ })
/-- A slot of the fuses holds a key that is not revoked (R358). -/
def Spec.keyLeft (s : State) (slot : Nat) : Bool :=
  Config.fuseKeyPresent.getLsbD slot && !(Config.fuseKeyRevoked ||| s.stw.revoked).getLsbD slot
def Spec.minSvn (s : State) : Nat := (s.stw.minSvn.getD Config.fuseMinSvn).toNat
/-- The refusal of a staged vault record (R372); where its LENGTH does not match ARG_LEN, BAD_RECORD (DEDUCED, log 22). -/
def Spec.recordError (s : State) : Nat :=
  let a := (s.reg STW_ARG_ADDR).toNat
  let len := (s.reg STW_ARG_LEN).toNat
  let typ := leVal (s.bytes a 2)
  let n := leVal (s.bytes (a + 4) 4)
  if 2 ^ 25 < a + len then 4
  else if typ = 0 ∨ typ = 0xFFFF ∨ n % 4 ≠ 0 ∨ 16384 < n ∨ len ≠ 36 + n then 13
  else if n ≠ 0 ∧ 896 * 1024 < vaultLive s.vaultRecs typ (leVal (s.bytes (a + 2) 2)) + (len + 15) / 16 * 16 then 14
  else 0
/-- R351–R353, R358, R362, R365, R372, R375, R376, R538: the GO of each steward command. A GO that check 1 refuses leaves STATE, and the
running image of R358 is the image loaded last (DEDUCED, log 21); a steward message's place is log 52's. -/
def Obligations.StewardCommands : Prop :=
  ∀ (s : State) (p : Party) (slot : Fin 4) (op : Fin 8), s.Wf → s.pwr.dead = false →
    let st := s.stwState
    let fused := st = 3 ∧ s.stw.unsig = false
    let auth := fun (t : State) (o : Nat) => Spec.stwRuns s t o ∧ t.stwState = 1
      -- an instruction of the test port that holds the pins ends
      ∧ t.tap = ⟨if s.tap.ir = 0 ∨ (3 ≤ s.tap.ir ∧ s.tap.ir ≤ 6) then 15 else s.tap.ir, s.tap.cells⟩
    let bad := fun op : Fin 8 => op.val < 1 ∨ 5 < op.val
    (s.stw.op.isSome → ∀ i ∈ [Instr.boot p, .update p, .vaultCommit p, .revokeKey p slot, .raiseSvn p, .stwBadOp p op],
      Gives i s fun t => t.reg STW_CMD_STAT = setFld (s.reg STW_CMD_STAT) STW_CMD_STAT_ERR 3 ∧ OnlyRegsOf s t fun a => a = STW_CMD_STAT)
    ∧ (s.stw.op = none →
      (st = 0 ∨ st = 4 → Gives (.boot p) s fun t => auth t 1)
      ∧ (¬(st = 0 ∨ st = 4) → Gives (.boot p) s fun t => Spec.stwDone s t 1 2 [])
      ∧ (st = 3 → Gives (.update p) s fun t => auth t 2)
      ∧ (st ≠ 3 → Gives (.update p) s fun t => Spec.stwDone s t 2 2 [])
      ∧ (Spec.recordError s = 0 → Gives (.vaultCommit p) s fun t => Spec.stwRuns s t 3 ∧ t.stwState = st ∧ t.tap = s.tap)
      ∧ (Spec.recordError s ≠ 0 → Gives (.vaultCommit p) s fun t => Spec.stwDone s t 3 (Spec.recordError s) (List.replicate 11 0#8))
      ∧ (fused → (∃ k ∈ List.range 4, k ≠ slot ∧ Spec.keyLeft s k = true) → Gives (.revokeKey p slot) s fun t =>
        Spec.stwDone s t 4 0 [] ∧ t.stw = { s.stw with op := none, targets := [], waiting := false, revoked := s.stw.revoked ||| (1#4 <<< slot.val) })
      ∧ (¬(fused ∧ ∃ k ∈ List.range 4, k ≠ slot ∧ Spec.keyLeft s k = true) → Gives (.revokeKey p slot) s fun t =>
        Spec.stwDone s t 4 16 [] ∧ t.stw.revoked = s.stw.revoked)
      ∧ (fused → Gives (.raiseSvn p) s fun t => Spec.stwDone s t 5 0 []
        ∧ t.stw.minSvn = some (BitVec.ofNat 7 (max (Spec.minSvn s) (min s.stw.svn 64))))
      ∧ (¬fused → Gives (.raiseSvn p) s fun t => Spec.stwDone s t 5 16 [] ∧ t.stw.minSvn = s.stw.minSvn)
      ∧ (bad op → Gives (.stwBadOp p op) s fun t => Spec.stwDone s t op 1 []))

/-- A segment descriptor that R355 or R356 rejects. -/
abbrev Spec.segBad (s : State) (g : Seg) : Prop :=
  let up := s.stw.op = some 2
  g.last < g.first ∨ 55 < g.last ∨ 2 < g.region ∨ g.len = 0 ∨ g.len % 8 ≠ 0 ∨ g.src % 64 ≠ 0 ∨ g.src < 128 + 16 * s.img 20 4
    ∨ s.img 16 4 < g.src + g.len
    ∨ (g.region = 0 ∧ 0x10000 < g.dest + g.len) ∨ (g.region = 1 ∧ (0x20000 < g.dest + g.len ∨ up))
    ∨ (g.region = 2 ∧ (g.dest < 0x80000 ∨ 2 ^ 25 < g.dest + g.len
      ∨ (s.stw.addr < g.dest + g.len ∧ g.dest < s.stw.addr + s.stw.len)))
/-- Two segments of one region overlap in a drone, or in comb (R356). -/
abbrev Spec.segsMeet (g k : Seg) : Prop :=
  g.region = k.region ∧ g.dest < k.dest + k.len ∧ k.dest < g.dest + g.len
    ∧ (g.region = 2 ∨ (g.first ≤ k.last ∧ k.first ≤ g.last))
def Spec.segCount (s : State) : Nat := min (s.img 20 4) 256
/-- Does a segment write into drone `d`? -/
def Spec.intoDrone (g : Seg) (d : Drn) : Bool := decide (g.region < 2 ∧ g.first ≤ d.val ∧ d.val ≤ g.last)
/-- The drones that a descriptor of the image names as targets, of code or data, or of code alone. -/
def Spec.targeted (s : State) (d : Drn) (code : Bool) : Bool :=
  (List.range (Spec.segCount s)).any fun i => Spec.intoDrone (s.imgSeg i) d && (!code || (s.imgSeg i).region == 0)
/-- The check of R352 and R365 that fails first, from check 2 on; 0 none. SHA-384 and ECDSA over P-384 are those of FIPS 180-4 and
186-5 (log 20). -/
def Spec.imageError (s : State) : Nat :=
  let a := s.stw.addr
  let n := s.img 20 4
  let up := s.stw.op = some 2
  let slot := s.img 11 1
  let signed := s.img 6 2 % 2 = 1
  let be := fun (o k : Nat) => beVal (s.bytes (a + s.img 16 4 + o) k)
  if a % 64 ≠ 0 ∨ a < 0x80000 ∨ 2 ^ 25 < a + s.stw.len ∨ 2 ^ 24 < s.stw.len then 4
  else if s.img 0 4 ≠ 0x4B445649 ∨ s.img 4 2 ≠ 1 ∨ (s.img 6 2 / 2 % 2 = 1 ↔ ¬up) ∨ s.stw.len ≠ s.img 16 4 + (if signed then 256 else 0) then 5
  else if s.img 8 2 ≠ s.fld ID_DEVICE ID_DEVICE_PART ∨ s.img 10 1 ≠ s.fld ID_DEVICE ID_DEVICE_STEP then 6
  else if n = 0 ∨ 256 < n ∨ s.img 16 4 % 64 ≠ 0 ∨ (∃ i ∈ List.range (Spec.segCount s), Spec.segBad s (s.imgSeg i))
      ∨ (∃ i ∈ List.range (Spec.segCount s), ∃ j ∈ List.range i, Spec.segsMeet (s.imgSeg i) (s.imgSeg j)) then 7
  else if ¬signed ∧ Config.fuseSecure = true then 8
  else if signed ∧ ¬(slot ≤ 3 ∧ Spec.keyLeft s slot = true ∧ sha384 (s.bytes (a + s.img 16 4) 97) = (Config.fuseKeyHash slot).toNat) then 9
  else if s.img 12 4 < Spec.minSvn s then 10
  else if signed ∧ ¬(be 0 1 = 4 ∧ ecVerify (be 1 48) (be 49 48) (sha384 (s.bytes a (s.img 16 4))) (be 112 48) (be 160 48) = true) then 11
  else if up ∧ ∃ d ∈ List.range 56, Spec.targeted s (Fin.ofNat 56 d) false = true ∧ s.bit (HIVE_DRN_STAT d) HIVE_DRN_STAT_PENDING = true then 12
  else 0
/-- An image command has failed: a BOOT to FAILED, an UPDATE back to RUNNING (R352; DEDUCED, log 21). -/
def Spec.imageFails (s t : State) (err : Nat) : Prop :=
  t.stwState = (if s.stw.op = some 2 then 3 else 4) ∧ Spec.stwEnded s t (s.stw.op.getD 1) err [] ∧ Spec.stwFrame s t [] fun _ => False
/-- Where a segment's bytes go in drone `d`: bank A, or the idle bank of a drone that an UPDATE finds loaded; the data region. -/
def Spec.segKey (s : State) (g : Seg) (d : Drn) : Nat :=
  let st := s.reg (HIVE_DRN_STAT d)
  0x30000000 + d * 0x40000 + g.dest + (if g.region = 1 then 0x20000
    else if s.stw.op = some 2 ∧ getFld st HIVE_DRN_STAT_STATE ≠ 0 then 0x10000 * (1 - getFld st HIVE_DRN_STAT_ACTIVE_BANK) else 0)
/-- R352–R357, R365: the checks of an image in order, its loading, and the release or the handover of its targets. Data that no segment
covers keeps its contents (log 2); a failed UPDATE stays RUNNING and the image loaded last runs (log 21); the wake of the targets' clusters is
log 51's, and the message's place log 52's. -/
def Obligations.ImageLoading : Prop :=
  ∀ (s : State) (ready : Bool), s.Wf → s.pwr.dead = false →
    let img := s.stw.op = some 1 ∨ s.stw.op = some 2
    let up := s.stw.op = some 2
    let cl := fun d : Nat => s.domState (64 + d / 8)
    let awake := ∀ d ∈ s.stw.targets, cl d = 0
    (¬(img ∧ s.stwState = 1) → Gives .authComplete s fun t => Unchanged s t)
    ∧ (img → s.stwState = 1 → Spec.imageError s ≠ 0 → Gives .authComplete s fun t => Spec.imageFails s t (Spec.imageError s))
    ∧ (img → s.stwState = 1 → Spec.imageError s = 0 → Gives .authComplete s fun t => t.stwState = 2 ∧ t.stw.op = s.stw.op
      ∧ (∀ d : Drn, d.val ∈ t.stw.targets ↔ Spec.targeted s d false = true) ∧ BytesBut s t fun _ => False)
    ∧ (¬(img ∧ s.stwState = 2) → Gives (.loadComplete ready) s fun t => Unchanged s t)
    ∧ (img → s.stwState = 2 → ready = false → ¬awake → s.stw.waiting = false → s.pwr.cmd = none →
      Gives (.loadComplete ready) s fun t => Spec.imageFails s t 12)
    ∧ (img → s.stwState = 2 → ¬(ready = true ∧ awake) → ready = true ∨ awake ∨ s.stw.waiting = true ∨ s.pwr.cmd ≠ none →
      Gives (.loadComplete ready) s fun t => Unchanged s t)
    ∧ (img → s.stwState = 2 → ready = true → awake → Spec.imageError s = 0 → Gives (.loadComplete ready) s fun t =>
      t.stwState = 3 ∧ Spec.stwEnded s t (if up then 2 else 1) 0 []
      ∧ (∀ i ∈ List.range (Spec.segCount s),
        let g := s.imgSeg i
        (g.region = 2 → ∀ b ∈ List.range g.len, t.byte (g.dest + b) = s.byte (s.stw.addr + g.src + b))
        ∧ ∀ d : Drn, Spec.intoDrone g d = true → ∀ b ∈ List.range g.len, t.byte (Spec.segKey s g d + b) = s.byte (s.stw.addr + g.src + b))
      ∧ (∀ d : Drn,
        let x := s.drnS d
        let fresh := ¬up ∨ s.fld (HIVE_DRN_STAT d) HIVE_DRN_STAT_STATE = 0
        (Spec.targeted s d true = false → t.drnS d = x ∧ t.reg (HIVE_DRN_STAT d) = s.reg (HIVE_DRN_STAT d)
          ∧ t.reg (HIVE_DRN_BUILD d) = s.reg (HIVE_DRN_BUILD d))
        ∧ (Spec.targeted s d true = true → fresh → t.drnS d = { DrnSt.init with cycle := x.cycle }
          ∧ t.reg (HIVE_DRN_BUILD d) = BitVec.ofNat 32 (s.img 24 4)
          ∧ t.reg (HIVE_DRN_STAT d) = setFld (s.reg (HIVE_DRN_STAT d) &&& 0x01000000#32) HIVE_DRN_STAT_STATE 1)
        ∧ (Spec.targeted s d true = true → ¬fresh → (t.drnS d).evpend.getLsbD 1 = true
          ∧ { t.drnS d with evpend := 0, buildI := 0 } = { x with evpend := 0, buildI := 0 }
          ∧ t.reg (HIVE_DRN_STAT d) = setFld (setFld (s.reg (HIVE_DRN_STAT d)) HIVE_DRN_STAT_IDLE_VALID 1) HIVE_DRN_STAT_PENDING 1))
      ∧ t.stw.svn = s.img 12 4 ∧ (t.stw.unsig = true ↔ s.img 6 2 % 2 = 0)
      ∧ (¬up → t.reg STW_BUILD = BitVec.ofNat 32 (s.img 24 4)
        ∧ (t.bit STW_CMD_STAT STW_CMD_STAT_UNSIGNED = true ↔ s.img 6 2 % 2 = 0))
      ∧ (up → t.reg STW_BUILD = s.reg STW_BUILD
        ∧ t.bit STW_CMD_STAT STW_CMD_STAT_UNSIGNED = s.bit STW_CMD_STAT STW_CMD_STAT_UNSIGNED))

/-- The record of a commit is programmed at STW_VAULT_LAST, into `size` bytes that were erased in `u`, outside the sector kept there; SEQ, TIME
and the CRC are the device's (R370, R372). -/
def Spec.programmed (s u t : State) (len size : Nat) : Prop :=
  let a := s.stw.addr
  let o := (t.reg STW_VAULT_LAST).toNat
  let r := fun k => t.bytes (vaultKey + o + k)
  t.reg STW_VAULT_SEQ = s.reg STW_VAULT_SEQ + 1#32 ∧ t.stwState = s.stwState
    ∧ Spec.stwEnded s t 3 0 (List.replicate 3 0#8 ++ leBytes 4 (s.reg STW_VAULT_SEQ + 1#32).toNat ++ leBytes 4 o)
    ∧ o % 16 = 0 ∧ o < 2 ^ 20 ∧ o % 65536 + size ≤ 65536 ∧ u.vaultKept ≠ some (o / 65536)
    ∧ (∀ i ∈ List.range size, u.byte (vaultKey + o + i) = 0xFF#8)
    ∧ r 0 8 = s.bytes a 8 ∧ leVal (r 8 4) = (s.reg STW_VAULT_SEQ + 1#32).toNat ∧ r 12 4 = s.bytes (a + 12) 4
    ∧ leVal (r 16 6) = (if s.stampSt = 0 then 0 else uns 48 (scaleT s.time.c s.time.stamp / 65536 / 1000000000))
    ∧ r 22 10 = List.replicate 10 0#8 ∧ r 32 (len - 36) = s.bytes (a + 32) (len - 36) ∧ leVal (r (len - 4) 4) = crc32c (r 0 (len - 4))
/-- The state after one sector is reclaimed: its current records are copied into the kept sector, and it is erased (R373). -/
def Spec.reclaimed (s : State) (x k : Nat) : State := (Op.thn (Op.vaultCopy (65536 * k) (s.vaultKeep x)) (Op.vaultErase x)).run s.quiet
/-- A sector's records one after another, each in a multiple of 16 bytes. -/
def Spec.copied (l : List VRec) : List Byte := l.flatMap fun r => r.bs ++ List.replicate (r.size - r.bs.length) 0xFF#8
/-- R370, R372, R373: the end of a commit that finds room, of one that reclaims a sector first, and of one that ends with VAULT_FULL when no
reclaim makes room. The record's place in erased space, and what a record that does not read back holds, are open (log 22); the message's place
is log 52's. -/
def Obligations.VaultRecords : Prop :=
  ∀ (s : State) (good : Bool), s.Wf → s.pwr.dead = false →
    let a := s.stw.addr
    let len := 36 + leVal (s.bytes (a + 4) 4)
    let size := (len + 15) / 16 * 16
    let at_ := fun (t : State) (k : Nat) => let o := (t.reg STW_VAULT_LAST).toNat; vaultKey + o ≤ k ∧ k < vaultKey + o + len
    (s.stw.op ≠ some 3 → Gives (.vaultProgramDone good) s fun t => Unchanged s t)
    ∧ (s.stw.op = some 3 → s.stw.len = len → s.vaultRoom size = true → Gives (.vaultProgramDone true) s fun t =>
      Spec.programmed s s t len size ∧ Spec.stwFrame s t [STW_VAULT_SEQ, STW_VAULT_LAST] (at_ t))
    -- one reclaim makes the room
    ∧ (∀ x k, s.stw.op = some 3 → s.stw.len = len → s.vaultRoom size = false → s.vaultOldest [] = some x → s.vaultKept = some k →
      (Spec.reclaimed s x k).vaultRoom size = true → Gives (.vaultProgramDone true) s fun t =>
        Spec.programmed s (Spec.reclaimed s x k) t len size
        ∧ (∀ i, i < 2 ^ 20 → ¬at_ t (vaultKey + i) → t.byte (vaultKey + i) = if i / 65536 = x then 0xFF#8
            else if i / 65536 = k then (Spec.copied (s.vaultKeep x)).getD (i % 65536) 0xFF#8 else s.byte (vaultKey + i))
        ∧ (∀ y, Tab.get t.stw.erase (fun _ => 0) y = Tab.get s.stw.erase (fun _ => 0) y + if y = x then 1 else 0)
        ∧ Spec.stwFrame s t [STW_VAULT_SEQ, STW_VAULT_LAST] fun b => vaultKey ≤ b)
    -- as many reclaims as there are sectors make none
    ∧ (let u := (Op.vaultReclaim 16 size []).run s.quiet
      s.stw.op = some 3 → s.stw.len = len → (∀ x ∈ u.vaultOthers, u.vaultFree x < size) → Gives (.vaultProgramDone good) s fun t =>
        t.reg STW_VAULT_SEQ = s.reg STW_VAULT_SEQ ∧ t.reg STW_VAULT_LAST = s.reg STW_VAULT_LAST ∧ t.stwState = s.stwState
        ∧ Spec.stwEnded s t 3 14 (List.replicate 11 0#8) ∧ (∀ b, vaultKey ≤ b → t.byte b = u.byte b)
        ∧ Spec.stwFrame s t [] fun b => vaultKey ≤ b)
    ∧ (s.stw.op = some 3 → s.stw.len = len → s.vaultRoom size = true → Gives (.vaultProgramDone false) s fun t =>
      t.reg STW_VAULT_SEQ = s.reg STW_VAULT_SEQ ∧ t.stwState = s.stwState ∧ Spec.stwEnded s t 3 15 (List.replicate 11 0#8)
      ∧ Spec.stwFrame s t [] fun k => vaultKey ≤ k)
    ∧ (s.stw.op = some 3 → ∀ good, Gives (.vaultProgramDone good) s fun t => t.stw.op = none
      ∧ t.bit STW_CMD_STAT STW_CMD_STAT_BUSY = false ∧ t.stwState = s.stwState)

/-- A restart at the cold entry of the active bank, in keeper mode, with registers and data unchanged (R364, R382); `ended` tells that a pause
in progress ends with it (R367, R368). -/
def Spec.cold (s t : State) (d : Drn) (ended : Bool) : Prop :=
  let u := fun z : DrnSt => { z with keeper := true, prev := false, tip := false, sat := false, nmi := false, wait := none }
  let f := fun z : DrnSt => { u z with
    pc := 0, halted := false, buildI := 0, pause := if ended then none else z.pause, slow := !ended && z.slow }
  t.drnState d = 1 ∧ t.bit (HIVE_DRN_STAT d) HIVE_DRN_STAT_READY = false ∧ { t.drnS d with buildI := 0 } = f (s.drnS d)
/-- What an action on one drone may change. -/
def Spec.drnFrame (s t : State) (d : Drn) (A : List Nat) : Prop :=
  Only s t (fun a => a ∈ A) (fun u => { u with drn := [] }) ∧ ∀ y, y ≠ d.val → t.drnS y = s.drnS y
/-- R361–R364, R367, R368, R398: HALT, RESUME, REVERT, CANCEL, a slow handover, and the host's mailbox index. A REVERT or a cold start that meets
a pause, and READY long after it, are log 54's (DEDUCED). -/
def Obligations.DronesAndMailboxes : Prop :=
  ∀ (s : State) (p : Party) (d : Drn), s.Wf →
    let st := s.drnState d
    let x := s.drnS d
    let reg := HIVE_DRN_STAT d
    let idle := s.bit reg HIVE_DRN_STAT_IDLE_VALID = true
    let pend := s.bit reg HIVE_DRN_STAT_PENDING = true
    let refused := fun (i : Instr) => Gives i s fun t => t.reg reg = setFld (s.reg reg) HIVE_DRN_STAT_CTL_REFUSED 1
      ∧ OnlyRegsOf s t fun a => a = reg
    (s.pwr.dead = false →
      (st = 1 ∨ st = 2 → Gives (.halt p d) s fun t => t.reg reg = setFld (s.reg reg) HIVE_DRN_STAT_STATE 3
        ∧ t.drnS d = { x with halted := decide (st = 2) } ∧ Spec.drnFrame s t d [reg])
      ∧ (¬(st = 1 ∨ st = 2) → refused (.halt p d))
      ∧ (st = 3 → Gives (.resume p d) s fun t => t.reg reg = setFld (s.reg reg) HIVE_DRN_STAT_STATE (if x.halted then 2 else 1)
        ∧ t.drnS d = { x with halted := false } ∧ Spec.drnFrame s t d [reg])
      ∧ (st = 4 → Gives (.resume p d) s fun t => Spec.cold s t d false ∧ (t.drnS d).buildI = x.buildI
        ∧ t.bit reg HIVE_DRN_STAT_ACTIVE_BANK = s.bit reg HIVE_DRN_STAT_ACTIVE_BANK ∧ Spec.drnFrame s t d [reg])
      ∧ (st ≠ 3 → st ≠ 4 → refused (.resume p d))
      ∧ (st = 1 ∨ st = 2 → idle → ¬pend → Gives (.revert p d) s fun t => t.reg reg = setFld (s.reg reg) HIVE_DRN_STAT_PENDING 1
        ∧ t.drnS d = { x with evpend := x.evpend ||| 2#16 } ∧ Spec.drnFrame s t d [reg])
      ∧ (st = 4 → idle → Gives (.revert p d) s fun t => Spec.cold s t d true
        ∧ t.bit reg HIVE_DRN_STAT_ACTIVE_BANK = !s.bit reg HIVE_DRN_STAT_ACTIVE_BANK
        ∧ t.reg (HIVE_DRN_BUILD d) = x.buildI ∧ (t.drnS d).buildI = s.reg (HIVE_DRN_BUILD d)
        ∧ Spec.drnFrame s t d [reg, HIVE_DRN_BUILD d])
      ∧ (¬idle ∨ st = 0 ∨ st = 3 ∨ st = 5 ∨ (st ≠ 4 ∧ pend) → refused (.revert p d))
      ∧ (pend → Gives (.cancel p d) s fun t => t.reg reg = setFld (s.reg reg) HIVE_DRN_STAT_PENDING 0 ∧ OnlyRegsOf s t fun a => a = reg)
      ∧ (¬pend → refused (.cancel p d))
      ∧ ∀ (m : Fin 57) (v : W),
        let w := getFld v HIVE_MBX_H2D_WR_WR
        let ahead := 64 < (w + 128 - s.fld (HIVE_MBX_H2D_RD m) HIVE_MBX_H2D_RD_RD) % 128
        (m = 56 → Gives (.mbxH2dWrite p m v) s fun t => Unchanged s t)
        ∧ (m ≠ 56 → ahead → Gives (.mbxH2dWrite p m v) s fun t => t.bit (HIVE_MBX_STAT m) HIVE_MBX_STAT_OVERRUN = true
          ∧ OnlyRegsOf s t fun a => a = HIVE_MBX_STAT m)
        ∧ (m ≠ 56 → ¬ahead → Gives (.mbxH2dWrite p m v) s fun t => t.reg (HIVE_MBX_H2D_WR m) = v &&& 0x7F#32
          ∧ (t.drnS m).evpend = (if w = s.fld (HIVE_MBX_H2D_WR m) HIVE_MBX_H2D_WR_WR then (s.drnS m).evpend else (s.drnS m).evpend ||| 1#16)
          ∧ UnitBut State.drnS s t m (fun z => { z with evpend := 0 })
          ∧ Only s t (fun a => a = HIVE_MBX_H2D_WR m) fun u => { u with drn := [] }))
    ∧ (let slow := fun c => x.pause = some c ∧ x.slow = false ∧ 1500000 < (x.cycle - c).toNat
      ((∀ c, ¬slow c) → Gives (.handoverSlow d) s fun t => Unchanged s t)
      ∧ ∀ c, slow c → Gives (.handoverSlow d) s fun t =>
        t.drnS d = { x with slow := true } ∧ Told s t (0x600 + d) 0x21 0 (min ((x.cycle - c).toNat / 1500) 0xFFFF)
        ∧ (∀ y, y ≠ d.val → t.drnS y = s.drnS y) ∧ Only s t (fun a => a = FC_STAT) fun u => { u with drn := [], col := .init })

/-! Memory integrity (14_memory_integrity.md). -/

/-- Macros of a region and rows of its macros (R407). -/
def Spec.macros (r : Nat) : Nat := if r < 0x30 then 5 else if r < 0x60 then 8 else if r = 0x60 then 128 else if r = 0x61 then 64 else 1
def Spec.rows (r : Nat) : Nat := if 0x62 ≤ r then 1024 else 2048
def Spec.rowWords (r : Nat) : Nat := if r < 0x30 then 64 else 32
/-- The key of the word at a macro, row and word of a region; an address in the layout of R428 names one. -/
def Spec.wordKey (r m row w : Nat) : Nat := regionBase r + ((m * Spec.rows r + row) * Spec.rowWords r + w) * wordSz r
abbrev Spec.wordIn (r : Fin 154) (a : W) : Prop :=
  getFld a ECC_LOG_ADDR_MACRO < Spec.macros r ∧ getFld a ECC_LOG_ADDR_ROW < Spec.rows r ∧ getFld a ECC_LOG_ADDR_WORD < Spec.rowWords r ∧ a &&& 0x3F#32 = 0#32
def Spec.keyOf (r : Fin 154) (a : W) : Nat :=
  Spec.wordKey r (getFld a ECC_LOG_ADDR_MACRO) (getFld a ECC_LOG_ADDR_ROW) (getFld a ECC_LOG_ADDR_WORD)
/-- Two farrier requests have one target (R420, R431). -/
abbrev Spec.sameTarget (a b : FarReq) : Prop :=
  getFld a.cmd FAR_CMD_KIND = getFld b.cmd FAR_CMD_KIND ∧ getFld a.cmd FAR_CMD_TARGET = getFld b.cmd FAR_CMD_TARGET
    ∧ (getFld a.cmd FAR_CMD_KIND = 1 → a.arg >>> 12 = b.arg >>> 12)
    ∧ (getFld a.cmd FAR_CMD_KIND = 2 → getFld a.cmd FAR_CMD_ENG = getFld b.cmd FAR_CMD_ENG ∧ getFld a.cmd FAR_CMD_CONV = getFld b.cmd FAR_CMD_CONV)
    ∧ (getFld a.cmd FAR_CMD_KIND = 3 → getFld a.cmd FAR_CMD_ENG = getFld b.cmd FAR_CMD_ENG ∧ a.cmd.getLsbD 8 = b.cmd.getLsbD 8)
/-- A request has been offered to the farrier's queue (R420, R431). -/
def Spec.queued (s t : State) (cmd arg : W) : Prop :=
  let k := getFld cmd FAR_CMD_KIND
  let r : FarReq := ⟨cmd &&& 0x703F07FF#32, arg⟩
  let merged := (∃ q ∈ s.ecc.queue, Spec.sameTarget r q) ∨ s.ecc.job.elim False fun j => Spec.sameTarget r j.req
  ((k = 0 ∨ 4 < k ∨ merged) → t.ecc.queue = s.ecc.queue ∧ t.reg FAR_STAT = s.reg FAR_STAT)
  ∧ (1 ≤ k → k ≤ 4 → ¬merged → 16 ≤ s.ecc.queue.length → t.ecc.queue = s.ecc.queue ∧ t.bit FAR_STAT FAR_STAT_QUEUE_FULL = true)
  ∧ (1 ≤ k → k ≤ 4 → ¬merged → s.ecc.queue.length < 16 → t.ecc.queue = s.ecc.queue ++ [r]
    ∧ t.fld FAR_STAT FAR_STAT_QUEUED = s.ecc.queue.length + 1 ∧ t.bit FAR_STAT FAR_STAT_BUSY = s.ecc.job.isSome
    ∧ t.bit FAR_STAT FAR_STAT_QUEUE_FULL = s.bit FAR_STAT FAR_STAT_QUEUE_FULL)

/-- The log entry that a new correction takes (R410). Among free entries the model takes the lowest (DESIGN CHOICE, log 24). -/
abbrev Spec.newEntry (s : State) (r e : Nat) : Prop :=
  let i := fun x => s.reg (ECC_LOG_INFO r x)
  let key := fun x => (getFld (i x) ECC_LOG_INFO_HITS, s.logAge r x, x)
  (bitFld (i e) ECC_LOG_INFO_VALID = false ∧ ∀ x ∈ List.range e, bitFld (i x) ECC_LOG_INFO_VALID = true)
    ∨ ((∀ x ∈ List.range 32, bitFld (i x) ECC_LOG_INFO_VALID = true) ∧ bitFld (i e) ECC_LOG_INFO_HARD = false
      ∧ ∀ x ∈ List.range 32, bitFld (i x) ECC_LOG_INFO_HARD = true ∨ (key e).1 < (key x).1
        ∨ ((key e).1 = (key x).1 ∧ ((key e).2.1 < (key x).2.1 ∨ ((key e).2.1 = (key x).2.1 ∧ (key e).2.2 ≤ (key x).2.2))))
/-- The source of a region is told of an ECC fault, with the marks of an injection (R419, R437). -/
def Spec.toldEcc (s t : State) (r kind cls : Nat) (a : W) (inj note : Bool) : Prop :=
  t.col = if s.isolated (0x500 + r) kind (r * 2 ^ 32 + a.toNat) then s.col
    else { s.col with intake := mergeMsg ⟨0x500 + r, kind, cls, inj, BitVec.ofNat 40 (r * 2 ^ 32 + a.toNat), true, 0, note⟩ s.col.intake }
/-- The log after a correction (R410, R411, R419). -/
def Spec.logged (s t : State) (r : Fin 154) (a : W) (synd : BitVec 8) (inj note : Bool) : Prop :=
  let info := fun (u : State) (e : Nat) => u.reg (ECC_LOG_INFO r e)
  let mine := fun e => bitFld (info s e) ECC_LOG_INFO_VALID = true ∧ s.reg (ECC_LOG_ADDR r e) = a
  let thr := s.fld ECC_CFG ECC_CFG_HARD_THR
  (∀ e ∈ List.range 32, mine e → (∀ x ∈ List.range e, ¬mine x) →
    let hits := min (getFld (info s e) ECC_LOG_INFO_HITS + 1) 255
    let hard := inj = false ∧ thr ≠ 0 ∧ thr ≤ hits ∧ bitFld (info s e) ECC_LOG_INFO_HARD = false
    (bitFld (info s e) ECC_LOG_INFO_ARMED = false → info t e = info s e ∧ t.col = s.col)
    ∧ (bitFld (info s e) ECC_LOG_INFO_ARMED = true → bitFld (info t e) ECC_LOG_INFO_ARMED = false
      ∧ getFld (info t e) ECC_LOG_INFO_HITS = (if inj then getFld (info s e) ECC_LOG_INFO_HITS else hits)
      ∧ getFld (info t e) ECC_LOG_INFO_SYND = synd.toNat
      ∧ (hard → bitFld (info t e) ECC_LOG_INFO_HARD = true ∧ Spec.toldEcc s t r 0x25 2 a false false
        ∧ (s.bit FAR_CFG FAR_CFG_AUTO_ROW = true → Spec.queued s t (BitVec.ofNat 32 (0x10000000 + r)) a))
      ∧ (¬hard → bitFld (info t e) ECC_LOG_INFO_HARD = bitFld (info s e) ECC_LOG_INFO_HARD ∧ t.col = s.col)))
  ∧ ((∀ e ∈ List.range 32, ¬mine e) → ∀ e ∈ List.range 32, Spec.newEntry s r e →
    t.reg (ECC_LOG_ADDR r e) = a ∧ bitFld (info t e) ECC_LOG_INFO_VALID = true ∧ bitFld (info t e) ECC_LOG_INFO_ARMED = false
    ∧ bitFld (info t e) ECC_LOG_INFO_INJ = inj ∧ bitFld (info t e) ECC_LOG_INFO_REMAPPED = false
    ∧ getFld (info t e) ECC_LOG_INFO_HITS = 1 ∧ getFld (info t e) ECC_LOG_INFO_SYND = synd.toNat
    ∧ (thr ≠ 1 ∨ inj = true → bitFld (info t e) ECC_LOG_INFO_HARD = false ∧ Spec.toldEcc s t r 0x24 1 a inj note))
  ∧ ((∀ e ∈ List.range 32, ¬mine e) → (∀ e ∈ List.range 32, ¬Spec.newEntry s r e) →
    t.bit (FG_STAT r) FG_STAT_LOG_LOST = true ∧ t.col = s.col ∧ ∀ e ∈ List.range 32, info t e = info s e)

/-- Drone `d` takes a trap (R401, R402): in TIP it stops as TRAPPED. -/
def Spec.eccTrapped (s t : State) (d : Drn) (code : Nat) (addr : W) : Prop :=
  let x := s.drnS d
  let y := { x with tpc := x.pc.setWidth 32, tcode := BitVec.ofNat 32 code, taddr := addr }
  let z := { y with prev := x.keeper, keeper := true, tip := true, pc := x.tentry.setWidth 16, wait := none }
  (x.tip = false → t.drnS d = z) ∧ (x.tip = true → t.drnS d = y ∧ t.drnState d = 4)
/-- A context whose blocks in the word at `key` are marked, in its queue and in the runs held for it (R250, R260). -/
def Spec.marked (key : Nat) (x : CtxSt) : CtxSt :=
  let mk := fun b : QBlk => if bufKey b.word = key then { b with bad := true } else b
  { x with queue := x.queue.map mk, runs := x.runs.map fun q => { q with bs := q.bs.map mk } }
/-- What an uncorrectable or poisoned word means for its reader (R414, R415). -/
def Spec.readerGets (s t : State) (reader : Option Party) (r : Fin 154) (key : Nat) : Prop :=
  let o := key - regionBase r
  (reader = some .host → t.out = if 0x30 ≤ r.val then [.poisoned .host] else [])
  ∧ (∀ d, reader = some (.drone d) → 0x30 ≤ r.val → s.drnState d = 1 → Spec.eccTrapped s t d 6 (droneAddr key))
  ∧ (reader = none → r = 0x60 → ∀ x, t.ctxS x = Spec.marked key (s.ctxS x))
  ∧ (reader = none → 0x62 ≤ r.val → o < 0x20000 → o / 0x10000 = s.fld (HIVE_DRN_STAT (r - 0x62)) HIVE_DRN_STAT_ACTIVE_BANK →
    ∀ d : Drn, d.val = r.val - 0x62 → s.drnState d = 1 → Spec.eccTrapped s t d 5 (BitVec.ofNat 32 (o % 0x10000)))
/-- What a word that becomes poisoned means for its owner (R196, R414, R416). -/
def Spec.ownerGets (s t : State) (r : Fin 154) (key : Nat) : Prop :=
  let o := key - regionBase r
  let n := r.val
  let e := s.engS n
  (n < 0x30 → 0x180000 ≤ o → t.pageValid n ((o - 0x180000) / 512) = false)
  ∧ (∀ rx : Bool, n < 0x30 → o < 0x180000 → (rx = true ↔ o < 0x100000) →
    let copy := if rx then o / 0x80000 else (o - 0x100000) / 0x40000
    let shadow := (if rx then e.cdRx else e.cdTx) = decide (copy = 1)
    let good := (if rx then e.goodRx else e.goodTx) = true ∧ s.pendBlk n (if rx then 5 else 4) = false
    (shadow → (if rx then (t.engS n).goodRx else (t.engS n).goodTx) = false)
    ∧ (¬shadow → good → t.bit (FG_STAT n) (if rx then FG_STAT_CD_RX_FALLBACK else FG_STAT_CD_TX_FALLBACK) = true)
    ∧ (¬shadow → ¬good → t.bit (FG_STAT n) (if rx then FG_STAT_CD_RX_ZERO else FG_STAT_CD_TX_ZERO) = true))
  ∧ (0x62 ≤ n → o < 0x20000 → o / 0x10000 ≠ s.fld (HIVE_DRN_STAT (n - 0x62)) HIVE_DRN_STAT_ACTIVE_BANK →
    t.bit (HIVE_DRN_STAT (n - 0x62)) HIVE_DRN_STAT_IDLE_VALID = false)
/-- A reader meets syndrome `given` in a word (R408–R411, R414–R416, R419). -/
def Spec.metError (s t : State) (reader : Option Party) (r : Fin 154) (a : W) (given : BitVec 8) : Prop :=
  let key := Spec.keyOf r a
  let poisoned := s.poisoned key
  let pend := s.injAt key
  let exp := ((s.ecc.inj.find? fun i => i.word == key).map fun i => i.synd).getD 0#8
  let synd := if poisoned then 0x0F#8 else if given = 0 ∧ pend = true then exp else given
  let inj := pend && synd == exp
  let note := pend && synd != exp
  let block := fun a => 0x400000 ≤ a ∧ a < 0x500000
  BytesBut s t (fun _ => False)
  ∧ (synd = 0 → t.regs = s.regs ∨ reader = some .forager)
  ∧ (synd ≠ 0 → t.ecc.inj = (s.ecc.inj.filter fun i => i.word != key)
    ∧ (pend = true → t.bit ECC_FLIP_STAT ECC_FLIP_STAT_PENDING = decide (t.ecc.inj ≠ [])))
  ∧ (synd ≠ 0 → syndSingle r synd = true → Spec.counted s t (CE_CNT r) 1 ∧ Spec.logged s t r a synd inj note
    ∧ t.wbOf r = (if key ∈ s.wbOf r then s.wbOf r else s.wbOf r ++ [key])
    ∧ Only s t (fun b => block b ∨ b = FC_STAT) (fun u => { u with ecc := .init, col := .init }))
  ∧ (synd ≠ 0 → syndSingle r synd = false → t.poisoned key = true ∧ (∀ k, k ≠ key → t.poisoned k = s.poisoned k)
    ∧ (synd = 0x0F#8 → Spec.counted s t (POISON_CNT r) 1)
    ∧ (synd ≠ 0x0F#8 → Spec.counted s t (UE_CNT r) 1 ∧ (reader = some .host ∨ reader = some .forager → 0x30 ≤ r.val → Spec.toldEcc s t r 0x26 2 a inj note))
    ∧ (poisoned = false → reader ≠ none ∨ r.val < 0x62 → Spec.ownerGets s t r key)
    ∧ (poisoned = true → r.val < 0x30 → 0x180000 ≤ key - regionBase r → t.pageValid r ((key - regionBase r - 0x180000) / 512) = false)
    ∧ (poisoned = true → reader = some .host ∨ reader = some .forager →
      Only s t (fun b => block b ∨ (r.val < 0x30 ∧ 0x180000 ≤ key - regionBase r ∧ (b = GLO_STAT r ∨ ∃ i : Fin 4, b = GLO_PAGE_VALID r i)))
        fun u => { u with
          ecc := .init, out := [], poison := [], eng := if r.val < 0x30 then [] else u.eng, fresh := if r.val < 0x30 then 0 else u.fresh })
    ∧ Spec.readerGets s t reader r key)
/-- R408–R419: what a read that meets an error does, the forager's reads and write-backs, and the arming of an injection. Which column a data bit
has is free (log 6); a fallback that meets a pending swap shows as ZERO (log 39); several injections may pend (log 70). -/
def Obligations.MemoryErrors : Prop :=
  ∀ (s : State) (p : Party) (r : Fin 154) (synd : BitVec 8) (v : W), s.Wf →
    (∀ reader, s.regionUp r = true → Spec.wordIn r v → Gives (.eccReadError reader r v synd) s fun t => Spec.metError s t reader r v synd)
    ∧ (∀ reader, s.regionUp r = false → Gives (.eccReadError reader r v synd) s fun t => Unchanged s t)
    ∧ (let pos := s.fld (FG_POS r) FG_POS_POS
      let w := Spec.rowWords r
      let row := pos / w
      let a := BitVec.ofNat 32 (row / Spec.rows r * 2 ^ 24 + row % Spec.rows r * 2 ^ 12 + pos % w * 2 ^ 6)
      let on := s.bit (FG_CFG r) FG_CFG_EN = true ∧ s.regionRun r = true
      let n := Spec.macros r * Spec.rows r * w
      (¬on → Gives (.foragerRead r synd) s fun t => Unchanged s t)
      ∧ (on → pos < n → Gives (.foragerRead r synd) s fun t => Spec.metError s t (some .forager) r a synd
        ∧ t.fld (FG_POS r) FG_POS_POS = (pos + 1) % n
        ∧ (pos + 1 < n → t.ecc.pass = s.ecc.pass ∧ t.bit (FG_STAT r) FG_STAT_LAG = s.bit (FG_STAT r) FG_STAT_LAG)
        ∧ (pos + 1 = n → Tab.get t.ecc.pass (fun _ => 0) r = s.time.c ∧ t.bit (FG_STAT r) FG_STAT_LAG = (s.bit (FG_STAT r) FG_STAT_LAG
          || decide (s.fld (FG_CFG r) FG_CFG_PERIOD * 12500000 < s.time.c - Tab.get s.ecc.pass (fun _ => 0) r)))))
    ∧ (∀ k l, s.wbOf r = k :: l → k ∉ l → regionOf k = r → k % wordSz r = 0 → s.regionRun r = true →
      Gives (.foragerWriteBack r) s fun t =>
      let stopped := fun e rx => s.cdCopy k = some (e, rx, true) ∧ s.pendBlk e (if rx then 5 else 4) = true
      let held := s.poisoned k = true ∨ ∃ e ∈ List.range 48, ∃ rx ∈ [false, true], stopped e rx
      t.wbOf r = l ∧ BytesBut s t (fun _ => False) ∧ t.poison = s.poison
      ∧ (¬held → (∀ e ∈ List.range 32, s.logFind k = some e → t.bit (ECC_LOG_INFO r e) ECC_LOG_INFO_ARMED = true)
        ∧ (s.injAt k = true → t.ecc.inj = (s.ecc.inj.filter fun i => i.word != k) ∧ t.bit ECC_FLIP_STAT ECC_FLIP_STAT_LOST = true))
      ∧ (∀ e ∈ List.range 48, ∀ rx, stopped e rx → t.bit (ENG_SWAP_STAT e) ENG_SWAP_STAT_WRITE_BLOCKED = true
        ∧ RegsBut s t fun a => a = ENG_SWAP_STAT e)
      ∧ (held → (∀ e ∈ List.range 48, ∀ rx, ¬stopped e rx) → t.regs = s.regs))
    ∧ (s.wbOf r = [] ∨ s.regionRun r = false → Gives (.foragerWriteBack r) s fun t => Unchanged s t)
    ∧ (s.pwr.dead = false →
      let ones := ((List.range 32).filter fun i => (s.reg ECC_FLIP_DATA_LO).getLsbD i).length
        + ((List.range 32).filter fun i => (s.reg ECC_FLIP_DATA_HI).getLsbD i).length + ((List.range 8).filter fun i => (s.reg ECC_FLIP_CHECK).getLsbD i).length
      let region := getFld v ECC_FLIP_CTL_REGION
      let bad := ones = 0 ∨ 2 < ones ∨ (region < 0x30 ∧ s.reg ECC_FLIP_DATA_HI ≠ 0#32) ∨ s.bit ECC_FLIP_CTL ECC_FLIP_CTL_ARM = true
      Gives (.eccFlipArm p v) s fun t => t.fld ECC_FLIP_CTL ECC_FLIP_CTL_REGION = region
        ∧ t.bit ECC_FLIP_CTL ECC_FLIP_CTL_ARM = (s.bit ECC_FLIP_CTL ECC_FLIP_CTL_ARM || decide ¬bad)
        ∧ t.bit ECC_STAT ECC_STAT_FLIP_REFUSED = (s.bit ECC_STAT ECC_STAT_FLIP_REFUSED || decide bad)
        ∧ OnlyRegsOf s t fun a => a = ECC_FLIP_CTL ∨ a = ECC_STAT)

/-! The farrier (14_memory_integrity.md). -/

/-- The kind of a request (R431): 1 ROW, 2 SLICE, 3 STRIP, 4 UNIT. -/
def Spec.farKind (r : FarReq) : Nat := getFld r.cmd FAR_CMD_KIND
def Spec.farTarget (r : FarReq) : Nat := getFld r.cmd FAR_CMD_TARGET
def Spec.farEngine (r : FarReq) : Nat := getFld r.cmd FAR_CMD_ENG
/-- Macro and row of a ROW request. -/
def Spec.farRow (r : FarReq) : Nat × Nat := (getFld r.arg ECC_LOG_ADDR_MACRO, getFld r.arg ECC_LOG_ADDR_ROW)
/-- The request names a target that exists (R407, R431). -/
abbrev Spec.farExists (r : FarReq) : Prop :=
  let k := Spec.farKind r
  let x := Spec.farTarget r
  (k = 1 ∧ x < 154 ∧ (Spec.farRow r).1 < Spec.macros x ∧ (Spec.farRow r).2 < Spec.rows x)
    ∨ (k = 2 ∧ Spec.farEngine r < 48 ∧ x < if getFld r.cmd FAR_CMD_CONV < 4 then 64 else 32)
    ∨ (k = 3 ∧ Spec.farEngine r < 48 ∧ x < 16) ∨ ((k = 0 ∨ 4 ≤ k) ∧ x < 88)
/-- A repair has ended: its FAR_LOG entry, line 13 of the supervision drone, and the NO_SPARE condition (R420, R422, R432, R437). -/
def Spec.farEnds (s t : State) (r : FarReq) (outcome spare : Nat) : Prop :=
  let e := s.fld FAR_STAT FAR_STAT_NEXT
  let stamp := BitVec.ofNat 48 (scaleTs s.time.c s.time.stamp)
  let k := Spec.farKind r
  let detail := k + (r.cmd &&& if k = 2 then 0x703F07FF#32 else if k = 3 then 0x703F01FF#32 else 0x700000FF#32).toNat * 256
  t.ecc.job = none ∧ t.reg (FAR_LOG e 0) = r.cmd &&& impOf (FAR_LOG e 0) ∧ t.reg (FAR_LOG e 1) = BitVec.ofNat 32 (outcome * 2 ^ 28 + spare % 2048)
    ∧ t.reg (FAR_LOG e 2) = stamp.setWidth 32 ∧ t.reg (FAR_LOG e 3) = (stamp >>> 32).setWidth 32
    ∧ t.fld FAR_STAT FAR_STAT_NEXT = (e + 1) % 64 ∧ t.bit FAR_STAT FAR_STAT_BUSY = false ∧ (t.drnS 55).evpend.getLsbD 13 = true
    ∧ (outcome = 1 → Spec.farKind r ≠ 4 → Begun s t 5 0x04 2 detail) ∧ (outcome = 0 → Spec.farKind r ≠ 4 → Ended s t 5 0x04 2 detail)
    ∧ (2 ≤ outcome → t.col = s.col)
/-- What the farrier may change beside its log and queue: the words of `A`. -/
def Spec.farFrame (s t : State) (A : Nat → Prop) : Prop :=
  Only s t (fun a => A a ∨ (0x400000 ≤ a ∧ a < 0x500000) ∨ a = FC_STAT) (fun u => { u with ecc := .init, drn := [], col := .init })
    ∧ { t.ecc with queue := [], job := none, used := [], remap := [] } = { s.ecc with queue := [], job := none, used := [], remap := [] }
    ∧ UnitBut State.drnS s t 55 fun z => { z with evpend := 0 }
/-- The same where the maps of engine `n` change too: spare slices may lose results and restart their loops (R98). -/
def Spec.spareFrame (s t : State) (n : Eng) (A : Nat → Prop) : Prop :=
  Only s t (fun a => A a ∨ (0x400000 ≤ a ∧ a < 0x500000) ∨ a = FC_STAT ∨ a = CONV_SPARE_STAT n 0 ∨ a = CONV_SPARE_STAT n 1 ∨ a = STRIP_SPARE_STAT n)
      (fun u => { u with ecc := .init, drn := [], col := .init, eng := [] })
    ∧ { t.ecc with queue := [], job := none } = { s.ecc with queue := [], job := none }
    ∧ UnitBut State.drnS s t 55 (fun z => { z with evpend := 0 }) ∧ UnitBut State.engS s t n fun z => { z with track := [] }
/-- A spare row of a macro is unused (R422). -/
def Spec.rowFree (s : State) (r : FarReq) (i : Nat) : Prop :=
  i < (if 0x62 ≤ Spec.farTarget r then 4 else 8) ∧ (Spec.farTarget r, (Spec.farRow r).1, i) ∉ s.ecc.used
/-- A row repair takes the lowest unused spare row of its macro; with none left it ends as NO_SPARE (R422). -/
def Spec.rowBegins (s t : State) (r : FarReq) (tries : Nat) (tried : List Nat) : Prop :=
  let x := Spec.farTarget r
  (∀ i ∈ List.range 8, Spec.rowFree s r i → (∀ j ∈ List.range i, ¬Spec.rowFree s r j) →
    t.ecc.job = some ⟨r, .copy, i, tries, false, tried⟩ ∧ t.ecc.used = s.ecc.used ++ [(x, (Spec.farRow r).1, i)]
    ∧ (1 ≤ s.fld (FG_SPARES x) FG_SPARES_SPARES_LEFT → t.fld (FG_SPARES x) FG_SPARES_SPARES_LEFT + 1 = s.fld (FG_SPARES x) FG_SPARES_SPARES_LEFT)
    ∧ t.col = s.col)
  ∧ ((∀ i ∈ List.range 8, ¬Spec.rowFree s r i) → Spec.farEnds s t r 1 0 ∧ t.ecc.used = s.ecc.used)
/-- The shadow copy of a slice's or strip's map, as the repair writes it: the active copy with spare `i` in the target's place (R421). -/
def Spec.mapped (s t : State) (r : FarReq) (i : Nat) : Prop :=
  let n : Eng := Fin.ofNat 48 (Spec.farEngine r)
  let c := getFld r.cmd FAR_CMD_CONV
  let x := Spec.farTarget r
  let rx := r.cmd.getLsbD 8
  let w := if Spec.farKind r = 2 then (if c < 4 then CONV_ADC_MAP n c else CONV_DAC_MAP n (c - 4)) else STRIP_MAP n
  let b := if Spec.farKind r = 2 then 10 else if rx then 9 else 8
  (∀ e ∈ Spec.shadowWords n b, e.1 ≠ w → t.reg e.1 &&& e.2 = s.reg (e.1 + 0x4000) &&& e.2)
    ∧ (Spec.farKind r = 2 → t.reg w = setFld (setFld (s.reg (w + 0x4000)) (if c < 4 then ⟨8 * i + 5, 8 * i⟩ else ⟨8 * i + 4, 8 * i⟩) x) ⟨8 * i + 7, 8 * i + 7⟩ 1)
    ∧ (Spec.farKind r = 3 → t.fld w (if rx then STRIP_MAP_RX_STRIP else STRIP_MAP_TX_STRIP) = x
      ∧ t.bit w (if rx then STRIP_MAP_RX_EN else STRIP_MAP_TX_EN) = true)
/-- The shadow copy of block `b` reads as the active copy (R421). -/
def Spec.restored (t : State) (n : Eng) (b : Nat) : Prop :=
  ∀ x ∈ Spec.shadowWords n b, t.reg x.1 &&& x.2 = t.reg (x.1 + 0x4000) &&& x.2
/-- R420–R427, R431, R432: requests, the start of a repair, a row repair, strip checks, a retry after a clash, and the end of a failed repair.
For slices and strips the start is stated while no swap of their block is pending and the spare has not passed already; for units what it
chooses. A repair that fails while a swap of its block is pending ends, its shadow copy restored, once none is (log 47). -/
def Obligations.Farrier : Prop :=
  ∀ (s : State) (p : Party) (n : Eng) (v : W), s.Wf →
    let waits := fun r : FarReq => s.farWaits r
    let row := fun j : FarJob => Spec.farKind j.req = 1
    (s.pwr.dead = false → Gives (.farCmdGo p v) s fun t => Spec.queued s t v (s.reg FAR_ARG)
      ∧ Only s t (fun a => a = FAR_STAT) fun u => { u with ecc := { u.ecc with queue := [] } })
    ∧ (∀ (rx : Bool) (x : Fin 16), Gives (.stripCheck n rx x) s fun t => Told s t (0x10C + 16 * n) 0x27 2 (16 * rx.toNat + x)
      ∧ (s.bit FAR_CFG FAR_CFG_AUTO_STRIP = true → Spec.queued s t (BitVec.ofNat 32 (0x30000000 + n * 0x10000 + rx.toNat * 0x100 + x)) 0#32)
      ∧ (s.bit FAR_CFG FAR_CFG_AUTO_STRIP = false → t.ecc = s.ecc ∧ t.regs = s.regs)
      ∧ Only s t (fun a => a = FAR_STAT ∨ a = FC_STAT) fun u => { u with ecc := { u.ecc with queue := [] }, col := .init })
    ∧ (∀ rx good : Bool,
      let en := if rx then STRIP_MAP_RX_EN else STRIP_MAP_TX_EN
      let runs := s.bit (STRIP_MAP n) en = true ∧ s.bit (STRIP_MAP n + 0x4000) en = false
      let mine := fun j : FarJob => j.stage = .shadow ∧ j.clash = false ∧ Spec.farKind j.req = 3 ∧ Spec.farEngine j.req = n.val ∧ j.req.cmd.getLsbD 8 = rx
      (¬runs → Gives (.stripCompareDone n rx good) s fun t => Unchanged s t)
      ∧ (runs → (∀ j, s.ecc.job = some j → ¬mine j) → Gives (.stripCompareDone n rx good) s fun t => t.reg (STRIP_SPARE_STAT n)
          = setFld (setFld (s.reg (STRIP_SPARE_STAT n)) (if rx then STRIP_SPARE_STAT_RX_DONE else STRIP_SPARE_STAT_TX_DONE) 1)
            (if rx then STRIP_SPARE_STAT_RX_PASS else STRIP_SPARE_STAT_TX_PASS) (if good then 1 else 0)
        ∧ OnlyRegsOf s t fun a => a = STRIP_SPARE_STAT n)
      ∧ (runs → ∀ j, s.ecc.job = some j → mine j → good = false →
        Gives (.stripCompareDone n rx good) s fun t =>
          (s.pendBlk n (if rx then 9 else 8) = false → Spec.farEnds s t j.req 2 j.spare ∧ Spec.restored t n (if rx then 9 else 8))
          ∧ (s.pendBlk n (if rx then 9 else 8) = true → t.reg (STRIP_MAP n) = s.reg (STRIP_MAP n)
            ∧ t.ecc = { s.ecc with job := some { j with clash := true, stage := .restore 2 } })))
    ∧ (s.ecc.job.isSome ∨ (∀ r ∈ s.ecc.queue, waits r = true) → Gives .repairStart s fun t => Unchanged s t)
    ∧ (∀ r, (s.ecc.queue.find? fun q => !waits q) = some r → s.ecc.job = none → s.ecc.queue.length ≤ 16 →
      let k := Spec.farKind r
      let e : Eng := Fin.ofNat 48 (Spec.farEngine r)
      Gives .repairStart s fun t => t.ecc.queue = s.ecc.queue.erase r ∧ t.fld FAR_STAT FAR_STAT_QUEUED = s.ecc.queue.length - 1
        ∧ t.bit FAR_STAT FAR_STAT_BUSY = t.ecc.job.isSome
        ∧ (¬Spec.farExists r → Spec.farEnds s t r 4 0 ∧ Spec.farFrame s t fun _ => False)
        ∧ (Spec.farExists r → k = 1 → Spec.rowBegins s t r 0 [] ∧ Spec.farFrame s t fun _ => False)
        ∧ (Spec.farExists r → k = 2 →
          let c := getFld r.cmd FAR_CMD_CONV
          let w := if c < 4 then CONV_ADC_MAP e c else CONV_DAC_MAP e (c - 4)
          let free := fun i : Nat => (s.reg w).getLsbD (8 * i + 7) = false ∧ (s.reg (w + 0x4000)).getLsbD (8 * i + 7) = false
          let m := if c < 4 then 4 else 2
          ((∀ i ∈ List.range m, ¬free i) → Spec.farEnds s t r 1 0 ∧ Spec.farFrame s t fun _ => False)
          ∧ ∀ i ∈ List.range m, free i → (∀ j ∈ List.range i, ¬free j) → s.pendBlk e 10 = false → s.farPass r i = false →
            t.ecc.job = some ⟨r, .shadow, i, 0, false, []⟩ ∧ Spec.mapped s t r i
            ∧ (c < 4 → Tab.get (t.engS e).track (fun _ => Track.init) (68 * c + 64 + i) = Track.init)
            ∧ Spec.spareFrame s t e fun a => ∃ x ∈ Spec.shadowWords e 10, a = x.1)
        ∧ (Spec.farExists r → k = 3 →
          let en := if r.cmd.getLsbD 8 then STRIP_MAP_RX_EN else STRIP_MAP_TX_EN
          let used := s.bit (STRIP_MAP e) en = true ∨ s.bit (STRIP_MAP e + 0x4000) en = true
          (used → Spec.farEnds s t r 1 0 ∧ Spec.farFrame s t fun _ => False)
          ∧ (¬used → s.pendBlk e (if r.cmd.getLsbD 8 then 9 else 8) = false → s.farPass r 0 = false →
            t.ecc.job = some ⟨r, .shadow, 0, 0, false, []⟩ ∧ Spec.mapped s t r 0 ∧ Spec.spareFrame s t e fun a => a = STRIP_MAP e))
        ∧ (Spec.farExists r → 4 ≤ k →
          let free := fun u : Nat => Spec.unit s u = 0
          let live := fun u : Nat => free u ∧ s.inRun (52 + u / 8) = true
          let all := List.range 88
          (Spec.unit s (Spec.farTarget r) ≠ 1 → Spec.farEnds s t r 4 0)
          ∧ (Spec.unit s (Spec.farTarget r) = 1 → (∀ u ∈ all, ¬free u) → Spec.farEnds s t r 1 0)
          ∧ (Spec.unit s (Spec.farTarget r) = 1 → ∀ u ∈ all, (live u ∧ ∀ x ∈ List.range u, ¬live x) ∨ (free u ∧ (∀ x ∈ all, ¬live x) ∧ ∀ x ∈ List.range u, ¬free x) →
            t.ecc.job.elim False fun j => j.req = r ∧ j.spare = u ∧ j.stage = .shadow)))
    ∧ (∀ j, s.ecc.job = some j →
      (row j → j.stage = .copy → Gives .rowCopyDone s fun t => t = { s.quiet with ecc := { s.ecc with job := some { j with stage := .compare } } })
      ∧ (row j → j.stage = .compare → Gives (.rowCompareDone true) s fun t => t = { s.quiet with ecc := { s.ecc with job := some { j with stage := .switch } } })
      ∧ (row j → j.stage = .compare → Spec.farExists j.req → Gives (.rowCompareDone false) s fun t =>
        Spec.rowBegins s t j.req j.tries (j.tried ++ [j.spare]) ∧ t.ecc.queue = s.ecc.queue ∧ Spec.farFrame s t fun _ => False)
      ∧ (row j → j.stage = .switch → Gives .rowSwitch s fun t => Spec.farEnds s t j.req 0 j.spare
        ∧ (Spec.farTarget j.req, (Spec.farRow j.req).1, (Spec.farRow j.req).2, j.spare) ∈ t.ecc.remap
        ∧ (∀ e ∈ List.range 32, Spec.farTarget j.req < 154 → s.bit (ECC_LOG_INFO (Spec.farTarget j.req) e) ECC_LOG_INFO_VALID = true →
          (s.reg (ECC_LOG_ADDR (Spec.farTarget j.req) e)) >>> 12 = j.req.arg >>> 12 →
          t.bit (ECC_LOG_INFO (Spec.farTarget j.req) e) ECC_LOG_INFO_REMAPPED = true)
        ∧ t.ecc.queue = s.ecc.queue ∧ t.ecc.used = s.ecc.used ∧ Spec.farFrame s t fun _ => False)
      ∧ (¬(row j ∧ j.stage = .copy) → Gives .rowCopyDone s fun t => Unchanged s t)
      ∧ (¬(row j ∧ j.stage = .compare) → ∀ g, Gives (.rowCompareDone g) s fun t => Unchanged s t)
      ∧ (¬(row j ∧ j.stage = .switch) → Gives .rowSwitch s fun t => Unchanged s t)
      ∧ (let k := Spec.farKind j.req
        let e : Eng := Fin.ofNat 48 (Spec.farEngine j.req)
        let b := if k = 2 then 10 else if j.req.cmd.getLsbD 8 then 9 else 8
        (row j → Gives .farrierRetry s fun t => Unchanged s t)
        ∧ ((k = 2 ∨ k = 3) → Spec.farExists j.req → (j.spare < if k = 2 ∧ getFld j.req.cmd FAR_CMD_CONV < 4 then 4 else 2) →
          (j.stage = .shadow ∧ j.clash = true) ∨ (j.stage = .swap ∧ s.farActive j.req j.spare = false) →
          (s.pendBlk e b = true → Gives .farrierRetry s fun t => Unchanged s t)
          ∧ (s.pendBlk e b = false → s.farPass j.req j.spare = false → Gives .farrierRetry s fun t =>
            t.ecc.job = some { j with stage := .shadow, clash := false } ∧ Spec.mapped s t j.req j.spare ∧ t.ecc.queue = s.ecc.queue))
        ∧ ((k = 2 ∨ k = 3) → j.stage = .shadow → j.clash = false → k = 3 ∨ s.farPass j.req j.spare = false →
          Gives .farrierRetry s fun t => Unchanged s t)
        ∧ (k = 2 → Spec.farEngine j.req < 48 → j.stage = .shadow → j.clash = false → s.farPass j.req j.spare = true → s.pendBlk e b = true →
          j.tries < s.fld FAR_CFG FAR_CFG_RETRY → Gives .farrierRetry s fun t =>
          t.ecc.job = some { j with tries := j.tries + 1, clash := true } ∧ t.ecc.queue = s.ecc.queue ∧ t.reg (FAR_LOG 0 0) = s.reg (FAR_LOG 0 0))
        ∧ (k = 2 → Spec.farEngine j.req < 48 → j.stage = .shadow → j.clash = false → s.farPass j.req j.spare = true → s.pendBlk e b = true →
          s.fld FAR_CFG FAR_CFG_RETRY ≤ j.tries → Gives .farrierRetry s fun t =>
          t.ecc.job = some { j with stage := .restore 3, clash := true } ∧ t.ecc.queue = s.ecc.queue)
        ∧ (∀ o, (k = 2 ∨ k = 3) → Spec.farEngine j.req < 48 → j.stage = .restore o → (∀ x ∈ s.col.conds, x.src ≠ 5) →
          (s.pendBlk e b = true → Gives .farrierRetry s fun t => Unchanged s t)
          ∧ (s.pendBlk e b = false → Gives .farrierRetry s fun t => Spec.farEnds s t j.req o j.spare ∧ Spec.restored t e b
            ∧ t.ecc.queue = s.ecc.queue))
        ∧ ((k = 2 ∨ k = 3) → j.stage = .swap → s.farActive j.req j.spare = true → (∀ x ∈ s.col.conds, x.src ≠ 5) → Gives .farrierRetry s fun t =>
          Spec.farEnds s t j.req 0 j.spare)))
    ∧ (s.ecc.job = none → (Gives .rowCopyDone s fun t => Unchanged s t) ∧ (∀ g, Gives (.rowCompareDone g) s fun t => Unchanged s t)
      ∧ (Gives .rowSwitch s fun t => Unchanged s t) ∧ Gives .farrierRetry s fun t => Unchanged s t)

/-! The fault collector (15_fault_collector.md). -/

/-- Some source has a sticky bit of a class whose ERR_EN is 1, or CHIP_RESET is 1 (R445). -/
abbrev Spec.errDue (t : State) : Prop :=
  t.bit FC_STAT FC_STAT_CHIP_RESET = true
    ∨ ∃ src ∈ List.range 4096, t.fld (FC_SRC_STAT src) FC_SRC_STAT_STICKY &&& t.fld (FC_SRC_CFG src) FC_SRC_CFG_ERR_EN ≠ 0
/-- ERR_N is low while its cause holds, and otherwise only for what is left of ERR_HOLD; INT_N follows IRQ and INT_EN (R445). -/
def Spec.pins (t : State) : Prop :=
  let due := Spec.errDue t
  (due → t.col.errN = true) ∧ (¬due → t.col.errN = true → t.col.errMin = true)
    ∧ (t.intN = false ↔ t.bit FC_STAT FC_STAT_IRQ = true ∧ t.bit FC_CFG FC_CFG_INT_EN = true)
/-- Processing order within one cycle (R439). -/
def Spec.order (m : Msg) : Nat := m.src * 4 + m.inj.toNat * 2 + (!m.isSet).toNat
/-- The fields of class `c` in FC_SRC_STAT and FC_SRC_CFG (R450, R451). -/
def Spec.level (s : State) (m : Msg) : Nat := s.fld (FC_SRC_STAT m.src) ⟨19 + 3 * m.cls, 17 + 3 * m.cls⟩
def Spec.base (s : State) (m : Msg) : Nat := s.fld (FC_SRC_CFG m.src) ⟨3 * m.cls + 2, 3 * m.cls⟩
def Spec.ceiling (s : State) (m : Msg) : Nat := s.fld (FC_SRC_CFG m.src) FC_SRC_CFG_CEILING
/-- The rung that a set message takes (R441). -/
def Spec.rung (s : State) (m : Msg) : Nat :=
  let r := if Spec.ceiling s m < Spec.base s m then Spec.base s m else min (Spec.base s m + Spec.level s m) (Spec.ceiling s m)
  if m.inj then min r 3 else r
/-- The 64 bits of a message (R434). -/
def Spec.bits (m : Msg) : BitVec 64 :=
  BitVec.ofNat 12 m.src ++ (BitVec.ofNat 8 m.kind ++ (BitVec.ofNat 3 m.cls ++ (BitVec.ofBool m.inj ++ m.detail)))
/-- The entry of the history queue (R447). -/
def Spec.recorded (s t : State) (m : Msg) : Prop :=
  let q := s.reg FC_HQ_SEQ
  let k := q.toNat % 256
  let ts := BitVec.ofNat 48 (scaleTs s.time.c s.time.stamp)
  t.reg (FC_HQ k 0) = (Spec.bits m).setWidth 32 ∧ t.reg (FC_HQ k 1) = (Spec.bits m >>> 32).setWidth 32 ∧ t.reg (FC_HQ k 2) = ts.setWidth 32
    ∧ t.reg (FC_HQ k 3) = BitVec.ofNat 14 m.merged ++ (BitVec.ofBool m.note ++ (BitVec.ofBool m.isSet ++ (ts >>> 32).setWidth 16))
    ∧ t.reg FC_HQ_SEQ = q + 1#32
/-- Rung 1 (R440, R445). -/
def Spec.interrupts (s t : State) : Prop :=
  t.bit FC_STAT FC_STAT_IRQ = true ∧ (s.bit FC_STAT FC_STAT_IRQ = false → s.bit FC_CFG FC_CFG_INT_EN = true → Spec.vector s t 0)
/-- Rung 2 for a drone as owner (R402, R442). -/
def Spec.nmiTo (s t : State) (d : Drn) : Prop :=
  let x := s.drnS d
  let y := t.drnS d
  (s.drnState d = 1 ∨ s.drnState d = 2 → x.tip = false → t.drnState d = 1 ∧ y.tip = true ∧ y.keeper = true ∧ y.prev = x.keeper
    ∧ y.tcode = 9#32 ∧ y.tpc = x.pc.setWidth 32 ∧ y.taddr = 0#32 ∧ y.pc = x.tentry.setWidth 16 ∧ y.nmi = x.nmi)
  ∧ (s.drnState d = 1 ∨ s.drnState d = 2 → x.tip = true → y.nmi = true ∧ y.pc = x.pc ∧ t.drnState d = s.drnState d)
  ∧ (¬(s.drnState d = 1 ∨ s.drnState d = 2) → t.bit FC_STAT FC_STAT_NMI_REDIRECT = true ∧ t.drnState d = s.drnState d ∧ y.pc = x.pc ∧ y.tip = x.tip)
/-- A source that no row of R443 gives a block: rung 2 in its place. -/
abbrev Spec.noBlock (m : Msg) : Prop := m.src < 5 ∨ m.src = 7 ∨ (0x500 ≤ m.src ∧ m.src < 0x600)
/-- The self-test run of controller `c` that the reset reaches is marked as cut (R459). -/
def Spec.cutRun (s t : State) (c : Nat) (f : StRun → Prop) : Prop := ∀ r, (s.stS c).run = some r → f r → (t.stS c).run = some { r with cut := true }
/-- Units have dropped codewords of engine `n`, which count as uncorrectable (R443, R231). -/
def Spec.dropped (s t : State) (n : Eng) (p : Nat → Bool) : Prop :=
  Spec.counted s t (FEC_CW n) (s.cwHeld n p).length ∧ Spec.counted s t (FEC_BCH_UNCORR n) (s.cwHeld n p).length
    ∧ t.bit (FEC_STAT n) FEC_STAT_UNCORR = (s.bit (FEC_STAT n) FEC_STAT_UNCORR || decide (s.cwHeld n p ≠ []))
/-- Rung 3, by the kind of source (R443). -/
def Spec.blockReset (s t : State) (m : Msg) : Prop :=
  (∀ n : Eng, ∀ u ∈ List.range 16, m.src = 0x100 + 16 * n + u → s.domState n = 0 →
    let rx := u < 4 ∨ u = 9 ∨ u = 10 ∨ u = 14 ∨ (u = 12 ∧ m.detail.getLsbD 4 = true)
    (rx → t.rxState n = (if 2 ≤ s.rxState n then 2 else s.rxState n) ∧ t.fld (CAP_STAT n) CAP_STAT_STATE = 0
      ∧ (s.bit (MON_STAT n) MON_STAT_RUN = true → t.reg (MON_FINE_CNT n) = 0#32 ∧ (t.engS n).mon.clk = 0)
      ∧ Spec.cutRun s t n fun r => r.kind = 0 ∨ r.kind = 1 ∨ (r.kind = 3 ∧ r.index.testBit 4 = true))
    ∧ (¬rx → u ≠ 11 → Spec.cutRun s t n fun r => r.kind = 0 ∨ r.kind = 2 ∨ (r.kind = 3 ∧ r.index.testBit 4 = false))
    ∧ (¬rx → u ≠ 11 → (s.engS n).tx = .on → (t.engS n).hold = true ∧ (t.engS n).tx = .on
      ∧ s.fld (TX_LAT n) TX_LAT_TOTAL ≤ 320 * (t.engS n).holdN ∧ t.reg (ENG_SF_TX n) = s.reg (ENG_SF_TX n)))
  ∧ (∀ d : Drn, m.src = 0x600 + d.val → 1 ≤ s.drnState d → s.drnState d ≤ 4 → t.drnState d = 1 ∧ (t.drnS d).pc = 0#16
    ∧ (t.drnS d).keeper = true ∧ (t.drnS d).tip = false ∧ (t.drnS d).g = (s.drnS d).g)
  ∧ (∀ d : Drn, m.src = 0x600 + d.val → Spec.cutRun s t 48 fun r => r.kind = 10 ∧ r.index = d.val / 8)
  ∧ (∀ l ∈ List.range 256, m.src = 0x400 + l →
    let w := s.reg (PORT_CFG (l / 64) (l % 64))
    let mine := fun h i : Nat => w.getLsbD 31 = true ∧ h = l / 64 ∧ l % 64 ≤ i ∧ i < l % 64 + portLanes w ∧ 2 ≤ s.laneState h i ∧ s.laneState h i ≤ 3
    (∀ (h : Fin 4) (i : Fin 64), (mine h i → t.laneState h i = 1) ∧ (¬mine h i → t.laneState h i = s.laneState h i))
    ∧ Spec.cutRun s t 48 fun r => r.kind = 11 ∧ r.index = l / 64)
  ∧ (∀ n : Eng, m.src = 0x10B + 16 * n → Spec.dropped s t n fun _ => true)
  ∧ (∀ g ∈ List.range 11, m.src = 0x20 + g → (∀ n : Eng, Spec.dropped s t n fun u => decide (u / 8 = g))
    ∧ Spec.cutRun s t 48 fun r => (r.kind = 9 ∧ r.index = g) ∨ (r.kind = 8 ∧ r.index / 8 = g))
  ∧ (m.src = 5 → t.ecc.job = none ∧ t.ecc.queue = [])
  ∧ (m.src = 6 → t.fld PCIE_STAT ⟨31, 16⟩ = 0 ∧ t.pcie = .init ∧ ∀ a, MSIX_TABLE 0 ≤ a → a < MSIX_PBA 8 → t.reg a = rstOf a)
  ∧ (∀ k ∈ List.range 5, m.src = 0x10 + k → (t.edgeS (2 * k)).down = true ∧ (t.edgeS (2 * k + 1)).down = true)
/-- What a message that resets nothing leaves alone: all but the source's status, FC_STAT, the history, line 12 of the supervision drone, the pins,
and of the owner `o` that it traps what a trap writes, or the steward's message. -/
def Spec.faultFrame (s t : State) (m : Msg) (o : Option Nat) : Prop :=
  let k := (s.reg FC_HQ_SEQ).toNat % 256
  let stw := 56 ≤ o.getD 0
  Only s t (fun a => a = FC_SRC_STAT m.src ∨ a = FC_STAT ∨ a = FC_HQ_SEQ ∨ (∃ j ∈ List.range 4, a = FC_HQ k j) ∨ a = MSIX_PBA 0
      ∨ (∃ d, o = some d ∧ d < 56 ∧ a = HIVE_DRN_STAT d) ∨ (stw ∧ (a = HIVE_MBX_D2H_WR 56 ∨ (0x400000 ≤ a ∧ a < 0x500000))))
    (fun u => { u with
      col := .init, drn := [], mem := if stw then [] else u.mem, poison := if stw then [] else u.poison, ecc := if stw then .init else u.ecc
      fresh := if stw then 0 else u.fresh })
  ∧ { t.col with intake := [], errN := false, errMin := false, errT := 0 } = { s.col with intake := [], errN := false, errMin := false, errT := 0 }
  ∧ (∀ d, d ≠ 55 → o ≠ some d → t.drnS d = s.drnS d)
  ∧ (∀ d, d = 55 ∨ o = some d →
    let f := fun x : DrnSt => { x with evpend := 0, pc := 0, keeper := false, prev := false, tip := false, tcode := 0, tpc := 0, taddr := 0, nmi := false, wait := none }
    f (t.drnS d) = f (s.drnS d))
  ∧ (o ≠ some 55 → { t.drnS 55 with evpend := 0 } = { s.drnS 55 with evpend := 0 })
  ∧ BytesBut s t fun a => stw ∧ Spec.slot s ≤ a ∧ a < Spec.slot s + 64
/-- R434, R438–R447: one message is processed: history, live, sticky and LEVEL, the rung and its reaction, and the pins, with the frame of a
message that resets no block and starts no capture. The transmit side's hold may end one boundary later (DEDUCED, log 68), live bits follow the conditions (DEDUCED, log 55), and a kept condition is sent
again with the DETAIL of its first message (DEDUCED, log 56). -/
def Obligations.FaultMessages : Prop :=
  ∀ (s : State) (ws : List CapWord), s.Wf → s.pwr.dead = false →
    (s.col.intake = [] → Gives (.faultMessage ws) s fun t => Unchanged s t)
    ∧ ∀ m l, firstMsg s.col.intake = some (m, l) → m.src < 4096 → m.cls < 5 → m.kind < 256 → m.merged < 2 ^ 14 →
      let st := FC_SRC_STAT m.src
      let sticky : Fld := ⟨m.cls, m.cls⟩
      let o := s.fld (FC_SRC_CFG m.src) FC_SRC_CFG_OWNER
      let r := if m.isSet then Spec.rung s m else 0
      let lv := Spec.level s m
      let nmi := r = 2 ∨ (r = 3 ∧ Spec.noBlock m)
      let e := (m.src - 0x100) / 16
      let trig := 0x100 ≤ m.src ∧ m.src < 0x400 ∧ m.isSet = true ∧ s.bit (CAP_CTL e) CAP_CTL_SRC_FAULT = true
        ∧ s.fld (CAP_CTL e) CAP_CTL_FAULT_CLASS ≤ m.cls
      m ∈ s.col.intake ∧ (∀ x ∈ s.col.intake, Spec.order m ≤ Spec.order x)
      ∧ Gives (.faultMessage ws) s fun t => Spec.recorded s t m ∧ Spec.pins t ∧ t.time.c = s.time.c
        ∧ (r < 4 → (t.drnS 55).evpend.getLsbD 12 = true
          ∧ (srcExists m.src = true → r < 3 →
            t.bit st ⟨8 + m.cls, 8 + m.cls⟩ = (if m.inj then s.bit st ⟨8 + m.cls, 8 + m.cls⟩ else decide (∃ k ∈ s.col.conds, k.src = m.src ∧ k.cls = m.cls))
            ∧ t.bit st sticky = (s.bit st sticky || m.isSet)
            ∧ Spec.level t m = (if m.isSet = true ∧ s.bit st sticky = true ∧ Spec.base s m + lv < Spec.ceiling s m then lv + 1 else lv)))
        ∧ (r < 3 → t.col.intake = l)
        ∧ (r = 0 → t.reg FC_STAT &&& 0x7D#32 = s.reg FC_STAT &&& 0x7D#32)
        ∧ (1 ≤ r → r < 4 → t.bit FC_STAT FC_STAT_IRQ = true ∧ (¬(r = 3 ∧ m.src = 6) → Spec.interrupts s t))
        ∧ (r < 2 → ¬trig → Spec.faultFrame s t m none) ∧ (nmi → ¬trig → Spec.faultFrame s t m (some o))
        ∧ (r = 3 → (∀ x, x ≠ m.src → t.reg (FC_SRC_STAT x) = s.reg (FC_SRC_STAT x)) ∧ (∀ x, t.reg (FC_SRC_CFG x) = s.reg (FC_SRC_CFG x)) ∧ t.sup = s.sup)
        ∧ (nmi → ∀ d : Drn, d.val = o → Spec.nmiTo s t d)
        ∧ (nmi → 56 ≤ o → t.fld (HIVE_MBX_D2H_WR 56) HIVE_MBX_D2H_WR_WR = (s.fld (HIVE_MBX_D2H_WR 56) HIVE_MBX_D2H_WR_WR + 1) % 128)
        ∧ (r = 3 → ¬trig → Spec.blockReset s t m)
        ∧ (4 ≤ r → t.bit FC_STAT FC_STAT_CHIP_RESET = true ∧ Spec.counted s t FC_CHIP_RESET_CNT 1 ∧ t.stwState = 0
          ∧ (∀ d ∈ domAll, t.domState d = 4) ∧ (∀ d : Drn, t.drnState d = 0) ∧ t.bit PCIE_STAT PCIE_STAT_LINK_UP = false
          ∧ (∀ x ∈ List.range 4096, t.reg (FC_SRC_STAT x) = 0#32 ∧ t.reg (FC_SRC_CFG x) = rstOf (FC_SRC_CFG x))
          ∧ (∀ k ∈ t.col.conds, k ∈ s.col.conds ∧ ∃ x ∈ t.col.intake, x.src = k.src ∧ x.cls = k.cls ∧ x.isSet = true
            ∧ ((∀ j ∈ t.col.conds, j.src = k.src → j.cls = k.cls → j = k) → x.kind = k.kind ∧ x.detail = k.detail))
          ∧ (∀ k ∈ s.col.conds, k.src = 1 → k.kind ≠ 0x48 → k ∈ t.col.conds) ∧ t.sup = s.sup
          ∧ t.stampSt = 0 ∧ t.lineSt = 0)
/-- R445, R446, R448, R450: acknowledging sticky bits, injecting a message, configuring a source, and the end of ERR_HOLD. That re-assertions
are counted for each sticky bit is the model's reading (DEDUCED, log 55). -/
def Obligations.FaultRegisters : Prop :=
  ∀ (s : State) (p : Party) (src : Fin 4096) (v : W), s.Wf → s.pwr.dead = false →
    let st := FC_SRC_STAT src
    let ack := fun c : Nat => v.getLsbD c && s.bit st ⟨c, c⟩
    let live := fun c : Nat => s.bit st ⟨8 + c, 8 + c⟩
    let pinRegs := fun u : State => { u with col := { u.col with errN := false, errMin := false, errT := 0 } }
    (srcExists src = false → Gives (.stickyAck p src v) s fun t => Unchanged s t)
    ∧ (srcExists src = true → Gives (.stickyAck p src v) s fun t =>
      (∀ c ∈ List.range 5, t.bit st ⟨8 + c, 8 + c⟩ = live c ∧ t.bit st ⟨c, c⟩ = (s.bit st ⟨c, c⟩ && !(ack c && !live c))
        ∧ t.fld st ⟨19 + 3 * c, 17 + 3 * c⟩ = if ack c && !live c then 0 else s.fld st ⟨19 + 3 * c, 17 + 3 * c⟩)
      ∧ Spec.counted s t (FC_SRC_REASSERT src) ((List.range 5).filter fun c => ack c && live c).length
      ∧ Spec.pins t ∧ Only s t (fun a => a = st ∨ a = FC_SRC_REASSERT src ∨ a = FC_STAT) pinRegs)
    ∧ (let m : Msg := ⟨v.toNat / 2 ^ 20, v.toNat / 2 ^ 12 % 256, v.toNat / 2 ^ 9 % 8, true, v.setWidth 8 ++ s.reg FC_INJECT_LO, true, 0, false⟩
      (srcExists m.src = false ∨ 5 ≤ m.cls → Gives (.fcInject p v) s fun t =>
        t.reg FC_STAT = setFld (s.reg FC_STAT) FC_STAT_INJ_REFUSED 1 ∧ OnlyRegsOf s t fun a => a = FC_STAT)
      ∧ (¬(srcExists m.src = false ∨ 5 ≤ m.cls) → Gives (.fcInject p v) s fun t =>
        t.col = { s.col with intake := mergeMsg m s.col.intake }
        ∧ t.bit FC_STAT FC_STAT_MERGE_SAT = (s.bit FC_STAT FC_STAT_MERGE_SAT || s.col.intake.any fun x =>
          x.isSet && x.src == m.src && x.cls == m.cls && x.inj && x.merged == 16383)
        ∧ Only s t (fun a => a = FC_STAT) fun u => { u with col := .init }))
    ∧ (let o := getFld v FC_SRC_CFG_OWNER
      let bad := (56 ≤ o ∧ o ≠ 63) ∨ 5 ≤ getFld v FC_SRC_CFG_CEILING ∨ ∃ c ∈ List.range 5, 5 ≤ getFld v ⟨3 * c + 2, 3 * c⟩
      (srcExists src = false → Gives (.fcSrcCfgWrite p src v) s fun t => Unchanged s t)
      ∧ (srcExists src = true → bad → Gives (.fcSrcCfgWrite p src v) s fun t =>
        t.reg FC_STAT = setFld (s.reg FC_STAT) FC_STAT_CFG_REFUSED 1 ∧ OnlyRegsOf s t fun a => a = FC_STAT)
      ∧ (srcExists src = true → ¬bad → Gives (.fcSrcCfgWrite p src v) s fun t => t.reg (FC_SRC_CFG src) = v &&& impOf (FC_SRC_CFG src)
        ∧ Spec.pins t ∧ Only s t (fun a => a = FC_SRC_CFG src ∨ a = FC_STAT) pinRegs))
    ∧ (s.time.c - s.col.errT < 1250 * s.fld FC_CFG FC_CFG_ERR_HOLD → Gives .errHoldExpiry s fun t => Unchanged s t)
    ∧ (1250 * s.fld FC_CFG FC_CFG_ERR_HOLD ≤ s.time.c - s.col.errT → Gives .errHoldExpiry s fun t => (t.col.errN = true ↔ Spec.errDue s)
      ∧ (s.col.errN = true → t.col.errMin = false ∧ t.col.errT = s.col.errT)
      ∧ (s.col.errN = false → t.col.errN = true → t.col.errT = s.time.c) ∧ Only s t (fun a => a = FC_STAT) pinRegs)

/-! Self-test (16_self_test.md). -/

/-- The first word of a controller: engines 0 to 47, then the hub's (R463). -/
def Spec.stWord (c : Fin 49) (o : Nat) : Nat := (if c.val < 48 then EST_CMD c else HST_CMD) + o
/-- Tests a kind allows, REF to LOGIC, with their pattern counts (R453). -/
def Spec.stPatterns (kind : Nat) : List (Option Nat) :=
  if kind = 0 then [some 410, some 8192, some 5921280, some 2228224] else if kind = 1 ∨ kind = 2 then [some 4, none, none, none]
  else if kind = 3 then [none, none, none, some 65536] else if kind = 8 then [none, none, some 30720, some 262144]
  else if kind = 9 then [none, none, some 245760, some 2097152] else if kind = 10 then [none, none, some 1315840, some 1048576]
  else if kind = 11 then [none, some 65536, none, some 524288] else []
def Spec.stCount (kind tests : Nat) : Nat :=
  ((List.range 4).map fun i => if tests.testBit i then ((Spec.stPatterns kind).getD i none).getD 0 else 0).sum
/-- KIND, INDEX and TESTS name a target of the controller (R453, R461). -/
abbrev Spec.stNames (c : Fin 49) (kind index tests : Nat) : Prop :=
  (if c.val < 48 then kind < 4 else 8 ≤ kind) ∧ tests ≠ 0
    ∧ (∀ i ∈ List.range 4, tests.testBit i = true → ((Spec.stPatterns kind).getD i none).isSome = true)
    ∧ (kind = 1 → index / 128 < 4 ∧ index % 128 < 68) ∧ (kind = 2 → index / 128 < 4 ∧ index % 128 < 34) ∧ (kind = 3 → index < 32)
    ∧ (kind = 8 → index < 88) ∧ (kind = 9 → index < 11) ∧ (kind = 10 → index < 7) ∧ (kind = 11 → index < 4)
/-- An enabled calendar entry of engine `n`, shadow or active (R455). -/
def Spec.stCalendar (s : State) (n : Nat) : Prop :=
  ∃ i ∈ List.range 320, ∃ a ∈ [CAL_IN n i, CAL_OUT n i], (s.reg a).getLsbD 31 = true ∨ (s.reg (a + 0x30000)).getLsbD 31 = true
/-- An engine carries nothing: the whole-engine conditions of R455, apart from Run. -/
def Spec.engineIdle (s : State) (n : Nat) : Prop :=
  s.bit (TX_CTL n) TX_CTL_EN = false ∧ s.bit (TX_STAT n) TX_STAT_ON = false ∧ s.bit (RX_CTL n) RX_CTL_EN = false
    ∧ s.fld (CAP_STAT n) CAP_STAT_STATE = 0 ∧ (s.engS n).calRun = 0 ∧ (∀ b ∈ List.range 15, s.pendBlk n b = false)
    ∧ (∀ d ∈ [0, 0x4000], s.fld (POOL_DEC n + d) POOL_DEC_COUNT = 0 ∧ s.fld (POOL_ENC n + d) POOL_ENC_LANES = 0)
    ∧ ¬Spec.stCalendar s n ∧ s.bit (GLO_PAGE_STAT n) GLO_PAGE_STAT_IS_OPEN = false
/-- A slice or strip is replaced in the copy of its map at a distance. -/
def Spec.stReplaced (s : State) (n kind index d : Nat) : Prop :=
  (kind = 1 → ∃ i ∈ List.range 4, (s.reg (CONV_ADC_MAP n (index / 128) + d)).getLsbD (8 * i + 7) = true
    ∧ s.fld (CONV_ADC_MAP n (index / 128) + d) ⟨8 * i + 5, 8 * i⟩ = index % 128)
  ∧ (kind = 2 → ∃ i ∈ List.range 2, (s.reg (CONV_DAC_MAP n (index / 128) + d)).getLsbD (8 * i + 7) = true
    ∧ s.fld (CONV_DAC_MAP n (index / 128) + d) ⟨8 * i + 4, 8 * i⟩ = index % 128)
  ∧ (kind = 3 → s.bit (STRIP_MAP n + d) (if index < 16 then STRIP_MAP_TX_EN else STRIP_MAP_RX_EN) = true
    ∧ s.fld (STRIP_MAP n + d) (if index < 16 then STRIP_MAP_TX_STRIP else STRIP_MAP_RX_STRIP) = index % 16)
/-- The conditions of R455. -/
def Spec.stMeets (s : State) (c : Fin 49) (kind index : Nat) : Prop :=
  let n := c.val
  (kind = 0 → s.domState n = 0 ∧ Spec.engineIdle s n)
  ∧ (1 ≤ kind → kind ≤ 3 → Spec.stReplaced s n kind index 0 ∧ Spec.stReplaced s n kind index 0x4000)
  ∧ (kind = 8 → Spec.unit s index = 0 ∨ Spec.unit s index = 3)
  ∧ (kind = 9 → s.domState (52 + index) = 0 ∧ ∀ i ∈ List.range 8, Spec.unit s (8 * index + i) = 0 ∨ Spec.unit s (8 * index + i) = 3)
  ∧ (kind = 10 → s.domState (64 + index) = 0 ∧ ∀ i ∈ List.range 8, s.fld (HIVE_DRN_STAT (8 * index + i)) HIVE_DRN_STAT_STATE ∈ [0, 3, 4])
  ∧ (kind = 11 → s.domState (48 + index) = 0 ∧ ∀ i ∈ List.range 64, s.bit (PORT_CFG index i) PORT_CFG_EN = false)
/-- The domain of a target. -/
def Spec.stDomain (c : Fin 49) (kind index : Nat) : Nat :=
  if c.val < 48 then c else if kind = 8 then 52 + index / 8 else if kind = 9 then 52 + index else if kind = 10 then 64 + index else 48 + index
/-- The units of a target. -/
def Spec.stUnits (kind index : Nat) : List Nat := if kind = 8 then [index] else if kind = 9 then (List.range 8).map (8 * index + ·) else []
/-- A run starts (R453, R454, R456). -/
def Spec.stStarts (s t : State) (c : Fin 49) (kind index tests : Nat) (retire : Bool) (wait : List (Nat × Nat)) : Prop :=
  let us := Spec.stUnits kind index
  let r := fun o => t.reg (Spec.stWord c o)
  t.stS c = ⟨some ⟨kind, index, tests, retire, false, us.map (Spec.unit s)⟩, wait⟩
    ∧ r 4 = setFld (setFld 0x80000000#32 HST_STAT_RETIRE retire.toNat) HST_STAT_ERR (if retire then s.fld (Spec.stWord c 4) HST_STAT_ERR else 0) ∧ r 8 = 0#32 ∧ r 12 = BitVec.ofNat 32 (Spec.stCount kind tests)
    ∧ r 0x10 = 0xFFFFFFFF#32 ∧ r 0x14 = 0xFFFFFFFF#32 ∧ r 0x20 = 0#32
    ∧ (tests < 8 → (r 0x1C ++ r 0x18) = Nat.repeat (fun x => misrStep x 0#64) (Spec.stCount kind tests) (BitVec.allOnes 64))
    ∧ (∀ u ∈ us, Spec.unit t u = 4)
    ∧ (∀ k, k ≠ c.val → t.stS k = s.stS k)
    ∧ Only s t (fun a => (Spec.stWord c 4 ≤ a ∧ a ≤ Spec.stWord c 0x20) ∨ (∃ u ∈ us, a = POOL_UNIT u) ∨ a = FC_STAT) fun u => { u with st := [], col := .init }
/-- The MISR after the result words (R454), each repeated. -/
def Spec.misr (l : List (Nat × BitVec 64)) : BitVec 64 := l.foldl (fun x p => Nat.repeat (fun y => misrStep y p.2) p.1 x) (BitVec.allOnes 64)
/-- The word of a measured code (R454): 0 within its limit. -/
def Spec.word (ok : Prop) [Decidable ok] (m : Int) : BitVec 64 := if ok then 0#64 else (BitVec.ofInt 8 m).setWidth 64
/-- R453–R462: GO, ABORT, the start of a retirement's run, and the end of a run, whose words are the model's for what the command measured and
read (log 18). GO's refusals are in the order of their codes, ABORT goes before GO (DEDUCED, log 41), and the expected signature of a run with
LOGIC is the implementation's (log 5, log 18). -/
def Obligations.SelfTest : Prop :=
  ∀ (s : State) (p : Party) (c : Fin 49) (v : W), s.Wf →
    let stat := Spec.stWord c 4
    let run := (s.stS c).run
    let kind := getFld v HST_CMD_KIND
    let tests := getFld v HST_CMD_TESTS
    let index := getFld v HST_CMD_INDEX
    let reach := s.pwr.dead = false ∧ (c.val < 48 → s.domState c < 3)
    let was := { s.stS c with run := run.map fun r => { r with cut := true } }
    let cut := v.getLsbD 30
    let names := Spec.stNames c kind index tests
    let free := run = none ∧ (s.stS c).wait = []
    let bad := fun e : Nat => Gives (.stGo p c v) s fun t => t.reg stat = setFld (s.reg stat) HST_STAT_ERR e
      ∧ t.stS c = (if cut then was else s.stS c) ∧ (∀ k, k ≠ c.val → t.stS k = s.stS k)
      ∧ (cut = false → OnlyRegsOf s t fun a => a = stat) ∧ Only s t (fun a => a = stat) fun u => { u with st := [] }
    (reach →
      (¬free → bad 1) ∧ (free → ¬names → bad 2)
      ∧ (free → names → ¬Spec.stMeets s c kind index → bad 3)
      ∧ (free → names → Spec.stMeets s c kind index → s.domState (Spec.stDomain c kind index) ≠ 0 → bad 4)
      ∧ (free → names → Spec.stMeets s c kind index → s.domState (Spec.stDomain c kind index) = 0 → Gives (.stGo p c v) s fun t =>
        Spec.stStarts s t c kind index tests false []))
    ∧ (reach → v.getLsbD 31 = false → Gives (.stAbort p c v) s fun t => t.stS c = was ∧ (∀ k, k ≠ c.val → t.stS k = s.stS k)
      ∧ Only s t (fun _ => False) fun u => { u with st := [] })
    ∧ (v.getLsbD 31 = true → exec (.stAbort p c v) s = exec (.stGo p c (v ||| 0x40000000#32)) s)
    ∧ (run.isSome ∨ (s.stS c).wait = [] → Gives (.stRetirement c) s fun t => Unchanged s t)
    ∧ (∀ x l, run = none → (s.stS c).wait = x :: l → s.domState (Spec.stDomain c x.1 x.2) ≠ 0 → Gives (.stRetirement c) s fun t => Unchanged s t)
    ∧ (∀ x l, run = none → (s.stS c).wait = x :: l → s.domState (Spec.stDomain c x.1 x.2) = 0 → Gives (.stRetirement c) s fun t =>
      let all := ((List.range 4).map fun i => if ((Spec.stPatterns x.1).getD i none).isSome then 2 ^ i else 0).sum
      Spec.stStarts s t c x.1 x.2 all true l)
    ∧ (run = none → ∀ e : StEnd, Gives (.stRunDone c e) s fun t => Unchanged s t)
    ∧ ∀ e : StEnd, ∀ r, run = some r → (if c.val < 48 then r.kind < 4 else 8 ≤ r.kind ∧ r.kind < 12) →
      let all := runWords r.kind r.tests e [0, 1, 2, 3]
      let compared := runWords r.kind (r.tests % 8) e [0, 1, 2]
      let count := BitVec.ofNat 32 (all.map (·.1)).sum
      let done := count = s.reg (Spec.stWord c 12)
      let res := if r.cut then 3 else if done ∧ Spec.misr all = s.reg (Spec.stWord c 0x1C) ++ s.reg (Spec.stWord c 0x18) then 1 else 2
      let silent := fun q : Nat × BitVec 64 => q.1 = 0 ∨ q.2 = 0
      let n := c.val
      let src := if r.kind = 0 then 0x10E + 16 * n else if r.kind = 1 then 0x100 + 16 * n + r.index / 128
        else if r.kind = 2 then 0x104 + 16 * n + r.index / 128 else if r.kind = 3 then 0x10C + 16 * n else if r.kind = 8 then 0x20 + r.index / 8
        else if r.kind = 9 then 0x20 + r.index else if r.kind = 10 then 0x600 + 8 * r.index else 0x400 + 64 * r.index
      let detail := BitVec.ofNat 40 (r.kind * 2 ^ 28 + r.index)
      Gives (.stRunDone c e) s fun t => t.stS c = { s.stS c with run := none } ∧ (∀ k, k ≠ c.val → t.stS k = s.stS k)
        ∧ t.reg stat = setFld (setFld (setFld 0#32 HST_STAT_DONE (decide done).toNat) HST_STAT_RESULT res) HST_STAT_RETIRE r.retire.toNat
            &&& 0xF8FFFFFF#32 ||| (s.reg stat &&& 0x07000000#32)
        ∧ t.reg (Spec.stWord c 8) = count ∧ (t.reg (Spec.stWord c 0x14) ++ t.reg (Spec.stWord c 0x10)) = Spec.misr all
        ∧ t.reg (Spec.stWord c 12) = s.reg (Spec.stWord c 12)
        ∧ (∀ a b c' d : Int, (r.kind = 1 ∨ r.kind = 2) → r.tests = 1 → e.ref = [(1, a), (1, b), (1, c'), (1, d)] →
          all = [(1, Spec.word (a.natAbs ≤ 6) a), (1, Spec.word (100 * (b - 96).natAbs ≤ 192) b), (1, Spec.word (100 * (c' + 96).natAbs ≤ 192) c'),
            (1, if d ≤ 16 then 0#64 else BitVec.ofNat 64 d.toNat)])
        ∧ ((∀ q ∈ compared, silent q) → t.reg (Spec.stWord c 0x20) = s.reg (Spec.stWord c 0x20))
        ∧ (∀ l q m, compared = l ++ q :: m → (∀ x ∈ l, silent x) → ¬silent q →
          t.reg (Spec.stWord c 0x20) = BitVec.ofNat 32 (2 ^ 31 + (l.map (·.1)).sum % 2 ^ 31))
        ∧ (2 ≤ res → ∃ x ∈ t.col.intake, x.src = src ∧ x.isSet = true ∧ x.inj = false ∧ x.cls = if res = 2 then 2 else 0)
        ∧ ((r.kind < 4 ∧ r.kind ≠ 0 ∧ r.prior = []) ∨ r.kind = 10 → t.col = if res = 1 then s.col else
          { s.col with intake := mergeMsg ⟨src, if res = 2 then 0x60 else 0x61, if res = 2 then 2 else 0, false, detail, true, 0, false⟩ s.col.intake })
        ∧ (r.retire = true → r.kind = 0 → t.fld (ST_ENG_RES (n / 16)) ⟨2 * (n % 16) + 1, 2 * (n % 16)⟩ = res)
        ∧ (r.retire = true → r.kind = 9 → r.index < 11 → t.fld ST_DOM_LO ⟨2 * r.index + 1, 2 * r.index⟩ = res)
        ∧ (r.retire = true → r.kind = 10 → r.index < 7 → t.fld ST_DOM_HI ⟨2 * r.index + 1, 2 * r.index⟩ = res)
        ∧ (r.retire = true → r.kind = 11 → r.index < 4 → t.fld ST_DOM_HI ⟨15 + 2 * r.index, 14 + 2 * r.index⟩ = res)
        ∧ (r.retire = false → t.reg ST_DOM_LO = s.reg ST_DOM_LO ∧ t.reg ST_DOM_HI = s.reg ST_DOM_HI ∧ ∀ i ∈ List.range 3, t.reg (ST_ENG_RES i) = s.reg (ST_ENG_RES i))
        ∧ (r.kind = 0 → t.engS n = (let x := s.engS n
            { EngSt.init with
              fill := x.fill, fecErr := x.fecErr, fecBit := x.fecBit, ber := x.ber, uncSf := x.uncSf, marLo := x.marLo, marHi := x.marHi, ltt := x.ltt
              txGen := x.txGen }) ∧ (∀ a, 0x1000000 + 0x80000 * n ≤ a → a < 0x1080000 + 0x80000 * n →
            let o := a - (0x1000000 + 0x80000 * n)
            let map := (0x8020 ≤ o ∧ o < 0x8040) ∨ (0xC020 ≤ o ∧ o < 0xC040) ∨ o = 0x60000 ∨ o = 0x64000
            (map → t.reg a = s.reg a) ∧ (¬map → ¬(0x60100 ≤ o ∧ o < 0x60124) → t.reg a = rstOf a))
          ∧ (∀ x, (regionOf x = n ∨ regionOf x = n + 0x30) → t.byte x = 0#8 ∧ t.poisoned x = false) ∧ t.ecc.remap = s.ecc.remap)
        ∧ (r.kind = 10 → r.index < 7 → ∀ d : Drn, d.val / 8 = r.index → t.drnState d = 0 ∧ t.bit (HIVE_DRN_STAT d) HIVE_DRN_STAT_IDLE_VALID = false
          ∧ ∀ x, regionOf x = 0x62 + d.val → t.byte x = 0#8)
        ∧ (r.kind = 11 → r.index < 4 → ∀ l : Fin 64, t.laneState r.index l = 0 ∧ t.reg (PORT_CFG r.index l) = rstOf (PORT_CFG r.index l))
        ∧ (r.kind = 8 ∨ r.kind = 9 → ∀ i ∈ List.range 8, r.prior.length = (Spec.stUnits r.kind r.index).length → i < r.prior.length →
          (Spec.stUnits r.kind r.index).getD i 0 < 88 → Spec.unit t ((Spec.stUnits r.kind r.index).getD i 0) = r.prior.getD i 0 % 8)

/-! Supplies, temperatures and the reference (17_supplies_and_power_states.md, 20_package_and_ratings.md). -/

/-- A source's condition stands or not: a change is told once (R438). -/
def Spec.condTo (src kind cls detail : Nat) (on : Bool) (c : ColSt) : ColSt :=
  let k : Cond := ⟨src, kind, cls, condKey kind (BitVec.ofNat 40 detail), BitVec.ofNat 40 detail⟩
  let m : Msg := ⟨src, kind, cls, false, BitVec.ofNat 40 detail, on, 0, false⟩
  let same := fun x : Cond => x.is src kind cls detail
  if on = c.conds.any same then c
  else { c with conds := if on then c.conds ++ [k] else c.conds.filter fun x => !same x, intake := mergeMsg m c.intake }
/-- FEED_DOWN of the two feeds and FEED_NONE, by their classes and the active feed (R467, R468, R482). -/
def Spec.feedConds (cls : Bool → Nat) (act : Bool) (c : ColSt) : ColSt :=
  Spec.condTo 1 0x42 4 0 (decide (cls false = 2 ∧ cls true = 2)) (Spec.condTo 1 0x41 2 1 (decide (act = false ∧ cls true ≠ 0))
    (Spec.condTo 1 0x41 2 0 (decide (act = true ∧ cls false ≠ 0)) c))
/-- The classes of the feeds (R483). -/
def Spec.feeds (s : State) (b : Bool) : Nat := s.fld SUP_STAT (if b then ⟨7, 6⟩ else ⟨5, 4⟩)
/-- The supervisor's record of a feed. -/
def Spec.feedOf (x : SupSt) (b : Bool) : FeedSt := if b then x.b else x.a
/-- A feed's record after `k` samples of `mv` millivolts (R464): 10,000 in a row from 10.80 V to 13.20 V make it GOOD, 20 in a row below
10.20 V make it FAILED. -/
def Spec.sampledFeed (x : FeedSt) (k mv : Nat) : FeedSt :=
  { x with good := if 10800 ≤ mv ∧ mv ≤ 13200 then min (x.good + k) 10000 else 0, low := if mv < 10200 then min (x.low + k) 20 else 0 }
/-- The class after the samples (R464): above 14.00 V at once FAILED, and FAILED lasts until GOOD. -/
def Spec.sampledClass (x : FeedSt) (c mv : Nat) : Nat :=
  if 14000 < mv ∨ x.low = 20 then 2 else if x.good = 10000 then 0 else if c = 2 then 2 else 1
/-- The active feed after feed `b` has become GOOD (R465): the first one to do so, and of two at one time that of PREF. -/
def Spec.firstFeed (s : State) (b : Bool) (act : Bool) : Bool :=
  let o := (Spec.feedOf s.sup (!b)).since
  if (Spec.feedOf s.sup b).since.isSome = true then act
  else if o = none then b else if o = some s.time.c ∧ s.pwr.ready = false then s.bit SUP_CFG SUP_CFG_PREF else act
/-- A feed has been GOOD since the power-up. -/
def Spec.fed (x : SupSt) : Bool := x.a.since.isSome || x.b.since.isSome
/-- The switch-over that a failure of the active feed starts (R465). -/
def Spec.failOver (fed : Bool) (cls : Bool → Nat) (act : Bool) (going : Option (Bool × Nat)) : Option (Bool × Nat) :=
  if fed = true ∧ going = none ∧ cls act = 2 ∧ cls (!act) ≠ 2 then some (!act, 0) else going
/-- What supplies may change: the words of `A`, a switch-over, and the collector. -/
def Spec.supFrame (s t : State) (A : Nat → Prop) : Prop :=
  Only s t (fun a => A a ∨ a = FC_STAT) fun u => { u with sup := .init, col := .init }
/-- The sector of second copies that the steward erases as it starts where no sector is erased (DESIGN CHOICE, log 22). -/
def Spec.mended (s : State) : Option Nat := if s.vaultKept = none then s.vaultDouble else none
/-- R541: the state that a power-up leaves. Only the calibration vault and the fuses survive; the steward shows the vault's newest
record (R371). Memory that nothing has written reads 0 (DESIGN CHOICE, log 2). -/
def Spec.poweredUp (s t : State) : Prop :=
  let gone := fun x : Nat => Spec.mended s = some x
  (∀ a, a ≠ STW_VAULT_SEQ → a ≠ STW_VAULT_LAST → t.reg a = rstOf a)
    ∧ (∀ k, t.byte k = if k < vaultKey then memRst k else if gone ((k - vaultKey) / 65536) then 0xFF#8 else s.byte k)
    ∧ (t.vaultRecs = [] → t.reg STW_VAULT_SEQ = 0#32 ∧ t.reg STW_VAULT_LAST = 0#32)
    ∧ (∀ r ∈ t.vaultRecs, (∀ q ∈ t.vaultRecs, q = r ∨ q.seq < r.seq) →
      t.reg STW_VAULT_SEQ = BitVec.ofNat 32 r.seq ∧ t.reg STW_VAULT_LAST = BitVec.ofNat 32 r.off)
    ∧ (∀ x, Tab.get t.stw.erase (fun _ => 0) x = Tab.get s.stw.erase (fun _ => 0) x + if gone x then 1 else 0)
    ∧ { t with regs := [], mem := [], out := [] } = { State.reset with
        stw := { StwSt.init with revoked := s.stw.revoked, minSvn := s.stw.minSvn, erase := t.stw.erase }, fresh := s.fresh, pending := s.pending }
/-- R464–R469, R482: feeds, switch-overs and rails. R529, R534, R535: the reference and the temperatures. R541: a power-up, after which memory
reads the model's reset value (DESIGN CHOICE, log 2). How samples and failures fall together is log 55's and log 58's. -/
def Obligations.Supplies : Prop :=
  ∀ s : State, s.Wf →
    let cls := Spec.feeds s
    let act := s.bit SUP_STAT SUP_STAT_ACTIVE
    let sup := fun a => a = SUP_STAT
    let go := fun (c : Instr) (b : Bool) (cause : Nat) => Gives c s fun t => t.sup = { s.sup with going := some (b, cause) }
      ∧ Spec.supFrame s t (fun _ => False) ∧ t.col = s.col
    (∀ b : Bool, Gives (.feedClassChange b []) s fun t => Unchanged s t)
    ∧ (∀ (b : Bool) (v : Nat × Nat) l, ∃ u, exec (.feedClassChange b [v]) s = .next u
      ∧ exec (.feedClassChange b (v :: l)) s = exec (.feedClassChange b l) u)
    ∧ (∀ (b : Bool) (mv : Nat), Gives (.feedClassChange b [(0, mv)]) s fun t => Unchanged s t)
    ∧ (∀ (b : Bool) (k mv : Nat), k ≠ 0 → Gives (.feedClassChange b [(k, mv)]) s fun t =>
      let x := Spec.sampledFeed (Spec.feedOf s.sup b) k mv
      let c := Spec.sampledClass x (cls b) mv
      let cl := fun z => if z = b then c else cls z
      let act' := if c = 0 then Spec.firstFeed s b act else act
      Spec.feedOf t.sup b = (if c = 0 ∧ (cls b ≠ 0 ∨ x.since = none) then { x with since := some s.time.c } else x)
        ∧ Spec.feedOf t.sup (!b) = Spec.feedOf s.sup (!b)
        ∧ t.fld (SUP_VIN b.toNat) SUP_VIN_VOLTAGE = mv / 10 % 65536
        ∧ Spec.supFrame s t (fun a => a = SUP_STAT ∨ a = SUP_VIN b.toNat)
        ∧ (c ≠ 0 → c = cls b → t.reg SUP_STAT = s.reg SUP_STAT ∧ t.sup.going = s.sup.going ∧ t.col = s.col)
        ∧ (c = 0 ∨ c ≠ cls b →
          t.reg SUP_STAT = setFld (setFld (s.reg SUP_STAT) (if b then ⟨7, 6⟩ else ⟨5, 4⟩) c) SUP_STAT_ACTIVE act'.toNat
          ∧ t.sup.going = Spec.failOver (Spec.fed t.sup) cl act' s.sup.going ∧ t.col = Spec.feedConds cl act' s.col))
    ∧ (s.sup.going = none → Gives .switchoverComplete s fun t => Unchanged s t)
    ∧ (∀ b cause, s.sup.going = some (b, cause) → Gives .switchoverComplete s fun t =>
      let msg : Msg := ⟨1, 0x40, 0, false, BitVec.ofNat 40 (b.toNat + 2 * cause), true, 0, false⟩
      t.bit SUP_STAT SUP_STAT_SWITCHED = true ∧ t.bit SUP_STAT SUP_STAT_SWITCH_REFUSED = s.bit SUP_STAT SUP_STAT_SWITCH_REFUSED
        ∧ Spec.feeds t = cls ∧ t.bit SUP_STAT SUP_STAT_ACTIVE = b
        ∧ (t.reg SUP_SWITCH_CNT).toNat = min ((s.reg SUP_SWITCH_CNT).toNat + 1) 0xFFFFFFFF
        ∧ t.reg SUP_LAST_TS_LO = BitVec.ofNat 32 s.stamp ∧ t.reg SUP_LAST_TS_HI = BitVec.ofNat 32 (s.stamp / 2 ^ 32)
        ∧ t.sup.going = Spec.failOver (Spec.fed s.sup) cls b none ∧ Spec.feedOf t.sup b = Spec.feedOf s.sup b
        ∧ Spec.feedOf t.sup (!b) = { Spec.feedOf s.sup (!b) with away := s.time.c }
        ∧ t.col = Spec.feedConds cls b { s.col with intake := mergeMsg msg s.col.intake }
        ∧ Spec.supFrame s t fun a => a = SUP_STAT ∨ a = SUP_SWITCH_CNT ∨ a = SUP_LAST_TS_LO ∨ a = SUP_LAST_TS_HI)
    ∧ (let b := s.bit SUP_CFG SUP_CFG_PREF
      let due := s.bit SUP_CFG SUP_CFG_AUTO_REVERT = true ∧ b ≠ act ∧ cls b = 0 ∧ s.sup.going = none
        ∧ (Spec.feedOf s.sup b).since.elim False fun t0 => max t0 (Spec.feedOf s.sup b).away + 125000000 ≤ s.time.c
      (due → go .feedRevert b 1) ∧ (¬due → Gives .feedRevert s fun t => Unchanged s t))
    ∧ (∀ p : Party, s.pwr.dead = false →
      (s.sup.going = none ∧ cls (!act) = 0 → go (.switch p) (!act) 2)
      ∧ (¬(s.sup.going = none ∧ cls (!act) = 0) → Gives (.switch p) s fun t => t.reg SUP_STAT = setFld (s.reg SUP_STAT) SUP_STAT_SWITCH_REFUSED 1
        ∧ OnlyRegsOf s t sup))
    ∧ (∀ (r : Fin 36) (hard : Bool), Gives (.railExcursion r hard) s fun t =>
      t.col = (if hard then Spec.condTo 1 0x45 4 r true else id) (Spec.condTo 1 0x44 0 r true s.col) ∧ Spec.supFrame s t (fun _ => False) ∧ t.sup = s.sup)
    ∧ (∀ r : Fin 36, Gives (.railRecover r) s fun t => t.col = Spec.condTo 1 0x45 4 r false (Spec.condTo 1 0x44 0 r false s.col)
      ∧ Spec.supFrame s t (fun _ => False) ∧ t.sup = s.sup)
    ∧ (∀ missing : Bool,
      (s.pwr.ready = true → s.pwr.dead = false → Gives (.refLoss missing) s fun t =>
        t.reg REF_STAT = setFld (setFld (s.reg REF_STAT) REF_STAT_LOST 1) REF_STAT_WAS_LOST 1
        ∧ t.col = Spec.condTo 1 0x7A 4 missing.toNat true s.col ∧ Spec.supFrame s t (fun a => a = REF_STAT) ∧ t.sup = s.sup)
      ∧ (¬(s.pwr.ready = true ∧ s.pwr.dead = false) → Gives (.refLoss missing) s fun t => Unchanged s t))
    ∧ (Gives .refRecover s fun t => t.reg REF_STAT = setFld (s.reg REF_STAT) REF_STAT_LOST 0 ∧ t.col = Spec.condTo 1 0x7A 4 0 false s.col
      ∧ Spec.supFrame s t (fun a => a = REF_STAT) ∧ t.sup = s.sup)
    ∧ (∀ (l : List (BitVec 16)) (h : Fin 9),
      let temp := fun d : Fin 9 => (l.getD d 0#16).toInt
      let warn : Int := (s.fld THERM_CFG THERM_CFG_WARN : Nat)
      let info := h.val + 256 * (temp h / 16 % 256).toNat
      let cond := fun (kind cls : Nat) (thr : Int) (c : ColSt) => if ∃ d, 16 * thr ≤ temp d then Spec.condTo 1 kind cls info true c
        else if ∀ d, temp d ≤ 16 * (thr - 5) then Spec.condTo 1 kind cls 0 false c else c
      (∀ d, temp d ≤ temp h) → (∀ d, d < h → temp d < temp h) → Gives (.thermSample l) s fun t =>
        (∀ d : Fin 9, t.reg (THERM_TEMP d) = 0x80000000#32 + (l.getD d 0#16).setWidth 32)
        ∧ t.col = cond 0x79 4 110 (cond 0x78 0 warn s.col) ∧ Spec.supFrame s t (fun a => ∃ d : Fin 9, a = THERM_TEMP d) ∧ t.sup = s.sup)
    ∧ (let began := s.pwr.dead = false ∧ (s.sup.a.since.isSome = true ∨ s.sup.b.since.isSome = true)
      (began → Gives .aonReady s fun t => t = { s.quiet with pwr := { s.pwr with ready := true } })
      ∧ (s.pwr.dead = false → ¬began → Gives .aonReady s fun t => Unchanged s t))
    ∧ (Gives .powerUp s fun t => Spec.poweredUp s t)
    ∧ (s.pwr.dead = true → ¬(cls false = 2 ∧ cls true = 2) → Gives .wakeNLow s fun t => Spec.poweredUp s t)
    ∧ (s.pwr.dead = true → cls false = 2 → cls true = 2 → Gives .wakeNLow s fun t => Unchanged s t)
    ∧ (s.pwr.dead = true ∨ cls false ≠ 2 ∨ cls true ≠ 2 → Gives .supplyShutdown s fun t => Unchanged s t)
    ∧ (s.pwr.dead = false → cls false = 2 → cls true = 2 → Gives .supplyShutdown s fun t => t.pwr = { PwrSt.init with dead := true }
      ∧ t.reg SUP_STAT = setFld (setFld 0#32 ⟨7, 6⟩ 2) ⟨5, 4⟩ 2
      ∧ (∀ a, a ≠ STW_VAULT_SEQ → a ≠ STW_VAULT_LAST → a ≠ SUP_STAT → t.reg a = rstOf a)
      ∧ (∀ k, k < vaultKey → t.byte k = memRst k) ∧ (s.stw.op ≠ some 3 → ∀ k, vaultKey ≤ k →
        t.byte k = if Spec.mended s = some ((k - vaultKey) / 65536) then 0xFF#8 else s.byte k))

/-! Power domains (17_supplies_and_power_states.md). -/

/-- The domain codes, in entry order (R470, R473). -/
abbrev Spec.isDomain (d : Nat) : Prop := d < 63 ∨ (64 ≤ d ∧ d < 71)
/-- The reason code of a domain that may not move (R472). -/
def Spec.reason (s : State) (d : Nat) : Nat := if s.domState d = 5 then 5 else if d < 48 then 1 else if d < 52 then 3 else if d < 63 then 4 else 2
/-- A domain may move deeper, to a target state (R472). -/
def Spec.mayEnter (s : State) (d target : Nat) : Prop :=
  (s.domState d = 5 → target = 4)
    ∧ (s.domState d ≠ 5 → (d < 48 → Spec.engineIdle s d)
      ∧ (48 ≤ d → d < 52 → (∀ l ∈ List.range 64, s.lanePower (d - 48) l ≠ 0)
        ∧ (3 ≤ target → ∀ q ∈ List.range 64, s.bit (PORT_CFG (d - 48) q) PORT_CFG_EN = false))
      ∧ (52 ≤ d → d < 63 → ∀ i ∈ List.range 8, Spec.unit s (8 * (d - 52) + i) = 0 ∨ Spec.unit s (8 * (d - 52) + i) = 3)
      ∧ (64 ≤ d → ∀ i ∈ List.range 8, s.fld (HIVE_DRN_STAT (8 * (d - 64) + i)) HIVE_DRN_STAT_STATE ∉ [1, 2]))
/-- The wake steps from a state to a shallower one (R476): 0 regulator, 1 oscillator and PLL, 2 memory, 3 logic. -/
def Spec.wakeSteps (old target : Nat) : List Nat :=
  [0, 1, 2, 3].filter fun x => decide ((x = 0 ∧ 3 ≤ old) ∨ (x = 1 ∧ 2 ≤ old ∧ target ≤ 1) ∨ (x = 2 ∧ 3 ≤ old) ∨ (x = 3 ∧ target = 0))
/-- A domain starts to wake to a target, `k` times 10 µs from now. -/
def Spec.wakes (s t : State) (d target k : Nat) : Prop :=
  let l := Spec.wakeSteps (s.domState d) target
  t.wakeOf d = (l, target) ∧ Tab.get t.pwr.stepT (fun _ => 0) d = (if l = [] then 0 else s.time.c + 12500 * k)
    ∧ t.reg (PWR_DOM d) = setFld (setFld (s.reg (PWR_DOM d)) PWR_DOM_READY 0) PWR_DOM_STEP (l.headD 0)
/-- What power commands may change beside power itself: the words of `A`. -/
def Spec.pwrFrame (s t : State) (A : Nat → Prop) : Prop :=
  Only s t (fun a => a = PWR_CMD_STAT ∨ a = FC_STAT ∨ A a) fun u => { u with pwr := .init, col := .init }
/-- A wake of domains, in entry order, runs as one command, started by the device itself or not: they begin 10 µs apart, in the reverse of
that order (R476). -/
def Spec.wakeRuns (s t : State) (ds : List Nat) (target : Nat) (own : Bool) : Prop :=
  t.pwr.cmd = some ⟨false, target, [], [], none, none, own, false⟩ ∧ t.bit PWR_CMD_STAT PWR_CMD_STAT_BUSY = true
    ∧ (∀ d ∈ ds, Spec.wakes s t d target (ds.filter (d < ·)).length) ∧ (∀ d ∈ List.range 71, d ∉ ds → t.wakeOf d = s.wakeOf d) ∧ t.col = s.col
    ∧ t.pwr.wake = s.pwr.wake ∧ t.pwr.ready = s.pwr.ready ∧ t.pwr.poolW = s.pwr.poolW ∧ t.pwr.dead = s.pwr.dead
    ∧ Spec.pwrFrame s t fun a => ∃ d ∈ ds, a = PWR_DOM d
/-- The collector after a command that was rolled back ends: PWR_ABORT (R474, R482). -/
def Spec.abortTold (c : PwrCmd) (x : ColSt) : ColSt :=
  c.abort.elim x fun e => { x with intake := mergeMsg ⟨1, 0x49, 0, false, BitVec.ofNat 40 (e.1 + 256 * e.2), true, 0, false⟩ x.intake }
/-- The command ends (R474, R481): an entry that was rolled back shows ABORTED; after ALL to Off, the device is off. While the steward
or the pool waits for a wake, that wake starts and BUSY stays 1 (R476). -/
def Spec.commandEnds (s t : State) (c : PwrCmd) : Prop :=
  let err := t.fld PWR_CMD_STAT PWR_CMD_STAT_ERR
  (s.stw.waiting = false ∧ s.pwr.poolW = none → t.pwr.cmd = none ∧ t.pwr.wake = false ∧ t.bit PWR_CMD_STAT PWR_CMD_STAT_BUSY = false)
    ∧ (c.abort = none → err = s.fld PWR_CMD_STAT PWR_CMD_STAT_ERR ∧ t.fld PWR_CMD_STAT PWR_CMD_STAT_REASON = s.fld PWR_CMD_STAT PWR_CMD_STAT_REASON
      ∧ t.fld PWR_CMD_STAT PWR_CMD_STAT_REF_DOM = s.fld PWR_CMD_STAT PWR_CMD_STAT_REF_DOM ∧ t.reg PWR_ABORT_CNT = s.reg PWR_ABORT_CNT)
    ∧ (∀ d r, c.abort = some (d, r) → err = 4 ∧ (r < 16 → t.fld PWR_CMD_STAT PWR_CMD_STAT_REASON = r)
      ∧ (d < 256 → t.fld PWR_CMD_STAT PWR_CMD_STAT_REF_DOM = d)
      ∧ (t.reg PWR_ABORT_CNT).toNat = min ((s.reg PWR_ABORT_CNT).toNat + 1) 0xFFFFFFFF)
    ∧ (t.pwr.dead = true ↔ s.pwr.dead = true ∨ (c.abort = none ∧ c.all = true))
    ∧ (c.abort = none → c.all = true → Spec.linkDown s t)
/-- REFUSALS of a domain counts one more, up to 255. -/
def Spec.refused (s t : State) (d : Nat) : Prop :=
  t.fld (PWR_DOM d) PWR_DOM_REFUSALS = min (s.fld (PWR_DOM d) PWR_DOM_REFUSALS + 1) 255
/-- A domain is held: its pads stay latched, READY is 0 and STATE reads HELD (R478). -/
def Spec.isHeld (s t : State) (d : Nat) (lost : Bool) : Prop :=
  t.reg (PWR_DOM d) = setFld (setFld (setFld (setFld (setFld (s.reg (PWR_DOM d)) PWR_DOM_STATE 5) PWR_DOM_READY 0) PWR_DOM_PAD_HOLD 1) PWR_DOM_STEP 0)
    PWR_DOM_RET_LOST (s.bit (PWR_DOM d) PWR_DOM_RET_LOST || lost).toNat ∧ t.wakeOf d = ([], 0)
/-- What the lanes of a harness domain show at their pads is put out where it changes (R287, R479). -/
def Spec.padsShown (s t : State) (d : Nat) : Prop := ∀ (h : Harn) (l : Fin 64), d = 48 + h.val → Spec.shown s t h l
/-- Nothing else of the command is left to do but domain `d`'s wake. -/
def Spec.lastOf (s : State) (c : PwrCmd) (d : Nat) : Prop := c.todo = [] ∧ c.turn = none ∧ ∀ x ∈ s.pwr.steps, x.1 = d
/-- A domain starts cold: memories 0, registers at reset, drones UNLOADED, remaps undone (R437, R476). -/
def Spec.startsCold (s t : State) (d : Nat) : Prop :=
  (d < 48 → t.engS d = (let x := s.engS d
        { EngSt.init with
          fill := x.fill, fecErr := x.fecErr, fecBit := x.fecBit, ber := x.ber, uncSf := x.uncSf, marLo := x.marLo, marHi := x.marHi, ltt := x.ltt
          txGen := x.txGen })
      ∧ (∀ p : Party, ∀ a, 0x1000000 + 0x80000 * d ≤ a → a < 0x1080000 + 0x80000 * d → t.latched p a = 0#32) ∧ (∀ a, 0x1000000 + 0x80000 * d ≤ a → a < 0x1080000 + 0x80000 * d → t.reg a = rstOf a)
      ∧ (∀ x, (regionOf x = d ∨ regionOf x = d + 0x30) → t.byte x = 0#8 ∧ t.poisoned x = false) ∧ (∀ x ∈ t.ecc.remap, x.1 ≠ d ∧ x.1 ≠ d + 0x30))
    ∧ (48 ≤ d → d < 52 → ∀ a, 0x3000000 + 0x100000 * (d - 48) ≤ a → a < 0x3100000 + 0x100000 * (d - 48) → t.reg a = rstOf a)
    ∧ (64 ≤ d → d < 71 → ∀ x : Drn, x.val / 8 = d - 64 → t.drnS x = .init ∧ t.fld (HIVE_DRN_STAT x) HIVE_DRN_STAT_STATE = 0
      ∧ (∀ k, regionOf k = 0x62 + x.val → t.byte k = 0#8) ∧ ∀ e ∈ t.ecc.remap, e.1 ≠ 0x62 + x.val)
    ∧ (∀ k, d ≠ regionOf k → d + 0x30 ≠ regionOf k → (regionOf k < 0x62 ∨ (regionOf k - 0x62) / 8 + 64 ≠ d) → t.byte k = s.byte k)
    ∧ (∀ n, n ≠ d → t.engS n = s.engS n) ∧ (∀ x, x / 8 + 64 ≠ d → t.drnS x = s.drnS x) ∧ (∀ l, l / 64 + 48 ≠ d → t.laneS l = s.laneS l)
/-- No word of a domain's memories has an injected error or is poisoned. -/
def Spec.bankClean (s : State) (d : Nat) : Prop :=
  ∀ k, ((∃ i ∈ s.ecc.inj, i.word = k) ∨ k ∈ s.poison) → regionOf k ∉ domRegions d
/-- R471–R475, R477: PWR_CMD, an entry's turns and its refusal, and the check words of an entry to Deep sleep, over banks laid out as log 72 says.
Where several domains refuse, the first in entry order is shown (DEDUCED, log 10); an entry begins when its retirement test ends (log 46). -/
def Obligations.PowerEntry : Prop :=
  ∀ (s : State) (p : Party) (v : W), s.Wf →
    let target := getFld v PWR_CMD_TARGET
    let all := v.getLsbD 30
    let named := fun d => d < 96 ∧ (if all then Spec.isDomain d else (s.reg (PWR_SEL (d / 32))).getLsbD (d % 32) = true)
    let moves := fun d => named d ∧ s.domState d ≠ target
    let deeper := fun d => moves d ∧ s.domState d < target
    let upward := fun d => moves d ∧ s.domState d ≠ 5 ∧ target < s.domState d
    let some' := fun P : Nat → Prop => ∃ d ∈ List.range 96, P d
    let bad := 5 ≤ target ∨ some' (fun d => named d ∧ ¬Spec.isDomain d) ∨ (some' deeper ∧ some' upward)
    let entry := some' deeper ∨ (target = 4 ∧ ¬some' upward)
    let fails := fun d => moves d ∧ if entry then ¬Spec.mayEnter s d target else s.domState d = 5
    let stat := fun e r d => setFld (setFld (setFld (s.reg PWR_CMD_STAT) PWR_CMD_STAT_ERR e) PWR_CMD_STAT_REASON r) PWR_CMD_STAT_REF_DOM d
    (s.pwr.dead = false →
      (s.pwr.cmd.isSome → Gives (.pwrCmdGo p v) s fun t => t.reg PWR_CMD_STAT = setFld (s.reg PWR_CMD_STAT) PWR_CMD_STAT_ERR 1
        ∧ OnlyRegsOf s t fun a => a = PWR_CMD_STAT)
      ∧ (s.pwr.cmd = none → bad → Gives (.pwrCmdGo p v) s fun t => t.reg PWR_CMD_STAT = setFld (s.reg PWR_CMD_STAT) PWR_CMD_STAT_ERR 2
        ∧ OnlyRegsOf s t fun a => a = PWR_CMD_STAT)
      ∧ (s.pwr.cmd = none → ¬bad → ∀ d ∈ List.range 71, fails d → (∀ e ∈ List.range d, ¬fails e) → Gives (.pwrCmdGo p v) s fun t =>
        t.reg PWR_CMD_STAT = stat 3 (Spec.reason s d) d ∧ (t.reg PWR_REFUSE_CNT).toNat = min ((s.reg PWR_REFUSE_CNT).toNat + 1) 0xFFFFFFFF
        ∧ Spec.refused s t d ∧ t.domState d = s.domState d ∧ OnlyRegsOf s t fun a => a = PWR_CMD_STAT ∨ a = PWR_REFUSE_CNT ∨ a = PWR_DOM d)
      ∧ (s.pwr.cmd = none → ¬bad → ¬some' fails → some' moves → entry → Gives (.pwrCmdGo p v) s fun t =>
        t.reg PWR_CMD_STAT = setFld (stat 0 0 0) PWR_CMD_STAT_BUSY 1
        ∧ t.pwr = { s.pwr with wake := false, cmd := some ⟨true, target, (List.range 96).filter (fun d => decide (moves d)), [], none, none, false, all && target == 4⟩ }
        ∧ (∀ d ∈ List.range 48, t.stS d = if moves d then { s.stS d with run := (s.stS d).run.map fun r => { r with cut := true } } else s.stS d)
        ∧ (let cut := (s.stS 48).run.elim False fun r => moves (Spec.stDomain 48 r.kind r.index)
          (cut → t.stS 48 = { s.stS 48 with run := (s.stS 48).run.map fun r => { r with cut := true } }) ∧ (¬cut → t.stS 48 = s.stS 48))
        ∧ OnlyRegsOf { s with st := [], pwr := .init } { t with st := [], pwr := .init } fun a => a = PWR_CMD_STAT)
      ∧ (s.pwr.cmd = none → ¬bad → ¬some' fails → some' moves → ¬entry → Gives (.pwrCmdGo p v) s fun t =>
        t.reg PWR_CMD_STAT = setFld (stat 0 0 0) PWR_CMD_STAT_BUSY 1 ∧ Spec.wakeRuns s t ((List.range 71).filter fun d => decide (moves d)) target false)
      ∧ (s.pwr.cmd = none → ¬bad → ¬some' moves → s.pwr.steps = [] → s.stw.waiting = false → s.pwr.poolW = none → ¬(all = true ∧ target = 4) → Gives (.pwrCmdGo p v) s fun t =>
        t.reg PWR_CMD_STAT = setFld (stat 0 0 0) PWR_CMD_STAT_BUSY 0 ∧ t.pwr.cmd = none ∧ Spec.pwrFrame s t (fun _ => False) ∧ t.col = s.col)
      ∧ (s.pwr.cmd = none → ¬bad → ¬some' moves → s.pwr.steps = [] → s.stw.waiting = false → s.pwr.poolW = none → all = true → target = 4 → Gives (.pwrCmdGo p v) s fun t =>
        t.reg PWR_CMD_STAT = setFld (stat 0 0 0) PWR_CMD_STAT_BUSY 0 ∧ t.pwr.cmd = none ∧ t.pwr.dead = true ∧ Spec.linkDown s t ∧ t.col = s.col))
    ∧ (∀ c, s.pwr.cmd = some c →
      let kept := { s.pwr with cmd := none, steps := [], stepT := [], wake := false }
      let idle := s.stw.waiting = false ∧ s.pwr.poolW = none
      let aborts := fun d r => Gives .entryTurn s fun t =>
        let c' := { c with todo := [], turn := none, abort := some (d, r) }
        (s.pwr.steps = [] → c.moved = [] → Spec.commandEnds s t c' ∧ (d < 71 → Spec.refused s t d) ∧ (idle → t.col = Spec.abortTold c' s.col))
        ∧ (c.moved ≠ [] → (∀ x ∈ c.moved, s.domState x.1 = c.target ∧ x.2 < c.target) → (c.moved.map Prod.fst).Nodup → c.target < 5 → t.pwr.cmd = some c' ∧ t.col = s.col
          ∧ { t.pwr with cmd := none, steps := [], stepT := [] } = kept
          ∧ (∀ i x, c.moved[i]? = some x → Spec.wakes s t x.1 x.2 i) ∧ Spec.pwrFrame s t fun a => ∃ x ∈ c.moved, a = PWR_DOM x.1)
      (¬(c.entry = true ∧ c.turn = none ∧ c.abort = none) ∨ c.todo = [] → Gives .entryTurn s fun t => Unchanged s t)
      ∧ (∀ d l, c.todo = d :: l → c.entry = true → c.turn = none → c.abort = none → Spec.isDomain d →
        (s.pwr.wake = true → aborts 255 6)
        ∧ (s.pwr.wake = false → s.domTest d = true → Gives .entryTurn s fun t => Unchanged s t)
        ∧ (s.pwr.wake = false → s.domTest d = false → ¬Spec.mayEnter s d c.target → aborts d (Spec.reason s d))
        ∧ (s.pwr.wake = false → s.domTest d = false → Spec.mayEnter s d c.target → Gives .entryTurn s fun t =>
          let ctl := if d < 48 then d else 48
          let tgt := if d < 48 then (0, 0) else if d < 52 then (11, d - 48) else if d < 63 then (9, d - 52) else (10, d - 64)
          let test := c.target = 4 ∧ (s.reg ST_CFG).getLsbD tgt.1 = true ∧ s.domState d = 0
            ∧ (64 ≤ d → ∀ i ∈ List.range 8, s.fld (HIVE_DRN_STAT (8 * (d - 64) + i)) HIVE_DRN_STAT_STATE ∈ [0, 3, 4])
          t.reg (PWR_DOM d) = setFld (setFld (s.reg (PWR_DOM d)) PWR_DOM_READY 0) PWR_DOM_PAD_HOLD
              (if 2 ≤ c.target ∧ ¬test then 1 else s.fld (PWR_DOM d) PWR_DOM_PAD_HOLD)
            ∧ t.pwr = { s.pwr with cmd := some { c with todo := l, turn := some d } } ∧ t.col = s.col
            ∧ t.stS ctl = (if test then { s.stS ctl with wait := (s.stS ctl).wait ++ [tgt] } else s.stS ctl) ∧ (∀ k, k ≠ ctl → t.stS k = s.stS k) ∧ Spec.padsShown s t d
            ∧ Only s t (fun a => a = PWR_DOM d ∨ (ST_DOM_LO ≤ a ∧ a ≤ ST_ENG_RES 2)) fun u => { u with pwr := .init, st := [] }))
      ∧ (c.turn = none → Gives .entryDone s fun t => Unchanged s t)
      ∧ (∀ d, c.turn = some d → Spec.isDomain d →
        let lost := c.target = 4
        let pwr := { s.pwr with chk := if c.target = 3 then Tab.set s.pwr.chk (fun _ => []) d (s.bankCrcs d) else s.pwr.chk }
        let gone := fun a => lost ∧ ∃ i ∈ List.range 8, 64 ≤ d ∧ a = HIVE_DRN_STAT (8 * (d - 64) + i)
        (s.domTest d = true → Gives .entryDone s fun t => Unchanged s t)
        ∧ (s.domTest d = false → c.target < 5 → c.todo ≠ [] → Gives .entryDone s fun t => t.domState d = c.target
          ∧ t.pwr.cmd = some { c with turn := none, moved := (d, s.domState d) :: c.moved })
        ∧ (s.domTest d = false → c.target < 5 → (c.target = 3 → Spec.bankClean s d) → Gives .entryDone s fun t =>
          let c' := { c with turn := none, moved := (d, s.domState d) :: c.moved }
          let entered := t.reg (PWR_DOM d) = setFld (setFld (s.reg (PWR_DOM d)) PWR_DOM_STATE c.target) PWR_DOM_RET_LOST
              (if lost then 0 else s.fld (PWR_DOM d) PWR_DOM_RET_LOST)
          Spec.padsShown s t d ∧ (∀ a, gone a → t.reg a = 0#32)
            ∧ (c.todo ≠ [] ∨ s.pwr.steps ≠ [] → entered ∧ t.pwr = { pwr with cmd := some c' } ∧ t.col = (if lost then Spec.condTo 1 0x48 2 d false s.col else s.col)
              ∧ Spec.pwrFrame s t fun a => gone a ∨ a = PWR_DOM d)
            ∧ (c.todo = [] → s.pwr.steps = [] → idle → Spec.commandEnds s t c' ∧ ((c.abort.elim True fun x => x.1 ≠ d) → entered)
              ∧ t.col = Spec.abortTold c' (if lost then Spec.condTo 1 0x48 2 d false s.col else s.col)
              ∧ t.pwr.chk = pwr.chk ∧ Spec.pwrFrame s t fun a => gone a ∨ a = PWR_DOM d ∨ a = PWR_ABORT_CNT ∨ a = PCIE_STAT ∨ c.abort.elim False fun x => a = PWR_DOM x.1))))
    ∧ (s.pwr.cmd = none → Gives .entryTurn s (Unchanged s) ∧ Gives .entryDone s (Unchanged s))
/-- What a wake step may change beside the words of `A`. -/
def Spec.wakeFrame (s t : State) (A : Nat → Prop) : Prop :=
  Spec.pwrFrame s t fun a => A a ∨ (PWR_DOM 0 ≤ a ∧ a ≤ PWR_DOM 70) ∨ a = PWR_ABORT_CNT ∨ a = PCIE_STAT
/-- The state in which a wake step of domain `d` is ready: the memory step of a wake from Deep sleep has read the domain's banks, with what
their bits suffered (R477; DESIGN CHOICE, log 72). -/
def Spec.banksRead (s : State) (d : Nat) (ms : List Upset) (rs : List (W × W)) : State :=
  if (s.wakeOf d).1.head? = some 2 ∧ s.domState d = 3 then (Op.thn (Op.bankUpset d ms rs) (Op.bankRead d)).run s.quiet else s.quiet
/-- R476–R481: the steps of a wake, domains that are held, WAKE_N, and the release of pads. Bank layout and what retention does to bits are log
72's, STATE during a wake log 46's, and what held pads show log 68's (all the model's). -/
def Obligations.PowerWake : Prop :=
  ∀ (s : State) (p : Party) (v : W) (d : Fin 71), s.Wf → Spec.isDomain d →
    let st := s.domState d
    let ends := fun (t : State) (f : ColSt → ColSt) => ∀ c, s.pwr.cmd = some c →
      (Spec.lastOf s c d → (c.abort.elim True fun x => x.1 ≠ d.val) → s.stw.waiting = false → s.pwr.poolW = none → Spec.commandEnds s t c ∧ t.col = Spec.abortTold c (f s.col))
      ∧ (¬Spec.lastOf s c d → t.pwr.cmd = some c ∧ t.reg PWR_CMD_STAT = s.reg PWR_CMD_STAT ∧ t.reg PWR_ABORT_CNT = s.reg PWR_ABORT_CNT ∧ t.pwr.dead = s.pwr.dead)
    let others := fun t : State => t.pwr.ready = s.pwr.ready ∧ ∀ e : Fin 71, e ≠ d → t.wakeOf e = s.wakeOf e
      ∧ (s.stw.waiting = false ∧ s.pwr.poolW = none → t.domState e = s.domState e ∧ t.bit (PWR_DOM e) PWR_DOM_READY = s.bit (PWR_DOM e) PWR_DOM_READY)
    ((s.wakeOf d).1 = [] → (∀ ms rs, Gives (.wakeStepReady d ms rs) s fun t => Unchanged s t) ∧ Gives (.wakeTimeout d) s fun t => Unchanged s t)
    ∧ (∀ x l, (s.wakeOf d).1 = x :: l →
      let target := (s.wakeOf d).2
      let idle := s.stw.waiting = false ∧ s.pwr.poolW = none
      let limit := 4 * 1250 * (if x = 0 then 50 else if x = 1 then 200 else if x = 2 then 100 else if x = 3 then 10 else 0)
      let late := limit < s.time.c - Tab.get s.pwr.stepT (fun _ => 0) d
      (¬late → Gives (.wakeTimeout d) s fun t => Unchanged s t)
      ∧ (late → idle → Gives (.wakeTimeout d) s fun t =>
        let told := fun c : ColSt => { c with intake := mergeMsg ⟨1, 0x4A, 2, false, BitVec.ofNat 40 (d.val + 256 * x), true, 0, false⟩ c.intake }
        ((s.pwr.cmd.elim True fun c => c.abort.elim True fun y => y.1 ≠ d.val) → Spec.isHeld s t d false) ∧ ends t told ∧ others t ∧ Spec.wakeFrame s t (fun _ => False))
      ∧ ∀ ms rs,
      let u := Spec.banksRead s d ms rs
      let good := u.bankCrcs d = s.chkOf d
      (ms = [] → rs = [] → Spec.bankClean s d → u = s.quiet)
      ∧ (x = 2 → st = 3 → ¬good → idle → Gives (.wakeStepReady d ms rs) s fun t =>
        ((s.pwr.cmd.elim True fun c => c.abort.elim True fun y => y.1 ≠ d.val) → Spec.isHeld s t d true)
        ∧ ends t (fun _ => Spec.condTo 1 0x48 2 d true u.col) ∧ others t ∧ Spec.wakeFrame u t (fun _ => False))
      ∧ ((x = 2 → st = 3 → good) → target < 5 → idle → Gives (.wakeStepReady d ms rs) s fun t =>
        (l ≠ [] → t.wakeOf d = (l, target) ∧ Tab.get t.pwr.stepT (fun _ => 0) d = s.time.c ∧ t.reg (PWR_DOM d) = setFld (s.reg (PWR_DOM d)) PWR_DOM_STEP (l.headD 0)
          ∧ t.pwr.cmd = s.pwr.cmd ∧ t.reg PWR_CMD_STAT = s.reg PWR_CMD_STAT)
        ∧ (l = [] → (¬(x = 2 ∧ st = 4) → Spec.padsShown u t d) ∧ t.wakeOf d = ([], 0) ∧ t.domState d = target ∧ t.bit (PWR_DOM d) PWR_DOM_READY = decide (target ≤ 2)
          ∧ t.fld (PWR_DOM d) PWR_DOM_STEP = 0 ∧ t.bit (PWR_DOM d) PWR_DOM_PAD_HOLD = s.bit (PWR_DOM d) PWR_DOM_PAD_HOLD
          ∧ (¬(x = 2 ∧ st = 4) → ends t fun _ => u.col) ∧ (target = 3 → x = 2 → st = 4 → t.chkOf d = t.bankCrcs d)
          ∧ (target = 0 → (d.val < 48 → t.reg (FG_POS d) = 0#32 ∧ t.reg (FG_POS (0x30 + d)) = 0#32)
            ∧ ∀ z : Drn, z.val / 8 + 64 = d.val → t.reg (FG_POS (0x62 + z)) = 0#32
              ∧ (¬(x = 2 ∧ st = 4) → t.drnS z = { u.drnS z with cycle := 0#64, pause := (u.drnS z).pause.map (· - (u.drnS z).cycle) })
              ∧ (x = 2 → st = 4 → t.drnS z = .init)))
        ∧ others t
        ∧ (x = 2 → st = 4 → (l ≠ [] ∨ target ≠ 0) → Spec.startsCold s t d)
        ∧ (x = 2 → st ≠ 4 → d.val < 48 → t.reg (MON_STAT d) = setFld (u.reg (MON_STAT d)) MON_STAT_RUN 0)
        ∧ (¬(x = 2 ∧ st = 4) → (l ≠ [] ∨ target ≠ 0) → Spec.wakeFrame u t fun a => x = 2 ∧ d.val < 48 ∧ a = MON_STAT d)
        ∧ (¬(x = 2 ∧ st = 4) → l = [] → target = 0 →
          Only u t (fun a => a = PWR_CMD_STAT ∨ a = FC_STAT ∨ (PWR_DOM 0 ≤ a ∧ a ≤ PWR_DOM 70) ∨ a = PWR_ABORT_CNT ∨ a = PCIE_STAT
              ∨ (x = 2 ∧ d.val < 48 ∧ a = MON_STAT d) ∨ ∃ r ∈ domRegions d, a = FG_POS r)
            (fun z => { z with pwr := .init, col := .init, ecc := { z.ecc with pass := [] }, drn := [] })
          ∧ ∀ z : Drn, z.val / 8 + 64 ≠ d.val → t.drnS z = u.drnS z)))
    ∧ (s.pwr.dead = false →
      let D := fun e => Spec.isDomain e ∧ (s.reg (PWR_WAKE_SEL (e / 32))).getLsbD (e % 32) = true ∧ s.domState e ≠ 0 ∧ s.domState e ≠ 5
      (∀ c, s.pwr.cmd = some c → Gives .wakeNLow s fun t => t = { s.quiet with pwr := { s.pwr with wake := s.pwr.wake || (c.entry && c.abort.isNone) } })
      ∧ (s.pwr.cmd = none → (∀ e ∈ List.range 71, ¬D e) → Gives .wakeNLow s fun t => Unchanged s t)
      ∧ (s.pwr.cmd = none → (∃ e ∈ List.range 71, D e) → Gives .wakeNLow s fun t =>
        Spec.wakeRuns s t ((List.range 71).filter fun e => decide (D e)) 0 false
        ∧ t.reg PWR_CMD_STAT = setFld (setFld (setFld (setFld (s.reg PWR_CMD_STAT) PWR_CMD_STAT_ERR 0) PWR_CMD_STAT_REASON 0) PWR_CMD_STAT_REF_DOM 0)
            PWR_CMD_STAT_BUSY 1))
    ∧ (s.pwr.dead = false →
      let e := getFld v PWR_PAD_REL_DOMAIN
      (Spec.isDomain e ∧ s.bit (PWR_DOM e) PWR_DOM_READY = true → Gives (.pwrPadRel p v) s fun t =>
        t.reg (PWR_DOM e) = setFld (s.reg (PWR_DOM e)) PWR_DOM_PAD_HOLD 0 ∧ Spec.padsShown s t e ∧ Only s t (fun a => a = PWR_DOM e) id)
      ∧ (¬(Spec.isDomain e ∧ s.bit (PWR_DOM e) PWR_DOM_READY = true) → Gives (.pwrPadRel p v) s fun t =>
        t.bit PWR_STAT PWR_STAT_PAD_REL_REFUSED = true ∧ OnlyRegsOf s t fun a => a = PWR_STAT))

/-! The performance counters (18_counters.md). -/

/-- A counter's value (R489). -/
def Spec.counter (s : State) (i : Nat) : Nat := s.pairV (i / 2) / 2 ^ (48 * (i % 2)) % 2 ^ 48
/-- The low counter of a chained pair (R490). -/
abbrev Spec.chainLow (s : State) (i : Nat) : Prop := i % 2 = 0 ∧ s.bit (PAIR_CTL (i / 2)) PAIR_CTL_CHAIN = true
/-- IRQ is set: vector 59 is raised at its change to 1 (R499). -/
def Spec.counterIrq (s t : State) : Prop :=
  t.bit CNT_STAT CNT_STAT_IRQ = true ∧ (s.bit CNT_STAT CNT_STAT_IRQ = false → Spec.vector s t 59)
    ∧ (s.bit CNT_STAT CNT_STAT_IRQ = true → t.reg (MSIX_PBA 1) = s.reg (MSIX_PBA 1) ∧ .msix 59 ∉ t.out)
/-- A counter's OVF bit, and what its change to 1 does (R491, R499). -/
def Spec.overflows (s t : State) (i : Nat) : Prop :=
  let f : Fld := if i % 2 = 0 then ⟨1, 1⟩ else ⟨2, 2⟩
  let was := s.bit (PAIR_CTL (i / 2)) f
  t.bit (PAIR_CTL (i / 2)) f = true
    ∧ (was = false → t.col = { s.col with intake := mergeMsg ⟨7, 0x70, 0, false, BitVec.ofNat 40 i, true, 0, false⟩ s.col.intake })
    ∧ (was = true → t.col = s.col)
    ∧ (was = false → s.bit CNT_GCFG CNT_GCFG_OVF_IRQ = true → Spec.counterIrq s t)
    ∧ (was = true ∨ s.bit CNT_GCFG CNT_GCFG_OVF_IRQ = false → t.bit CNT_STAT CNT_STAT_IRQ = s.bit CNT_STAT CNT_STAT_IRQ
      ∧ t.reg (MSIX_PBA 1) = s.reg (MSIX_PBA 1))
/-- What counting may change: the pairs of `P`, and the words of `A`. -/
def Spec.cntFrame (s t : State) (P A : Nat → Prop) : Prop :=
  Only s t (fun a => A a ∨ (∃ k ∈ List.range 4096, P k ∧ a = PAIR_CTL k) ∨ a = CNT_STAT ∨ a = MSIX_PBA 1 ∨ a = FC_STAT)
      (fun u => { u with cnt := { u.cnt with val := [], carry := [] }, col := .init })
    ∧ ∀ k, ¬P k → t.pairV k = s.pairV k
/-- Nothing of a counter's carry is in flight. -/
def Spec.landed (s : State) (k : Nat) : Prop := 2 * k ∉ s.cnt.carry ∧ 2 * k + 1 ∉ s.cnt.carry
/-- R495: a pair takes the values of a commit, in a cycle in which its low counter adds `inc`. -/
def Spec.commits (s t : State) (k lo hi inc : Nat) : Prop :=
  let chained := Spec.chainLow s (2 * k)
  let wraps := s.bit (CNT_BANK_CTL (k / 1024)) CNT_BANK_CTL_FREEZE = false ∧ 2 ^ 48 ≤ Spec.counter s (2 * k) + inc
  Spec.counter t (2 * k) = lo
    ∧ Spec.counter t (2 * k + 1) = (if wraps ∧ chained then (hi + 1) % 2 ^ 48 else hi)
    ∧ (wraps → t.bit (PAIR_CTL k) PAIR_CTL_WOW = true ∧ t.bit CNT_STAT CNT_STAT_WRAP_ON_WRITE = true
      ∧ (¬chained → t.bit (PAIR_CTL k) PAIR_CTL_OVF_LO = true))
    ∧ (¬wraps → t.reg (PAIR_CTL k) = s.reg (PAIR_CTL k))
    ∧ (wraps → chained → (2 * k + 1 ∈ t.cnt.carry ↔ hi = 2 ^ 48 - 1))
/-- The classes, indices and events of R492. -/
abbrev Spec.listedEvent (v : W) : Prop :=
  let c := getFld v CNT_CFG_LO_CLASS
  let i := getFld v CNT_CFG_LO_INDEX
  let e := getFld v CNT_CFG_LO_EVENT
  (c = 1 ∧ i < 48 ∧ e < 6) ∨ (c = 2 ∧ i < 256 ∧ e < 6) ∨ (c = 3 ∧ e < 7) ∨ (c = 4 ∧ i < 88 ∧ e < 2)
/-- The nearest whole number to `x / w`, a half to the even one (R498). -/
def Spec.nearestQuot (x w : Nat) : Nat :=
  let q := (2 * x + w) / (2 * w)
  if (2 * x + w) % (2 * w) = 0 ∧ q % 2 = 1 then q - 1 else q
/-- The sixteen counters of a snapshot, in the order of R516. -/
def Spec.engineCounters (n : Nat) : List Nat :=
  [CONV_CLIP_CNT n 0, CONV_CLIP_CNT n 1, CONV_CLIP_CNT n 2, CONV_CLIP_CNT n 3, TX_CLIP_CNT n 0, TX_CLIP_CNT n 1, TX_CLIP_CNT n 2, TX_CLIP_CNT n 3,
    RX_LOCK_LOSS_CNT n, RX_REPLACE_CNT n, RX_ACQ_FAIL_CNT n, RX_DM_ERR_CNT n, GLO_EDGE_ERR_CNT n, GLO_DISCARD_CNT n, GLO_SAT_CNT n, CAP_TRIG_OVERRUN n]
/-- R490–R499, R516: carries and overflows, the reading and the commit of a pair, banks, configuration, the bandwidth monitors, and the
snapshot of an engine's counters. A commit is stated where nothing of the pair is in flight. A refused CNT_CFG write of class 0, what FREEZE and
CLEAR of one write do, and when a window is valid are log 57's (DEDUCED). -/
def Obligations.PerformanceCounters : Prop :=
  ∀ (s : State) (p : Party) (i : Fin 8192) (k : Fin 4096) (b : Fin 4) (m : Fin 256) (v : W), s.Wf → s.pwr.dead = false →
    let only := fun (t : State) (A : Nat → Prop) => OnlyRegsOf s t A
    let bw := fun t : State => Tab.get t.cnt.bw (fun _ => (0, false)) m
    let window : Int := 65536000 * s.fld (BW_WIN m) BW_WIN_W
    let bwDue := window = 0 ∨ scaleT s.time.c s.time.line / window ≠ scaleT (s.time.c - 1) s.time.line / window
    (i.val ∉ s.cnt.carry → Gives (.cntOverflow i) s fun t => Unchanged s t)
    ∧ (i.val ∈ s.cnt.carry → Gives (.cntOverflow i) s fun t =>
      (Spec.chainLow s i → Spec.counter t (i + 1) = (Spec.counter s (i + 1) + 1) % 2 ^ 48 ∧ Spec.counter t i = Spec.counter s i
        ∧ t.cnt.carry = s.cnt.carry.erase i ++ (if Spec.counter s (i + 1) = 2 ^ 48 - 1 then [i.val + 1] else []) ∧ t.col = s.col
        ∧ Spec.cntFrame s t (fun k => k = i.val / 2) fun _ => False)
      ∧ (¬Spec.chainLow s i → Spec.overflows s t i ∧ t.cnt = { s.cnt with carry := s.cnt.carry.erase i }
        ∧ Spec.cntFrame s t (fun k => k = i.val / 2) fun _ => False))
    ∧ (Gives (.cntW0Read p k) s fun t =>
      let c := if Spec.chainLow s (2 * k) ∧ 2 * k.val ∈ s.cnt.carry then 1 else 0
      Spec.counter t (2 * k) = Spec.counter s (2 * k) ∧ Spec.counter t (2 * k + 1) = (Spec.counter s (2 * k + 1) + c) % 2 ^ 48
        ∧ t.out = [.read p (BitVec.ofNat 32 (t.pairV k))] ∧ t.latched p (CNT_W1 k) = BitVec.ofNat 32 (t.pairV k / 2 ^ 32)
        ∧ t.latched p (CNT_W2 k) = BitVec.ofNat 32 (t.pairV k / 2 ^ 64) ∧ t.regs = s.regs ∧ t.col = s.col
        ∧ (∀ j, j ≠ k.val → t.pairV j = s.pairV j) ∧ (∀ q a, q ≠ p → t.latched q a = s.latched q a))
    ∧ (∀ inc : Nat, Spec.landed s k → Gives (.cntW2Commit p k v inc) s fun t =>
      let w0 := (s.latched p (CNT_W0 k + 1)).toNat
      let w1 := (s.latched p (CNT_W0 k + 5)).toNat
      Spec.commits s t k (w0 + w1 % 2 ^ 16 * 2 ^ 32) (w1 / 2 ^ 16 + v.toNat * 2 ^ 16) inc
        ∧ (∀ j ∈ s.cnt.carry, j ∈ t.cnt.carry) ∧ Spec.cntFrame s t (fun j => j = k.val) fun _ => False)
    ∧ (v.getLsbD 1 = false → Gives (.cntFreeze p b v) s fun t => t.reg (CNT_BANK_CTL b) = v &&& 1#32 ∧ only t fun a => a = CNT_BANK_CTL b)
    ∧ (∀ inc : List (Fin 4096 × Nat), (inc.map Prod.fst).Nodup → (∀ j ∈ List.range 4096, j / 1024 = b.val → Spec.landed s j) → Gives (.cntBankClear p b v inc) s fun t =>
      (∀ e ∈ inc, e.1.val / 1024 = b.val → Spec.commits s t e.1 0 0 e.2)
        ∧ (∀ j ∈ List.range 4096, j / 1024 = b.val → (∀ e ∈ inc, e.1.val ≠ j) → Spec.counter s (2 * j) < 2 ^ 48 → Spec.counter t (2 * j) = 0 ∧ Spec.counter t (2 * j + 1) = 0)
        ∧ t.reg (CNT_BANK_CTL b) = v &&& 1#32 ∧ Spec.cntFrame s t (fun j => j / 1024 = b.val) fun a => a = CNT_BANK_CTL b)
    ∧ (let cfg := if i.val % 2 = 0 then CNT_CFG_LO (i.val / 2) else CNT_CFG_HI (i.val / 2)
      (Spec.listedEvent v → Gives (.cntCfgWrite p i v) s fun t => t.reg cfg = v &&& 0xFFFF00FF#32 ∧ only t fun a => a = cfg)
      ∧ (¬Spec.listedEvent v → Gives (.cntCfgWrite p i v) s fun t => t.bit CNT_STAT CNT_STAT_CFG_REFUSED = true ∧ only t fun a => a = CNT_STAT))
    ∧ (v.getLsbD 1 = true → exec (.cntFreeze p b v) s = exec (.cntBankClear p b v []) s)
    ∧ (s.bit (BW_CFG m) BW_CFG_EN = false ∨ ¬bwDue → Gives (.bwWindowEnd m) s fun t => Unchanged s t)
    ∧ (s.bit (BW_CFG m) BW_CFG_EN = true → bwDue → Gives (.bwWindowEnd m) s fun t =>
      let w := s.fld (BW_WIN m) BW_WIN_W
      let set := s.lineSt ≠ 0
      t.reg (BW_LAST m) = BitVec.ofNat 32 (bw s).1
        ∧ t.bit (BW_RATE m) BW_RATE_VALID = decide ((bw s).2 = true ∧ set)
        ∧ (1 ≤ w → t.fld (BW_RATE m) BW_RATE_RATE = Spec.nearestQuot ((bw s).1 * 66) w % 2 ^ 27)
        ∧ bw t = (0, decide set)
        ∧ (s.bit (BW_CFG m) BW_CFG_IRQ = true → t.bit CNT_STAT CNT_STAT_BW_DONE = true ∧ Spec.counterIrq s t)
        ∧ (s.bit (BW_CFG m) BW_CFG_IRQ = false → t.reg CNT_STAT = s.reg CNT_STAT ∧ t.reg (MSIX_PBA 1) = s.reg (MSIX_PBA 1))
        ∧ Only s t (fun a => a ∈ [BW_LAST m, BW_RATE m, CNT_STAT, MSIX_PBA 1]) fun u => { u with cnt := { u.cnt with bw := [] }, fresh := 0 })
    ∧ (∀ win : Bool, Gives (.bwConfigWrite p m win v) s fun t =>
      let a := if win then BW_WIN m else BW_CFG m
      t.reg a = v &&& impOf a ∧ t.bit (BW_RATE m) BW_RATE_VALID = false ∧ bw t = (0, false)
        ∧ Only s t (fun x => x = a ∨ x = BW_RATE m) fun u => { u with cnt := { u.cnt with bw := [] } })
    ∧ (Gives (.bwLastRead p m) s fun t => t.out = [.read p (s.reg (BW_LAST m))] ∧ t.latched p (BW_RATE m) = s.reg (BW_RATE m)
      ∧ (∀ q a, ¬(q = p ∧ a = BW_RATE m) → a < 2 ^ 32 → t.latched q a = s.latched q a) ∧ Only s t (fun _ => False) fun u => { u with latch := [] })
    ∧ (∀ (n : Eng) (inc : List Nat), Spec.served s (ENG_CNT_CTL n) → Gives (.engCntSnap p n inc) s fun t =>
      (∀ j ∈ List.range 16, t.reg (ENG_CNT_SNAP n j) = s.reg ((Spec.engineCounters n).getD j 0)
          ∧ t.reg ((Spec.engineCounters n).getD j 0) = BitVec.ofNat 32 (inc.getD j 0) &&& impOf ((Spec.engineCounters n).getD j 0))
        ∧ t.reg (ENG_CNT_SEQ n) = s.reg (ENG_CNT_SEQ n) + 1#32 &&& impOf (ENG_CNT_SEQ n)
        ∧ only t fun a => a = ENG_CNT_SEQ n ∨ (∃ j ∈ List.range 16, a = ENG_CNT_SNAP n j ∨ a = (Spec.engineCounters n).getD j 0))

/-! The whole device. -/

/-- What the line tiles' synthesisers move to (R317), in 2^-48 / 5^14: R_l held within 50 ppm where SYNT is 1, nominal otherwise. -/
def Spec.trimGoal (s : State) : Int :=
  if s.bit TU_CTL TU_CTL_SYNT = true then max (-(2 ^ 43 * 5 ^ 10)) (min (2 ^ 43 * 5 ^ 10) (s.time.line.r * 5 ^ 14)) else 0
/-- A step takes the command at the front of the queue and runs it on the rest (the rows of the opcode table are commands in order).
With no command waiting, one clock of the time unit passes: C counts while the always-on domain is ready (R303, R529), and the drones'
CYCLE and TIMER pass in clusters in Run (R381), the synthesisers move towards R_l by at most 0.1 ppm in a millisecond (R317), and a frame that
waits for a timing port leaves when it may (R321); this is the model's choice (log 1, log 12, log 36). -/
def Obligations.StepTakesFront : Prop :=
  (∀ (s : State) (c : Instr) (l : List Instr), s.pending = c :: l → step s = exec c { s with pending := l })
    ∧ (∀ s : State, s.pending = [] → s.pwr.dead = true ∨ s.pwr.ready = false → step s = .next s.quiet)
    ∧ ∀ s : State, s.pending = [] → s.pwr.dead = false → s.pwr.ready = true → ∃ t, step s = .next t
      ∧ (let u : State := { s with time := { s.time with c := (s.time.c + 1) % 2 ^ 64 } }
        let goes := fun h : Harn => Tab.get s.time.busy (fun _ => 0) h ≤ u.time.c ∧ (s.waitTx h).head?.elim False fun x => x.1.word1.getLsbD 31 = true
          ∨ ∀ y, (s.heldTx h).head? = some y → (Spec.sendClks u h x.1 : Int) * 262144 ≤ 5 * Spec.ahead u y
        t.time.c = u.time.c ∧ { t.time with c := 0, trim := 0, busy := [], wait := [] } = { s.time with c := 0, trim := 0, busy := [], wait := [] }
        ∧ (∀ h : Harn, (goes h → t.waitTx h = (s.waitTx h).tail) ∧ (¬goes h → t.waitTx h = s.waitTx h))
        ∧ ((∀ h : Harn, ¬goes h) → t.time = { u.time with trim := t.time.trim } ∧ t.regs = s.regs ∧ t.mem = s.mem ∧ t.out = []
          ∧ ∀ d : Drn, (t.drnS d).evpend = (s.drnS d).evpend))
      ∧ (let goal := Spec.trimGoal s
        (2 ^ 37 < goal - s.time.trim → t.time.trim = s.time.trim + 2 ^ 37) ∧ (goal - s.time.trim < -(2 ^ 37) → t.time.trim = s.time.trim - 2 ^ 37)
        ∧ (-(2 ^ 37) ≤ goal - s.time.trim → goal - s.time.trim ≤ 2 ^ 37 → t.time.trim = goal)) ∧ t.pending = []
      ∧ (∀ d : Drn, s.domState (64 + d.val / 8) ≠ 0 → { t.drnS d with evpend := 0 } = { s.drnS d with evpend := 0 })
      ∧ ∀ d : Drn, s.domState (64 + d.val / 8) = 0 → ∃ n, (n = 1 ∨ n = 2) ∧ (t.drnS d).cycle = (s.drnS d).cycle + BitVec.ofNat 64 n
        ∧ (t.drnS d).timer = (if (s.drnS d).timer = 0#32 then 0#32 else BitVec.ofNat 32 (max 1 ((s.drnS d).timer.toNat - n)))
        ∧ { t.drnS d with cycle := 0, timer := 0, evpend := 0 } = { s.drnS d with cycle := 0, timer := 0, evpend := 0 }
/-- R10, R303, R354, R455, R541: at reset every domain is in Off with its pads held, no command waits, C is 0, the steward waits for an
image, the collector holds nothing, the reset values of the register map stand, and the state is in canonical form. -/
def Obligations.ResetState : Prop :=
  State.reset.Wf ∧ State.reset.pending = [] ∧ (∀ a, State.reset.reg a = rstOf a) ∧ (∀ k, State.reset.byte k = memRst k)
    ∧ (∀ d, Spec.isDomain d → State.reset.domState d = 4 ∧ State.reset.bit (PWR_DOM d) PWR_DOM_PAD_HOLD = true)
    ∧ State.reset.fld STW_CMD_STAT STW_CMD_STAT_STATE = 0 ∧ State.reset.time.c = 0
    ∧ State.reset.col.conds = [] ∧ State.reset.col.intake = [] ∧ State.reset.reg FC_HQ_SEQ = 0#32 ∧ State.reset.bit FC_STAT FC_STAT_CHIP_RESET = false
    ∧ ∀ c, State.reset.stS c = StSt.init
/-- Every step completes: no command of the device stops it. Registers and memory stay in canonical form, so that reserved bits read 0
(R10) and equal contents are equal data, and the queue loses just its front. -/
def Obligations.EveryStepCompletes : Prop :=
  ∀ s : State, s.Wf → ∃ t, step s = .next t ∧ t.Wf ∧ t.pending = s.pending.tail
/-- R386–R404: every Zynnan instruction that has an encoding decodes from it to itself, with every operand; and a word that decodes is
the encoding of what it decodes to, so that no reserved field has a silent meaning (R387). -/
def Obligations.ZynEncodingsDecode : Prop :=
  (∀ (i : Instr) (w : W) (o : Option W), zynEncode i = some (w, o) → ∃ x, zynDecode x w (o.getD 0#32) = some i)
    ∧ ∀ (x : Drn) (w w2 : W) (i : Instr), zynDecode x w w2 = some i → ∃ o, zynEncode i = some (w, o) ∧ (o = none ∨ o = some w2)
/-- The commands of the negotiation's answers, of a lane's control, of memory integrity, the farrier, faults, self-test, supplies and power
have the effect that they are for, under conditions on the state and the operands alone (R70, R77, R101–R103, R107, R284–R291, R408–R413, R418–R422,
R447, R459, R468, R471–R479). The statements of their families say the rest. -/
def Obligations.CommandsTakeEffect : Prop :=
  ∀ (s : State) (p : Party) (n : Eng) (h : Harn) (l : Fin 64) (d : Drn) (r : Fin 154) (v : W), s.Wf → s.pwr.dead = false →
    (Spec.served s (NEG_RX_CTL n) → s.negRxState n = 1 →
      (∃ t, exec (.negRxNak p n v) s = .next t ∧ t.negRxState n = 5)
      ∧ (v.getLsbD 30 = false → ∃ t, exec (.negRxAck p n v) s = .next t ∧ (t.negRxState n = 2 ∨ t.negRxState n = 5)))
    ∧ (Spec.served s (LANE_TXEQ h l) → ((Spec.taps v).map Int.natAbs).sum ≤ 32 →
      ∃ t, exec (.laneTxeqWrite p h l v) s = .next t ∧ t.reg (LANE_TXEQ h l) = v &&& impOf (LANE_TXEQ h l) ∧ (t.laneS (64 * h + l)).ramp.isSome)
    ∧ (∀ a e w k, (s.laneS (64 * h + l)).ramp = some (a, e, w, k) → k < 15 →
      ∃ t, exec (.txeqStep h l) s = .next t ∧ (t.laneS (64 * h + l)).ramp = some (a, e, w, k + 1))
    ∧ (Spec.served s (LANE_CTL h l) → v.getLsbD 31 = false → v.getLsbD 30 = false → ¬Spec.laneUsed s h l → s.lanePower h l = 0 →
      s.fld (LANE_CTL h l) LANE_CTL_LOOP = 0 → s.bit (LANE_STAT h l) LANE_STAT_CAL_BUSY = false →
      (getFld v LANE_CTL_POWER = 0 → ∃ t, exec (.laneLoopWrite p h l v) s = .next t ∧ t.fld (LANE_CTL h l) LANE_CTL_LOOP = getFld v LANE_CTL_LOOP)
      ∧ (getFld v LANE_CTL_LOOP = 0 → getFld v LANE_CTL_POWER ≤ 2 →
        ∃ t, exec (.lanePowerWrite p h l v) s = .next t ∧ t.lanePower h l = getFld v LANE_CTL_POWER)
      ∧ (getFld v LANE_CTL_LOOP = 0 → getFld v LANE_CTL_POWER = 0 → 2 ≤ s.laneState h l →
        ∃ t, exec (.laneCalGo p h l v) s = .next t ∧ t.bit (LANE_STAT h l) LANE_STAT_CAL_BUSY = true))
    ∧ (Spec.served s (LANE_CTL h l) → v &&& 0xC0000000#32 = 0#32 → getFld v LANE_CTL_LOOP = 0 → getFld v LANE_CTL_POWER = 0 →
      s.fld (LANE_CTL h l) LANE_CTL_LOOP = 0 → s.lanePower h l = 0 → s.bit (LANE_STAT h l) LANE_STAT_CAL_BUSY = true →
      ∃ t, exec (.laneCalAbort p h l v) s = .next t ∧ t.bit (LANE_STAT h l) LANE_STAT_CAL_BUSY = false ∧ t.fld (LANE_STAT h l) LANE_STAT_CAL_ERR = 2)
    ∧ (s.bit (LANE_STAT h l) LANE_STAT_CAL_BUSY = true → ∀ eyes : List EyeScan,
      ∃ t, exec (.laneCalDone h l eyes) s = .next t ∧ t.bit (LANE_STAT h l) LANE_STAT_CAL_DONE = true)
    ∧ (∀ c, (s.drnS d).pause = some c → (s.drnS d).slow = false → 1500000 < ((s.drnS d).cycle - c).toNat →
      ∃ t, exec (.handoverSlow d) s = .next t ∧ (t.drnS d).slow = true)
    ∧ (s.bit (FG_CFG r) FG_CFG_EN = true → s.regionRun r = true →
      s.fld (FG_POS r) FG_POS_POS < Spec.macros r * Spec.rows r * Spec.rowWords r → ∀ synd : BitVec 8,
      ∃ t, exec (.foragerRead r synd) s = .next t
        ∧ t.fld (FG_POS r) FG_POS_POS = (s.fld (FG_POS r) FG_POS_POS + 1) % (Spec.macros r * Spec.rows r * Spec.rowWords r))
    ∧ (∀ k q, s.wbOf r = k :: q → k ∉ q → s.regionRun r = true → ∃ t, exec (.foragerWriteBack r) s = .next t ∧ t.wbOf r = q)
    ∧ (∃ t, exec (.eccFlipArm p v) s = .next t ∧ t.fld ECC_FLIP_CTL ECC_FLIP_CTL_REGION = getFld v ECC_FLIP_CTL_REGION)
    ∧ (∀ (reader : Option Party) (synd : BitVec 8), s.regionUp r = true → Spec.wordIn r v → s.poisoned (Spec.keyOf r v) = false →
      synd ≠ 0 → syndSingle r synd = true →
      ∃ t, exec (.eccReadError reader r v synd) s = .next t ∧ Spec.counted s t (CE_CNT r) 1)
    ∧ (1 ≤ getFld v FAR_CMD_KIND → getFld v FAR_CMD_KIND ≤ 4 → s.ecc.queue = [] → s.ecc.job = none →
      ∃ t, exec (.farCmdGo p v) s = .next t ∧ t.ecc.queue = [⟨v &&& 0x703F07FF#32, s.reg FAR_ARG⟩])
    ∧ (∀ q, s.ecc.queue = [q] → s.farWaits q = false → s.ecc.job = none → ∃ t, exec .repairStart s = .next t ∧ t.ecc.queue = [])
    ∧ (∀ j, s.ecc.job = some j → Spec.farKind j.req = 1 →
      (j.stage = .copy → ∃ t, exec .rowCopyDone s = .next t ∧ t.ecc.job = some { j with stage := .compare })
      ∧ (j.stage = .compare → ∃ t, exec (.rowCompareDone true) s = .next t ∧ t.ecc.job = some { j with stage := .switch })
      ∧ (j.stage = .switch → ∃ t, exec .rowSwitch s = .next t ∧ t.ecc.job = none))
    ∧ (∀ m, s.col.intake = [m] → m.isSet = false → m.src < 4096 → ∀ ws, ∃ t, exec (.faultMessage ws) s = .next t ∧ t.col.intake = []
      ∧ t.reg FC_HQ_SEQ = s.reg FC_HQ_SEQ + 1#32)
    ∧ (∀ c : Fin 49, (c.val < 48 → s.domState c < 3) → v.getLsbD 31 = false → ∀ g, (s.stS c).run = some g →
      ∃ t, exec (.stAbort p c v) s = .next t ∧ (t.stS c).run = some { g with cut := true })
    ∧ (∀ (c : Fin 49) g e, (s.stS c).run = some g → ∃ t, exec (.stRunDone c e) s = .next t ∧ (t.stS c).run = none)
    ∧ (∀ b cause, s.sup.going = some (b, cause) → ∃ t, exec .switchoverComplete s = .next t ∧ t.bit SUP_STAT SUP_STAT_SWITCHED = true)
    ∧ (let target := getFld v PWR_CMD_TARGET
      s.pwr.cmd = none → v.getLsbD 30 = false → 1 ≤ target → target ≤ 4 → s.domState n = 0 → Spec.engineIdle s n →
      (∀ e ∈ List.range 96, (s.reg (PWR_SEL (e / 32))).getLsbD (e % 32) = decide (e = n.val)) →
      ∃ t, exec (.pwrCmdGo p v) s = .next t ∧ t.pwr.cmd = some ⟨true, target, [n.val], [], none, none, false, false⟩
        ∧ t.bit PWR_CMD_STAT PWR_CMD_STAT_BUSY = true)
    ∧ (∀ c e q, s.pwr.cmd = some c → c.todo = e :: q → c.entry = true → c.turn = none → c.abort = none → Spec.isDomain e →
      s.pwr.wake = false → s.domTest e = false → Spec.mayEnter s e c.target →
      ∃ t, exec .entryTurn s = .next t ∧ t.pwr.cmd = some { c with todo := q, turn := some e })
    ∧ (∀ c e, s.pwr.cmd = some c → c.turn = some e → Spec.isDomain e → c.todo ≠ [] → c.target < 5 → s.domTest e = false →
      ∃ t, exec .entryDone s = .next t ∧ t.domState e = c.target)
    ∧ (∀ (e : Fin 71) x y q, Spec.isDomain e → (s.wakeOf e).1 = x :: y :: q → (x = 2 → s.domState e ≠ 3) →
      ∃ t, exec (.wakeStepReady e [] []) s = .next t ∧ t.wakeOf e = (y :: q, (s.wakeOf e).2))
    -- a calibration command starts its step, ABORT ends the running one, and a step's end completes it (R101, R102, R107)
    ∧ (Spec.served s (CONV_CAL_CTL n) → (s.engS n).calRun = 0 → v.getLsbD 30 = false →
      (Spec.calRefuse s n 1 (getFld v CONV_CAL_CTL_MASK) = 0 → ∃ t, exec (.calDark p n v) s = .next t ∧ (t.engS n).calRun = 1)
      ∧ (Spec.calRefuse s n 2 (getFld v CONV_CAL_CTL_MASK) = 0 → ∃ t, exec (.calTone p n v) s = .next t ∧ (t.engS n).calRun = 2)
      ∧ (Spec.calRefuse s n 3 (getFld v CONV_CAL_CTL_MASK) = 0 → ∃ t, exec (.calCompute p n v) s = .next t ∧ (t.engS n).calRun = 3))
    ∧ (Spec.served s (CONV_CAL_CTL n) → (s.engS n).calRun ≠ 0 → v.getLsbD 31 = false →
      ∃ t, exec (.calAbort p n v) s = .next t ∧ (t.engS n).calRun = 0 ∧ t.fld (CONV_CAL_STAT n) CONV_CAL_STAT_ERR = 9)
    ∧ (∀ m : CalMeas, (s.engS n).calRun ∈ [1, 2, 3] →
      ∃ t, exec (.calStepDone n m) s = .next t ∧ (t.engS n).calRun = 0 ∧ t.fld (CONV_CAL_STAT n) CONV_CAL_STAT_STATE = 0)
    ∧ (let e := getFld v PWR_PAD_REL_DOMAIN
      Spec.isDomain e → s.bit (PWR_DOM e) PWR_DOM_READY = true → ∃ t, exec (.pwrPadRel p v) s = .next t ∧ t.bit (PWR_DOM e) PWR_DOM_PAD_HOLD = false)
end

