-- ==== Sys2Proof/Laws/State.lean ====
section
/-! SUPPORT. What each primitive update does to each field of the state: one lemma per field and update. -/
namespace Sys2Proof.Machine

@[simp] theorem Op.wr_regs (a : Nat) (v : W) (s : State) : ((Op.wr a v).run s).regs = Regs.set s.regs a v := rfl
@[simp] theorem Op.wr_mem (a : Nat) (v : W) (s : State) : ((Op.wr a v).run s).mem = s.mem := rfl
@[simp] theorem Op.wr_poison (a : Nat) (v : W) (s : State) : ((Op.wr a v).run s).poison = s.poison := rfl
@[simp] theorem Op.wr_eng (a : Nat) (v : W) (s : State) : ((Op.wr a v).run s).eng = s.eng := rfl
@[simp] theorem Op.wr_drn (a : Nat) (v : W) (s : State) : ((Op.wr a v).run s).drn = s.drn := rfl
@[simp] theorem Op.wr_ctx (a : Nat) (v : W) (s : State) : ((Op.wr a v).run s).ctx = s.ctx := rfl
@[simp] theorem Op.wr_lane (a : Nat) (v : W) (s : State) : ((Op.wr a v).run s).lane = s.lane := rfl
@[simp] theorem Op.wr_time (a : Nat) (v : W) (s : State) : ((Op.wr a v).run s).time = s.time := rfl
@[simp] theorem Op.wr_col (a : Nat) (v : W) (s : State) : ((Op.wr a v).run s).col = s.col := rfl
@[simp] theorem Op.wr_stw (a : Nat) (v : W) (s : State) : ((Op.wr a v).run s).stw = s.stw := rfl
@[simp] theorem Op.wr_pwr (a : Nat) (v : W) (s : State) : ((Op.wr a v).run s).pwr = s.pwr := rfl
@[simp] theorem Op.wr_sup (a : Nat) (v : W) (s : State) : ((Op.wr a v).run s).sup = s.sup := rfl
@[simp] theorem Op.wr_ecc (a : Nat) (v : W) (s : State) : ((Op.wr a v).run s).ecc = s.ecc := rfl
@[simp] theorem Op.wr_st (a : Nat) (v : W) (s : State) : ((Op.wr a v).run s).st = s.st := rfl
@[simp] theorem Op.wr_cnt (a : Nat) (v : W) (s : State) : ((Op.wr a v).run s).cnt = s.cnt := rfl
@[simp] theorem Op.wr_edge (a : Nat) (v : W) (s : State) : ((Op.wr a v).run s).edge = s.edge := rfl
@[simp] theorem Op.wr_mir (a : Nat) (v : W) (s : State) : ((Op.wr a v).run s).mir = s.mir := rfl
@[simp] theorem Op.wr_tap (a : Nat) (v : W) (s : State) : ((Op.wr a v).run s).tap = s.tap := rfl
@[simp] theorem Op.wr_trigOut (a : Nat) (v : W) (s : State) : ((Op.wr a v).run s).trigOut = s.trigOut := rfl
@[simp] theorem Op.wr_latch (a : Nat) (v : W) (s : State) : ((Op.wr a v).run s).latch = s.latch := rfl
@[simp] theorem Op.wr_out (a : Nat) (v : W) (s : State) : ((Op.wr a v).run s).out = s.out := rfl
@[simp] theorem Op.wr_fresh (a : Nat) (v : W) (s : State) : ((Op.wr a v).run s).fresh = s.fresh := rfl
@[simp] theorem Op.wr_pending (a : Nat) (v : W) (s : State) : ((Op.wr a v).run s).pending = s.pending := rfl

@[simp] theorem Op.byte_regs (k : Nat) (b : Byte) (s : State) : ((Op.byte k b).run s).regs = s.regs := rfl
@[simp] theorem Op.byte_mem (k : Nat) (b : Byte) (s : State) : ((Op.byte k b).run s).mem = Tab.set s.mem memRst k b := rfl
@[simp] theorem Op.byte_poison (k : Nat) (b : Byte) (s : State) : ((Op.byte k b).run s).poison = s.poison := rfl
@[simp] theorem Op.byte_eng (k : Nat) (b : Byte) (s : State) : ((Op.byte k b).run s).eng = s.eng := rfl
@[simp] theorem Op.byte_drn (k : Nat) (b : Byte) (s : State) : ((Op.byte k b).run s).drn = s.drn := rfl
@[simp] theorem Op.byte_ctx (k : Nat) (b : Byte) (s : State) : ((Op.byte k b).run s).ctx = s.ctx := rfl
@[simp] theorem Op.byte_lane (k : Nat) (b : Byte) (s : State) : ((Op.byte k b).run s).lane = s.lane := rfl
@[simp] theorem Op.byte_time (k : Nat) (b : Byte) (s : State) : ((Op.byte k b).run s).time = s.time := rfl
@[simp] theorem Op.byte_col (k : Nat) (b : Byte) (s : State) : ((Op.byte k b).run s).col = s.col := rfl
@[simp] theorem Op.byte_stw (k : Nat) (b : Byte) (s : State) : ((Op.byte k b).run s).stw = s.stw := rfl
@[simp] theorem Op.byte_pwr (k : Nat) (b : Byte) (s : State) : ((Op.byte k b).run s).pwr = s.pwr := rfl
@[simp] theorem Op.byte_sup (k : Nat) (b : Byte) (s : State) : ((Op.byte k b).run s).sup = s.sup := rfl
@[simp] theorem Op.byte_ecc (k : Nat) (b : Byte) (s : State) : ((Op.byte k b).run s).ecc = s.ecc := rfl
@[simp] theorem Op.byte_st (k : Nat) (b : Byte) (s : State) : ((Op.byte k b).run s).st = s.st := rfl
@[simp] theorem Op.byte_cnt (k : Nat) (b : Byte) (s : State) : ((Op.byte k b).run s).cnt = s.cnt := rfl
@[simp] theorem Op.byte_edge (k : Nat) (b : Byte) (s : State) : ((Op.byte k b).run s).edge = s.edge := rfl
@[simp] theorem Op.byte_mir (k : Nat) (b : Byte) (s : State) : ((Op.byte k b).run s).mir = s.mir := rfl
@[simp] theorem Op.byte_tap (k : Nat) (b : Byte) (s : State) : ((Op.byte k b).run s).tap = s.tap := rfl
@[simp] theorem Op.byte_trigOut (k : Nat) (b : Byte) (s : State) : ((Op.byte k b).run s).trigOut = s.trigOut := rfl
@[simp] theorem Op.byte_latch (k : Nat) (b : Byte) (s : State) : ((Op.byte k b).run s).latch = s.latch := rfl
@[simp] theorem Op.byte_out (k : Nat) (b : Byte) (s : State) : ((Op.byte k b).run s).out = s.out := rfl
@[simp] theorem Op.byte_fresh (k : Nat) (b : Byte) (s : State) : ((Op.byte k b).run s).fresh = s.fresh := rfl
@[simp] theorem Op.byte_pending (k : Nat) (b : Byte) (s : State) : ((Op.byte k b).run s).pending = s.pending := rfl

@[simp] theorem Op.eng_regs (n : Nat) (f : EngSt → EngSt) (s : State) : ((Op.eng n f).run s).regs = s.regs := rfl
@[simp] theorem Op.eng_mem (n : Nat) (f : EngSt → EngSt) (s : State) : ((Op.eng n f).run s).mem = s.mem := rfl
@[simp] theorem Op.eng_poison (n : Nat) (f : EngSt → EngSt) (s : State) : ((Op.eng n f).run s).poison = s.poison := rfl
@[simp] theorem Op.eng_eng (n : Nat) (f : EngSt → EngSt) (s : State) : ((Op.eng n f).run s).eng = Tab.set s.eng (fun _ => EngSt.init) n (f (s.engS n)) := rfl
@[simp] theorem Op.eng_drn (n : Nat) (f : EngSt → EngSt) (s : State) : ((Op.eng n f).run s).drn = s.drn := rfl
@[simp] theorem Op.eng_ctx (n : Nat) (f : EngSt → EngSt) (s : State) : ((Op.eng n f).run s).ctx = s.ctx := rfl
@[simp] theorem Op.eng_lane (n : Nat) (f : EngSt → EngSt) (s : State) : ((Op.eng n f).run s).lane = s.lane := rfl
@[simp] theorem Op.eng_time (n : Nat) (f : EngSt → EngSt) (s : State) : ((Op.eng n f).run s).time = s.time := rfl
@[simp] theorem Op.eng_col (n : Nat) (f : EngSt → EngSt) (s : State) : ((Op.eng n f).run s).col = s.col := rfl
@[simp] theorem Op.eng_stw (n : Nat) (f : EngSt → EngSt) (s : State) : ((Op.eng n f).run s).stw = s.stw := rfl
@[simp] theorem Op.eng_pwr (n : Nat) (f : EngSt → EngSt) (s : State) : ((Op.eng n f).run s).pwr = s.pwr := rfl
@[simp] theorem Op.eng_sup (n : Nat) (f : EngSt → EngSt) (s : State) : ((Op.eng n f).run s).sup = s.sup := rfl
@[simp] theorem Op.eng_ecc (n : Nat) (f : EngSt → EngSt) (s : State) : ((Op.eng n f).run s).ecc = s.ecc := rfl
@[simp] theorem Op.eng_st (n : Nat) (f : EngSt → EngSt) (s : State) : ((Op.eng n f).run s).st = s.st := rfl
@[simp] theorem Op.eng_cnt (n : Nat) (f : EngSt → EngSt) (s : State) : ((Op.eng n f).run s).cnt = s.cnt := rfl
@[simp] theorem Op.eng_edge (n : Nat) (f : EngSt → EngSt) (s : State) : ((Op.eng n f).run s).edge = s.edge := rfl
@[simp] theorem Op.eng_mir (n : Nat) (f : EngSt → EngSt) (s : State) : ((Op.eng n f).run s).mir = s.mir := rfl
@[simp] theorem Op.eng_tap (n : Nat) (f : EngSt → EngSt) (s : State) : ((Op.eng n f).run s).tap = s.tap := rfl
@[simp] theorem Op.eng_trigOut (n : Nat) (f : EngSt → EngSt) (s : State) : ((Op.eng n f).run s).trigOut = s.trigOut := rfl
@[simp] theorem Op.eng_latch (n : Nat) (f : EngSt → EngSt) (s : State) : ((Op.eng n f).run s).latch = s.latch := rfl
@[simp] theorem Op.eng_out (n : Nat) (f : EngSt → EngSt) (s : State) : ((Op.eng n f).run s).out = s.out := rfl
@[simp] theorem Op.eng_fresh (n : Nat) (f : EngSt → EngSt) (s : State) : ((Op.eng n f).run s).fresh = s.fresh := rfl
@[simp] theorem Op.eng_pending (n : Nat) (f : EngSt → EngSt) (s : State) : ((Op.eng n f).run s).pending = s.pending := rfl

@[simp] theorem Op.drn_regs (d : Nat) (f : DrnSt → DrnSt) (s : State) : ((Op.drn d f).run s).regs = s.regs := rfl
@[simp] theorem Op.drn_mem (d : Nat) (f : DrnSt → DrnSt) (s : State) : ((Op.drn d f).run s).mem = s.mem := rfl
@[simp] theorem Op.drn_poison (d : Nat) (f : DrnSt → DrnSt) (s : State) : ((Op.drn d f).run s).poison = s.poison := rfl
@[simp] theorem Op.drn_eng (d : Nat) (f : DrnSt → DrnSt) (s : State) : ((Op.drn d f).run s).eng = s.eng := rfl
@[simp] theorem Op.drn_drn (d : Nat) (f : DrnSt → DrnSt) (s : State) : ((Op.drn d f).run s).drn = Tab.set s.drn (fun _ => DrnSt.init) d (f (s.drnS d)) := rfl
@[simp] theorem Op.drn_ctx (d : Nat) (f : DrnSt → DrnSt) (s : State) : ((Op.drn d f).run s).ctx = s.ctx := rfl
@[simp] theorem Op.drn_lane (d : Nat) (f : DrnSt → DrnSt) (s : State) : ((Op.drn d f).run s).lane = s.lane := rfl
@[simp] theorem Op.drn_time (d : Nat) (f : DrnSt → DrnSt) (s : State) : ((Op.drn d f).run s).time = s.time := rfl
@[simp] theorem Op.drn_col (d : Nat) (f : DrnSt → DrnSt) (s : State) : ((Op.drn d f).run s).col = s.col := rfl
@[simp] theorem Op.drn_stw (d : Nat) (f : DrnSt → DrnSt) (s : State) : ((Op.drn d f).run s).stw = s.stw := rfl
@[simp] theorem Op.drn_pwr (d : Nat) (f : DrnSt → DrnSt) (s : State) : ((Op.drn d f).run s).pwr = s.pwr := rfl
@[simp] theorem Op.drn_sup (d : Nat) (f : DrnSt → DrnSt) (s : State) : ((Op.drn d f).run s).sup = s.sup := rfl
@[simp] theorem Op.drn_ecc (d : Nat) (f : DrnSt → DrnSt) (s : State) : ((Op.drn d f).run s).ecc = s.ecc := rfl
@[simp] theorem Op.drn_st (d : Nat) (f : DrnSt → DrnSt) (s : State) : ((Op.drn d f).run s).st = s.st := rfl
@[simp] theorem Op.drn_cnt (d : Nat) (f : DrnSt → DrnSt) (s : State) : ((Op.drn d f).run s).cnt = s.cnt := rfl
@[simp] theorem Op.drn_edge (d : Nat) (f : DrnSt → DrnSt) (s : State) : ((Op.drn d f).run s).edge = s.edge := rfl
@[simp] theorem Op.drn_mir (d : Nat) (f : DrnSt → DrnSt) (s : State) : ((Op.drn d f).run s).mir = s.mir := rfl
@[simp] theorem Op.drn_tap (d : Nat) (f : DrnSt → DrnSt) (s : State) : ((Op.drn d f).run s).tap = s.tap := rfl
@[simp] theorem Op.drn_trigOut (d : Nat) (f : DrnSt → DrnSt) (s : State) : ((Op.drn d f).run s).trigOut = s.trigOut := rfl
@[simp] theorem Op.drn_latch (d : Nat) (f : DrnSt → DrnSt) (s : State) : ((Op.drn d f).run s).latch = s.latch := rfl
@[simp] theorem Op.drn_out (d : Nat) (f : DrnSt → DrnSt) (s : State) : ((Op.drn d f).run s).out = s.out := rfl
@[simp] theorem Op.drn_fresh (d : Nat) (f : DrnSt → DrnSt) (s : State) : ((Op.drn d f).run s).fresh = s.fresh := rfl
@[simp] theorem Op.drn_pending (d : Nat) (f : DrnSt → DrnSt) (s : State) : ((Op.drn d f).run s).pending = s.pending := rfl

@[simp] theorem Op.ctx_regs (c : Nat) (f : CtxSt → CtxSt) (s : State) : ((Op.ctx c f).run s).regs = s.regs := rfl
@[simp] theorem Op.ctx_mem (c : Nat) (f : CtxSt → CtxSt) (s : State) : ((Op.ctx c f).run s).mem = s.mem := rfl
@[simp] theorem Op.ctx_poison (c : Nat) (f : CtxSt → CtxSt) (s : State) : ((Op.ctx c f).run s).poison = s.poison := rfl
@[simp] theorem Op.ctx_eng (c : Nat) (f : CtxSt → CtxSt) (s : State) : ((Op.ctx c f).run s).eng = s.eng := rfl
@[simp] theorem Op.ctx_drn (c : Nat) (f : CtxSt → CtxSt) (s : State) : ((Op.ctx c f).run s).drn = s.drn := rfl
@[simp] theorem Op.ctx_ctx (c : Nat) (f : CtxSt → CtxSt) (s : State) : ((Op.ctx c f).run s).ctx = Tab.set s.ctx (fun _ => CtxSt.init) c (f (s.ctxS c)) := rfl
@[simp] theorem Op.ctx_lane (c : Nat) (f : CtxSt → CtxSt) (s : State) : ((Op.ctx c f).run s).lane = s.lane := rfl
@[simp] theorem Op.ctx_time (c : Nat) (f : CtxSt → CtxSt) (s : State) : ((Op.ctx c f).run s).time = s.time := rfl
@[simp] theorem Op.ctx_col (c : Nat) (f : CtxSt → CtxSt) (s : State) : ((Op.ctx c f).run s).col = s.col := rfl
@[simp] theorem Op.ctx_stw (c : Nat) (f : CtxSt → CtxSt) (s : State) : ((Op.ctx c f).run s).stw = s.stw := rfl
@[simp] theorem Op.ctx_pwr (c : Nat) (f : CtxSt → CtxSt) (s : State) : ((Op.ctx c f).run s).pwr = s.pwr := rfl
@[simp] theorem Op.ctx_sup (c : Nat) (f : CtxSt → CtxSt) (s : State) : ((Op.ctx c f).run s).sup = s.sup := rfl
@[simp] theorem Op.ctx_ecc (c : Nat) (f : CtxSt → CtxSt) (s : State) : ((Op.ctx c f).run s).ecc = s.ecc := rfl
@[simp] theorem Op.ctx_st (c : Nat) (f : CtxSt → CtxSt) (s : State) : ((Op.ctx c f).run s).st = s.st := rfl
@[simp] theorem Op.ctx_cnt (c : Nat) (f : CtxSt → CtxSt) (s : State) : ((Op.ctx c f).run s).cnt = s.cnt := rfl
@[simp] theorem Op.ctx_edge (c : Nat) (f : CtxSt → CtxSt) (s : State) : ((Op.ctx c f).run s).edge = s.edge := rfl
@[simp] theorem Op.ctx_mir (c : Nat) (f : CtxSt → CtxSt) (s : State) : ((Op.ctx c f).run s).mir = s.mir := rfl
@[simp] theorem Op.ctx_tap (c : Nat) (f : CtxSt → CtxSt) (s : State) : ((Op.ctx c f).run s).tap = s.tap := rfl
@[simp] theorem Op.ctx_trigOut (c : Nat) (f : CtxSt → CtxSt) (s : State) : ((Op.ctx c f).run s).trigOut = s.trigOut := rfl
@[simp] theorem Op.ctx_latch (c : Nat) (f : CtxSt → CtxSt) (s : State) : ((Op.ctx c f).run s).latch = s.latch := rfl
@[simp] theorem Op.ctx_out (c : Nat) (f : CtxSt → CtxSt) (s : State) : ((Op.ctx c f).run s).out = s.out := rfl
@[simp] theorem Op.ctx_fresh (c : Nat) (f : CtxSt → CtxSt) (s : State) : ((Op.ctx c f).run s).fresh = s.fresh := rfl
@[simp] theorem Op.ctx_pending (c : Nat) (f : CtxSt → CtxSt) (s : State) : ((Op.ctx c f).run s).pending = s.pending := rfl

@[simp] theorem Op.lane_regs (l : Nat) (f : LaneSt → LaneSt) (s : State) : ((Op.lane l f).run s).regs = s.regs := rfl
@[simp] theorem Op.lane_mem (l : Nat) (f : LaneSt → LaneSt) (s : State) : ((Op.lane l f).run s).mem = s.mem := rfl
@[simp] theorem Op.lane_poison (l : Nat) (f : LaneSt → LaneSt) (s : State) : ((Op.lane l f).run s).poison = s.poison := rfl
@[simp] theorem Op.lane_eng (l : Nat) (f : LaneSt → LaneSt) (s : State) : ((Op.lane l f).run s).eng = s.eng := rfl
@[simp] theorem Op.lane_drn (l : Nat) (f : LaneSt → LaneSt) (s : State) : ((Op.lane l f).run s).drn = s.drn := rfl
@[simp] theorem Op.lane_ctx (l : Nat) (f : LaneSt → LaneSt) (s : State) : ((Op.lane l f).run s).ctx = s.ctx := rfl
@[simp] theorem Op.lane_lane (l : Nat) (f : LaneSt → LaneSt) (s : State) : ((Op.lane l f).run s).lane = Tab.set s.lane (fun _ => LaneSt.init) l (f (s.laneS l)) := rfl
@[simp] theorem Op.lane_time (l : Nat) (f : LaneSt → LaneSt) (s : State) : ((Op.lane l f).run s).time = s.time := rfl
@[simp] theorem Op.lane_col (l : Nat) (f : LaneSt → LaneSt) (s : State) : ((Op.lane l f).run s).col = s.col := rfl
@[simp] theorem Op.lane_stw (l : Nat) (f : LaneSt → LaneSt) (s : State) : ((Op.lane l f).run s).stw = s.stw := rfl
@[simp] theorem Op.lane_pwr (l : Nat) (f : LaneSt → LaneSt) (s : State) : ((Op.lane l f).run s).pwr = s.pwr := rfl
@[simp] theorem Op.lane_sup (l : Nat) (f : LaneSt → LaneSt) (s : State) : ((Op.lane l f).run s).sup = s.sup := rfl
@[simp] theorem Op.lane_ecc (l : Nat) (f : LaneSt → LaneSt) (s : State) : ((Op.lane l f).run s).ecc = s.ecc := rfl
@[simp] theorem Op.lane_st (l : Nat) (f : LaneSt → LaneSt) (s : State) : ((Op.lane l f).run s).st = s.st := rfl
@[simp] theorem Op.lane_cnt (l : Nat) (f : LaneSt → LaneSt) (s : State) : ((Op.lane l f).run s).cnt = s.cnt := rfl
@[simp] theorem Op.lane_edge (l : Nat) (f : LaneSt → LaneSt) (s : State) : ((Op.lane l f).run s).edge = s.edge := rfl
@[simp] theorem Op.lane_mir (l : Nat) (f : LaneSt → LaneSt) (s : State) : ((Op.lane l f).run s).mir = s.mir := rfl
@[simp] theorem Op.lane_tap (l : Nat) (f : LaneSt → LaneSt) (s : State) : ((Op.lane l f).run s).tap = s.tap := rfl
@[simp] theorem Op.lane_trigOut (l : Nat) (f : LaneSt → LaneSt) (s : State) : ((Op.lane l f).run s).trigOut = s.trigOut := rfl
@[simp] theorem Op.lane_latch (l : Nat) (f : LaneSt → LaneSt) (s : State) : ((Op.lane l f).run s).latch = s.latch := rfl
@[simp] theorem Op.lane_out (l : Nat) (f : LaneSt → LaneSt) (s : State) : ((Op.lane l f).run s).out = s.out := rfl
@[simp] theorem Op.lane_fresh (l : Nat) (f : LaneSt → LaneSt) (s : State) : ((Op.lane l f).run s).fresh = s.fresh := rfl
@[simp] theorem Op.lane_pending (l : Nat) (f : LaneSt → LaneSt) (s : State) : ((Op.lane l f).run s).pending = s.pending := rfl

@[simp] theorem Op.st_regs (c : Nat) (f : StSt → StSt) (s : State) : ((Op.st c f).run s).regs = s.regs := rfl
@[simp] theorem Op.st_mem (c : Nat) (f : StSt → StSt) (s : State) : ((Op.st c f).run s).mem = s.mem := rfl
@[simp] theorem Op.st_poison (c : Nat) (f : StSt → StSt) (s : State) : ((Op.st c f).run s).poison = s.poison := rfl
@[simp] theorem Op.st_eng (c : Nat) (f : StSt → StSt) (s : State) : ((Op.st c f).run s).eng = s.eng := rfl
@[simp] theorem Op.st_drn (c : Nat) (f : StSt → StSt) (s : State) : ((Op.st c f).run s).drn = s.drn := rfl
@[simp] theorem Op.st_ctx (c : Nat) (f : StSt → StSt) (s : State) : ((Op.st c f).run s).ctx = s.ctx := rfl
@[simp] theorem Op.st_lane (c : Nat) (f : StSt → StSt) (s : State) : ((Op.st c f).run s).lane = s.lane := rfl
@[simp] theorem Op.st_time (c : Nat) (f : StSt → StSt) (s : State) : ((Op.st c f).run s).time = s.time := rfl
@[simp] theorem Op.st_col (c : Nat) (f : StSt → StSt) (s : State) : ((Op.st c f).run s).col = s.col := rfl
@[simp] theorem Op.st_stw (c : Nat) (f : StSt → StSt) (s : State) : ((Op.st c f).run s).stw = s.stw := rfl
@[simp] theorem Op.st_pwr (c : Nat) (f : StSt → StSt) (s : State) : ((Op.st c f).run s).pwr = s.pwr := rfl
@[simp] theorem Op.st_sup (c : Nat) (f : StSt → StSt) (s : State) : ((Op.st c f).run s).sup = s.sup := rfl
@[simp] theorem Op.st_ecc (c : Nat) (f : StSt → StSt) (s : State) : ((Op.st c f).run s).ecc = s.ecc := rfl
@[simp] theorem Op.st_st (c : Nat) (f : StSt → StSt) (s : State) : ((Op.st c f).run s).st = Tab.set s.st (fun _ => StSt.init) c (f (s.stS c)) := rfl
@[simp] theorem Op.st_cnt (c : Nat) (f : StSt → StSt) (s : State) : ((Op.st c f).run s).cnt = s.cnt := rfl
@[simp] theorem Op.st_edge (c : Nat) (f : StSt → StSt) (s : State) : ((Op.st c f).run s).edge = s.edge := rfl
@[simp] theorem Op.st_mir (c : Nat) (f : StSt → StSt) (s : State) : ((Op.st c f).run s).mir = s.mir := rfl
@[simp] theorem Op.st_tap (c : Nat) (f : StSt → StSt) (s : State) : ((Op.st c f).run s).tap = s.tap := rfl
@[simp] theorem Op.st_trigOut (c : Nat) (f : StSt → StSt) (s : State) : ((Op.st c f).run s).trigOut = s.trigOut := rfl
@[simp] theorem Op.st_latch (c : Nat) (f : StSt → StSt) (s : State) : ((Op.st c f).run s).latch = s.latch := rfl
@[simp] theorem Op.st_out (c : Nat) (f : StSt → StSt) (s : State) : ((Op.st c f).run s).out = s.out := rfl
@[simp] theorem Op.st_fresh (c : Nat) (f : StSt → StSt) (s : State) : ((Op.st c f).run s).fresh = s.fresh := rfl
@[simp] theorem Op.st_pending (c : Nat) (f : StSt → StSt) (s : State) : ((Op.st c f).run s).pending = s.pending := rfl

@[simp] theorem Op.time_regs (f : TimeSt → TimeSt) (s : State) : ((Op.time f).run s).regs = s.regs := rfl
@[simp] theorem Op.time_mem (f : TimeSt → TimeSt) (s : State) : ((Op.time f).run s).mem = s.mem := rfl
@[simp] theorem Op.time_poison (f : TimeSt → TimeSt) (s : State) : ((Op.time f).run s).poison = s.poison := rfl
@[simp] theorem Op.time_eng (f : TimeSt → TimeSt) (s : State) : ((Op.time f).run s).eng = s.eng := rfl
@[simp] theorem Op.time_drn (f : TimeSt → TimeSt) (s : State) : ((Op.time f).run s).drn = s.drn := rfl
@[simp] theorem Op.time_ctx (f : TimeSt → TimeSt) (s : State) : ((Op.time f).run s).ctx = s.ctx := rfl
@[simp] theorem Op.time_lane (f : TimeSt → TimeSt) (s : State) : ((Op.time f).run s).lane = s.lane := rfl
@[simp] theorem Op.time_time (f : TimeSt → TimeSt) (s : State) : ((Op.time f).run s).time = f s.time := rfl
@[simp] theorem Op.time_col (f : TimeSt → TimeSt) (s : State) : ((Op.time f).run s).col = s.col := rfl
@[simp] theorem Op.time_stw (f : TimeSt → TimeSt) (s : State) : ((Op.time f).run s).stw = s.stw := rfl
@[simp] theorem Op.time_pwr (f : TimeSt → TimeSt) (s : State) : ((Op.time f).run s).pwr = s.pwr := rfl
@[simp] theorem Op.time_sup (f : TimeSt → TimeSt) (s : State) : ((Op.time f).run s).sup = s.sup := rfl
@[simp] theorem Op.time_ecc (f : TimeSt → TimeSt) (s : State) : ((Op.time f).run s).ecc = s.ecc := rfl
@[simp] theorem Op.time_st (f : TimeSt → TimeSt) (s : State) : ((Op.time f).run s).st = s.st := rfl
@[simp] theorem Op.time_cnt (f : TimeSt → TimeSt) (s : State) : ((Op.time f).run s).cnt = s.cnt := rfl
@[simp] theorem Op.time_edge (f : TimeSt → TimeSt) (s : State) : ((Op.time f).run s).edge = s.edge := rfl
@[simp] theorem Op.time_mir (f : TimeSt → TimeSt) (s : State) : ((Op.time f).run s).mir = s.mir := rfl
@[simp] theorem Op.time_tap (f : TimeSt → TimeSt) (s : State) : ((Op.time f).run s).tap = s.tap := rfl
@[simp] theorem Op.time_trigOut (f : TimeSt → TimeSt) (s : State) : ((Op.time f).run s).trigOut = s.trigOut := rfl
@[simp] theorem Op.time_latch (f : TimeSt → TimeSt) (s : State) : ((Op.time f).run s).latch = s.latch := rfl
@[simp] theorem Op.time_out (f : TimeSt → TimeSt) (s : State) : ((Op.time f).run s).out = s.out := rfl
@[simp] theorem Op.time_fresh (f : TimeSt → TimeSt) (s : State) : ((Op.time f).run s).fresh = s.fresh := rfl
@[simp] theorem Op.time_pending (f : TimeSt → TimeSt) (s : State) : ((Op.time f).run s).pending = s.pending := rfl

@[simp] theorem Op.col_regs (f : ColSt → ColSt) (s : State) : ((Op.col f).run s).regs = s.regs := rfl
@[simp] theorem Op.col_mem (f : ColSt → ColSt) (s : State) : ((Op.col f).run s).mem = s.mem := rfl
@[simp] theorem Op.col_poison (f : ColSt → ColSt) (s : State) : ((Op.col f).run s).poison = s.poison := rfl
@[simp] theorem Op.col_eng (f : ColSt → ColSt) (s : State) : ((Op.col f).run s).eng = s.eng := rfl
@[simp] theorem Op.col_drn (f : ColSt → ColSt) (s : State) : ((Op.col f).run s).drn = s.drn := rfl
@[simp] theorem Op.col_ctx (f : ColSt → ColSt) (s : State) : ((Op.col f).run s).ctx = s.ctx := rfl
@[simp] theorem Op.col_lane (f : ColSt → ColSt) (s : State) : ((Op.col f).run s).lane = s.lane := rfl
@[simp] theorem Op.col_time (f : ColSt → ColSt) (s : State) : ((Op.col f).run s).time = s.time := rfl
@[simp] theorem Op.col_col (f : ColSt → ColSt) (s : State) : ((Op.col f).run s).col = f s.col := rfl
@[simp] theorem Op.col_stw (f : ColSt → ColSt) (s : State) : ((Op.col f).run s).stw = s.stw := rfl
@[simp] theorem Op.col_pwr (f : ColSt → ColSt) (s : State) : ((Op.col f).run s).pwr = s.pwr := rfl
@[simp] theorem Op.col_sup (f : ColSt → ColSt) (s : State) : ((Op.col f).run s).sup = s.sup := rfl
@[simp] theorem Op.col_ecc (f : ColSt → ColSt) (s : State) : ((Op.col f).run s).ecc = s.ecc := rfl
@[simp] theorem Op.col_st (f : ColSt → ColSt) (s : State) : ((Op.col f).run s).st = s.st := rfl
@[simp] theorem Op.col_cnt (f : ColSt → ColSt) (s : State) : ((Op.col f).run s).cnt = s.cnt := rfl
@[simp] theorem Op.col_edge (f : ColSt → ColSt) (s : State) : ((Op.col f).run s).edge = s.edge := rfl
@[simp] theorem Op.col_mir (f : ColSt → ColSt) (s : State) : ((Op.col f).run s).mir = s.mir := rfl
@[simp] theorem Op.col_tap (f : ColSt → ColSt) (s : State) : ((Op.col f).run s).tap = s.tap := rfl
@[simp] theorem Op.col_trigOut (f : ColSt → ColSt) (s : State) : ((Op.col f).run s).trigOut = s.trigOut := rfl
@[simp] theorem Op.col_latch (f : ColSt → ColSt) (s : State) : ((Op.col f).run s).latch = s.latch := rfl
@[simp] theorem Op.col_out (f : ColSt → ColSt) (s : State) : ((Op.col f).run s).out = s.out := rfl
@[simp] theorem Op.col_fresh (f : ColSt → ColSt) (s : State) : ((Op.col f).run s).fresh = s.fresh := rfl
@[simp] theorem Op.col_pending (f : ColSt → ColSt) (s : State) : ((Op.col f).run s).pending = s.pending := rfl

@[simp] theorem Op.stw_regs (f : StwSt → StwSt) (s : State) : ((Op.stw f).run s).regs = s.regs := rfl
@[simp] theorem Op.stw_mem (f : StwSt → StwSt) (s : State) : ((Op.stw f).run s).mem = s.mem := rfl
@[simp] theorem Op.stw_poison (f : StwSt → StwSt) (s : State) : ((Op.stw f).run s).poison = s.poison := rfl
@[simp] theorem Op.stw_eng (f : StwSt → StwSt) (s : State) : ((Op.stw f).run s).eng = s.eng := rfl
@[simp] theorem Op.stw_drn (f : StwSt → StwSt) (s : State) : ((Op.stw f).run s).drn = s.drn := rfl
@[simp] theorem Op.stw_ctx (f : StwSt → StwSt) (s : State) : ((Op.stw f).run s).ctx = s.ctx := rfl
@[simp] theorem Op.stw_lane (f : StwSt → StwSt) (s : State) : ((Op.stw f).run s).lane = s.lane := rfl
@[simp] theorem Op.stw_time (f : StwSt → StwSt) (s : State) : ((Op.stw f).run s).time = s.time := rfl
@[simp] theorem Op.stw_col (f : StwSt → StwSt) (s : State) : ((Op.stw f).run s).col = s.col := rfl
@[simp] theorem Op.stw_stw (f : StwSt → StwSt) (s : State) : ((Op.stw f).run s).stw = f s.stw := rfl
@[simp] theorem Op.stw_pwr (f : StwSt → StwSt) (s : State) : ((Op.stw f).run s).pwr = s.pwr := rfl
@[simp] theorem Op.stw_sup (f : StwSt → StwSt) (s : State) : ((Op.stw f).run s).sup = s.sup := rfl
@[simp] theorem Op.stw_ecc (f : StwSt → StwSt) (s : State) : ((Op.stw f).run s).ecc = s.ecc := rfl
@[simp] theorem Op.stw_st (f : StwSt → StwSt) (s : State) : ((Op.stw f).run s).st = s.st := rfl
@[simp] theorem Op.stw_cnt (f : StwSt → StwSt) (s : State) : ((Op.stw f).run s).cnt = s.cnt := rfl
@[simp] theorem Op.stw_edge (f : StwSt → StwSt) (s : State) : ((Op.stw f).run s).edge = s.edge := rfl
@[simp] theorem Op.stw_mir (f : StwSt → StwSt) (s : State) : ((Op.stw f).run s).mir = s.mir := rfl
@[simp] theorem Op.stw_tap (f : StwSt → StwSt) (s : State) : ((Op.stw f).run s).tap = s.tap := rfl
@[simp] theorem Op.stw_trigOut (f : StwSt → StwSt) (s : State) : ((Op.stw f).run s).trigOut = s.trigOut := rfl
@[simp] theorem Op.stw_latch (f : StwSt → StwSt) (s : State) : ((Op.stw f).run s).latch = s.latch := rfl
@[simp] theorem Op.stw_out (f : StwSt → StwSt) (s : State) : ((Op.stw f).run s).out = s.out := rfl
@[simp] theorem Op.stw_fresh (f : StwSt → StwSt) (s : State) : ((Op.stw f).run s).fresh = s.fresh := rfl
@[simp] theorem Op.stw_pending (f : StwSt → StwSt) (s : State) : ((Op.stw f).run s).pending = s.pending := rfl

@[simp] theorem Op.pwr_regs (f : PwrSt → PwrSt) (s : State) : ((Op.pwr f).run s).regs = s.regs := rfl
@[simp] theorem Op.pwr_mem (f : PwrSt → PwrSt) (s : State) : ((Op.pwr f).run s).mem = s.mem := rfl
@[simp] theorem Op.pwr_poison (f : PwrSt → PwrSt) (s : State) : ((Op.pwr f).run s).poison = s.poison := rfl
@[simp] theorem Op.pwr_eng (f : PwrSt → PwrSt) (s : State) : ((Op.pwr f).run s).eng = s.eng := rfl
@[simp] theorem Op.pwr_drn (f : PwrSt → PwrSt) (s : State) : ((Op.pwr f).run s).drn = s.drn := rfl
@[simp] theorem Op.pwr_ctx (f : PwrSt → PwrSt) (s : State) : ((Op.pwr f).run s).ctx = s.ctx := rfl
@[simp] theorem Op.pwr_lane (f : PwrSt → PwrSt) (s : State) : ((Op.pwr f).run s).lane = s.lane := rfl
@[simp] theorem Op.pwr_time (f : PwrSt → PwrSt) (s : State) : ((Op.pwr f).run s).time = s.time := rfl
@[simp] theorem Op.pwr_col (f : PwrSt → PwrSt) (s : State) : ((Op.pwr f).run s).col = s.col := rfl
@[simp] theorem Op.pwr_stw (f : PwrSt → PwrSt) (s : State) : ((Op.pwr f).run s).stw = s.stw := rfl
@[simp] theorem Op.pwr_pwr (f : PwrSt → PwrSt) (s : State) : ((Op.pwr f).run s).pwr = f s.pwr := rfl
@[simp] theorem Op.pwr_sup (f : PwrSt → PwrSt) (s : State) : ((Op.pwr f).run s).sup = s.sup := rfl
@[simp] theorem Op.pwr_ecc (f : PwrSt → PwrSt) (s : State) : ((Op.pwr f).run s).ecc = s.ecc := rfl
@[simp] theorem Op.pwr_st (f : PwrSt → PwrSt) (s : State) : ((Op.pwr f).run s).st = s.st := rfl
@[simp] theorem Op.pwr_cnt (f : PwrSt → PwrSt) (s : State) : ((Op.pwr f).run s).cnt = s.cnt := rfl
@[simp] theorem Op.pwr_edge (f : PwrSt → PwrSt) (s : State) : ((Op.pwr f).run s).edge = s.edge := rfl
@[simp] theorem Op.pwr_mir (f : PwrSt → PwrSt) (s : State) : ((Op.pwr f).run s).mir = s.mir := rfl
@[simp] theorem Op.pwr_tap (f : PwrSt → PwrSt) (s : State) : ((Op.pwr f).run s).tap = s.tap := rfl
@[simp] theorem Op.pwr_trigOut (f : PwrSt → PwrSt) (s : State) : ((Op.pwr f).run s).trigOut = s.trigOut := rfl
@[simp] theorem Op.pwr_latch (f : PwrSt → PwrSt) (s : State) : ((Op.pwr f).run s).latch = s.latch := rfl
@[simp] theorem Op.pwr_out (f : PwrSt → PwrSt) (s : State) : ((Op.pwr f).run s).out = s.out := rfl
@[simp] theorem Op.pwr_fresh (f : PwrSt → PwrSt) (s : State) : ((Op.pwr f).run s).fresh = s.fresh := rfl
@[simp] theorem Op.pwr_pending (f : PwrSt → PwrSt) (s : State) : ((Op.pwr f).run s).pending = s.pending := rfl

@[simp] theorem Op.ecc_regs (f : EccSt → EccSt) (s : State) : ((Op.ecc f).run s).regs = s.regs := rfl
@[simp] theorem Op.ecc_mem (f : EccSt → EccSt) (s : State) : ((Op.ecc f).run s).mem = s.mem := rfl
@[simp] theorem Op.ecc_poison (f : EccSt → EccSt) (s : State) : ((Op.ecc f).run s).poison = s.poison := rfl
@[simp] theorem Op.ecc_eng (f : EccSt → EccSt) (s : State) : ((Op.ecc f).run s).eng = s.eng := rfl
@[simp] theorem Op.ecc_drn (f : EccSt → EccSt) (s : State) : ((Op.ecc f).run s).drn = s.drn := rfl
@[simp] theorem Op.ecc_ctx (f : EccSt → EccSt) (s : State) : ((Op.ecc f).run s).ctx = s.ctx := rfl
@[simp] theorem Op.ecc_lane (f : EccSt → EccSt) (s : State) : ((Op.ecc f).run s).lane = s.lane := rfl
@[simp] theorem Op.ecc_time (f : EccSt → EccSt) (s : State) : ((Op.ecc f).run s).time = s.time := rfl
@[simp] theorem Op.ecc_col (f : EccSt → EccSt) (s : State) : ((Op.ecc f).run s).col = s.col := rfl
@[simp] theorem Op.ecc_stw (f : EccSt → EccSt) (s : State) : ((Op.ecc f).run s).stw = s.stw := rfl
@[simp] theorem Op.ecc_pwr (f : EccSt → EccSt) (s : State) : ((Op.ecc f).run s).pwr = s.pwr := rfl
@[simp] theorem Op.ecc_sup (f : EccSt → EccSt) (s : State) : ((Op.ecc f).run s).sup = s.sup := rfl
@[simp] theorem Op.ecc_ecc (f : EccSt → EccSt) (s : State) : ((Op.ecc f).run s).ecc = f s.ecc := rfl
@[simp] theorem Op.ecc_st (f : EccSt → EccSt) (s : State) : ((Op.ecc f).run s).st = s.st := rfl
@[simp] theorem Op.ecc_cnt (f : EccSt → EccSt) (s : State) : ((Op.ecc f).run s).cnt = s.cnt := rfl
@[simp] theorem Op.ecc_edge (f : EccSt → EccSt) (s : State) : ((Op.ecc f).run s).edge = s.edge := rfl
@[simp] theorem Op.ecc_mir (f : EccSt → EccSt) (s : State) : ((Op.ecc f).run s).mir = s.mir := rfl
@[simp] theorem Op.ecc_tap (f : EccSt → EccSt) (s : State) : ((Op.ecc f).run s).tap = s.tap := rfl
@[simp] theorem Op.ecc_trigOut (f : EccSt → EccSt) (s : State) : ((Op.ecc f).run s).trigOut = s.trigOut := rfl
@[simp] theorem Op.ecc_latch (f : EccSt → EccSt) (s : State) : ((Op.ecc f).run s).latch = s.latch := rfl
@[simp] theorem Op.ecc_out (f : EccSt → EccSt) (s : State) : ((Op.ecc f).run s).out = s.out := rfl
@[simp] theorem Op.ecc_fresh (f : EccSt → EccSt) (s : State) : ((Op.ecc f).run s).fresh = s.fresh := rfl
@[simp] theorem Op.ecc_pending (f : EccSt → EccSt) (s : State) : ((Op.ecc f).run s).pending = s.pending := rfl

@[simp] theorem Op.cnt_regs (f : CntSt → CntSt) (s : State) : ((Op.cnt f).run s).regs = s.regs := rfl
@[simp] theorem Op.cnt_mem (f : CntSt → CntSt) (s : State) : ((Op.cnt f).run s).mem = s.mem := rfl
@[simp] theorem Op.cnt_poison (f : CntSt → CntSt) (s : State) : ((Op.cnt f).run s).poison = s.poison := rfl
@[simp] theorem Op.cnt_eng (f : CntSt → CntSt) (s : State) : ((Op.cnt f).run s).eng = s.eng := rfl
@[simp] theorem Op.cnt_drn (f : CntSt → CntSt) (s : State) : ((Op.cnt f).run s).drn = s.drn := rfl
@[simp] theorem Op.cnt_ctx (f : CntSt → CntSt) (s : State) : ((Op.cnt f).run s).ctx = s.ctx := rfl
@[simp] theorem Op.cnt_lane (f : CntSt → CntSt) (s : State) : ((Op.cnt f).run s).lane = s.lane := rfl
@[simp] theorem Op.cnt_time (f : CntSt → CntSt) (s : State) : ((Op.cnt f).run s).time = s.time := rfl
@[simp] theorem Op.cnt_col (f : CntSt → CntSt) (s : State) : ((Op.cnt f).run s).col = s.col := rfl
@[simp] theorem Op.cnt_stw (f : CntSt → CntSt) (s : State) : ((Op.cnt f).run s).stw = s.stw := rfl
@[simp] theorem Op.cnt_pwr (f : CntSt → CntSt) (s : State) : ((Op.cnt f).run s).pwr = s.pwr := rfl
@[simp] theorem Op.cnt_sup (f : CntSt → CntSt) (s : State) : ((Op.cnt f).run s).sup = s.sup := rfl
@[simp] theorem Op.cnt_ecc (f : CntSt → CntSt) (s : State) : ((Op.cnt f).run s).ecc = s.ecc := rfl
@[simp] theorem Op.cnt_st (f : CntSt → CntSt) (s : State) : ((Op.cnt f).run s).st = s.st := rfl
@[simp] theorem Op.cnt_cnt (f : CntSt → CntSt) (s : State) : ((Op.cnt f).run s).cnt = f s.cnt := rfl
@[simp] theorem Op.cnt_edge (f : CntSt → CntSt) (s : State) : ((Op.cnt f).run s).edge = s.edge := rfl
@[simp] theorem Op.cnt_mir (f : CntSt → CntSt) (s : State) : ((Op.cnt f).run s).mir = s.mir := rfl
@[simp] theorem Op.cnt_tap (f : CntSt → CntSt) (s : State) : ((Op.cnt f).run s).tap = s.tap := rfl
@[simp] theorem Op.cnt_trigOut (f : CntSt → CntSt) (s : State) : ((Op.cnt f).run s).trigOut = s.trigOut := rfl
@[simp] theorem Op.cnt_latch (f : CntSt → CntSt) (s : State) : ((Op.cnt f).run s).latch = s.latch := rfl
@[simp] theorem Op.cnt_out (f : CntSt → CntSt) (s : State) : ((Op.cnt f).run s).out = s.out := rfl
@[simp] theorem Op.cnt_fresh (f : CntSt → CntSt) (s : State) : ((Op.cnt f).run s).fresh = s.fresh := rfl
@[simp] theorem Op.cnt_pending (f : CntSt → CntSt) (s : State) : ((Op.cnt f).run s).pending = s.pending := rfl

@[simp] theorem Op.emit_regs (o : Output) (s : State) : ((Op.emit o).run s).regs = s.regs := rfl
@[simp] theorem Op.emit_mem (o : Output) (s : State) : ((Op.emit o).run s).mem = s.mem := rfl
@[simp] theorem Op.emit_poison (o : Output) (s : State) : ((Op.emit o).run s).poison = s.poison := rfl
@[simp] theorem Op.emit_eng (o : Output) (s : State) : ((Op.emit o).run s).eng = s.eng := rfl
@[simp] theorem Op.emit_drn (o : Output) (s : State) : ((Op.emit o).run s).drn = s.drn := rfl
@[simp] theorem Op.emit_ctx (o : Output) (s : State) : ((Op.emit o).run s).ctx = s.ctx := rfl
@[simp] theorem Op.emit_lane (o : Output) (s : State) : ((Op.emit o).run s).lane = s.lane := rfl
@[simp] theorem Op.emit_time (o : Output) (s : State) : ((Op.emit o).run s).time = s.time := rfl
@[simp] theorem Op.emit_col (o : Output) (s : State) : ((Op.emit o).run s).col = s.col := rfl
@[simp] theorem Op.emit_stw (o : Output) (s : State) : ((Op.emit o).run s).stw = s.stw := rfl
@[simp] theorem Op.emit_pwr (o : Output) (s : State) : ((Op.emit o).run s).pwr = s.pwr := rfl
@[simp] theorem Op.emit_sup (o : Output) (s : State) : ((Op.emit o).run s).sup = s.sup := rfl
@[simp] theorem Op.emit_ecc (o : Output) (s : State) : ((Op.emit o).run s).ecc = s.ecc := rfl
@[simp] theorem Op.emit_st (o : Output) (s : State) : ((Op.emit o).run s).st = s.st := rfl
@[simp] theorem Op.emit_cnt (o : Output) (s : State) : ((Op.emit o).run s).cnt = s.cnt := rfl
@[simp] theorem Op.emit_edge (o : Output) (s : State) : ((Op.emit o).run s).edge = s.edge := rfl
@[simp] theorem Op.emit_mir (o : Output) (s : State) : ((Op.emit o).run s).mir = s.mir := rfl
@[simp] theorem Op.emit_tap (o : Output) (s : State) : ((Op.emit o).run s).tap = s.tap := rfl
@[simp] theorem Op.emit_trigOut (o : Output) (s : State) : ((Op.emit o).run s).trigOut = s.trigOut := rfl
@[simp] theorem Op.emit_latch (o : Output) (s : State) : ((Op.emit o).run s).latch = s.latch := rfl
@[simp] theorem Op.emit_out (o : Output) (s : State) : ((Op.emit o).run s).out = s.out ++ [o] := rfl
@[simp] theorem Op.emit_fresh (o : Output) (s : State) : ((Op.emit o).run s).fresh = s.fresh := rfl
@[simp] theorem Op.emit_pending (o : Output) (s : State) : ((Op.emit o).run s).pending = s.pending := rfl

@[simp] theorem Op.latch_regs (p : Party) (a : Nat) (v : W) (s : State) : ((Op.latch p a v).run s).regs = s.regs := rfl
@[simp] theorem Op.latch_mem (p : Party) (a : Nat) (v : W) (s : State) : ((Op.latch p a v).run s).mem = s.mem := rfl
@[simp] theorem Op.latch_poison (p : Party) (a : Nat) (v : W) (s : State) : ((Op.latch p a v).run s).poison = s.poison := rfl
@[simp] theorem Op.latch_eng (p : Party) (a : Nat) (v : W) (s : State) : ((Op.latch p a v).run s).eng = s.eng := rfl
@[simp] theorem Op.latch_drn (p : Party) (a : Nat) (v : W) (s : State) : ((Op.latch p a v).run s).drn = s.drn := rfl
@[simp] theorem Op.latch_ctx (p : Party) (a : Nat) (v : W) (s : State) : ((Op.latch p a v).run s).ctx = s.ctx := rfl
@[simp] theorem Op.latch_lane (p : Party) (a : Nat) (v : W) (s : State) : ((Op.latch p a v).run s).lane = s.lane := rfl
@[simp] theorem Op.latch_time (p : Party) (a : Nat) (v : W) (s : State) : ((Op.latch p a v).run s).time = s.time := rfl
@[simp] theorem Op.latch_col (p : Party) (a : Nat) (v : W) (s : State) : ((Op.latch p a v).run s).col = s.col := rfl
@[simp] theorem Op.latch_stw (p : Party) (a : Nat) (v : W) (s : State) : ((Op.latch p a v).run s).stw = s.stw := rfl
@[simp] theorem Op.latch_pwr (p : Party) (a : Nat) (v : W) (s : State) : ((Op.latch p a v).run s).pwr = s.pwr := rfl
@[simp] theorem Op.latch_sup (p : Party) (a : Nat) (v : W) (s : State) : ((Op.latch p a v).run s).sup = s.sup := rfl
@[simp] theorem Op.latch_ecc (p : Party) (a : Nat) (v : W) (s : State) : ((Op.latch p a v).run s).ecc = s.ecc := rfl
@[simp] theorem Op.latch_st (p : Party) (a : Nat) (v : W) (s : State) : ((Op.latch p a v).run s).st = s.st := rfl
@[simp] theorem Op.latch_cnt (p : Party) (a : Nat) (v : W) (s : State) : ((Op.latch p a v).run s).cnt = s.cnt := rfl
@[simp] theorem Op.latch_edge (p : Party) (a : Nat) (v : W) (s : State) : ((Op.latch p a v).run s).edge = s.edge := rfl
@[simp] theorem Op.latch_mir (p : Party) (a : Nat) (v : W) (s : State) : ((Op.latch p a v).run s).mir = s.mir := rfl
@[simp] theorem Op.latch_tap (p : Party) (a : Nat) (v : W) (s : State) : ((Op.latch p a v).run s).tap = s.tap := rfl
@[simp] theorem Op.latch_trigOut (p : Party) (a : Nat) (v : W) (s : State) : ((Op.latch p a v).run s).trigOut = s.trigOut := rfl
@[simp] theorem Op.latch_latch (p : Party) (a : Nat) (v : W) (s : State) : ((Op.latch p a v).run s).latch = Tab.set s.latch (fun _ => 0#32) (partyCode p * 0x100000000 + a) v := rfl
@[simp] theorem Op.latch_out (p : Party) (a : Nat) (v : W) (s : State) : ((Op.latch p a v).run s).out = s.out := rfl
@[simp] theorem Op.latch_fresh (p : Party) (a : Nat) (v : W) (s : State) : ((Op.latch p a v).run s).fresh = s.fresh := rfl
@[simp] theorem Op.latch_pending (p : Party) (a : Nat) (v : W) (s : State) : ((Op.latch p a v).run s).pending = s.pending := rfl

@[simp] theorem State.quiet_regs (s : State) : s.quiet.regs = s.regs := rfl
@[simp] theorem State.quiet_mem (s : State) : s.quiet.mem = s.mem := rfl
@[simp] theorem State.quiet_poison (s : State) : s.quiet.poison = s.poison := rfl
@[simp] theorem State.quiet_eng (s : State) : s.quiet.eng = s.eng := rfl
@[simp] theorem State.quiet_drn (s : State) : s.quiet.drn = s.drn := rfl
@[simp] theorem State.quiet_ctx (s : State) : s.quiet.ctx = s.ctx := rfl
@[simp] theorem State.quiet_lane (s : State) : s.quiet.lane = s.lane := rfl
@[simp] theorem State.quiet_time (s : State) : s.quiet.time = s.time := rfl
@[simp] theorem State.quiet_col (s : State) : s.quiet.col = s.col := rfl
@[simp] theorem State.quiet_stw (s : State) : s.quiet.stw = s.stw := rfl
@[simp] theorem State.quiet_pwr (s : State) : s.quiet.pwr = s.pwr := rfl
@[simp] theorem State.quiet_sup (s : State) : s.quiet.sup = s.sup := rfl
@[simp] theorem State.quiet_ecc (s : State) : s.quiet.ecc = s.ecc := rfl
@[simp] theorem State.quiet_st (s : State) : s.quiet.st = s.st := rfl
@[simp] theorem State.quiet_cnt (s : State) : s.quiet.cnt = s.cnt := rfl
@[simp] theorem State.quiet_edge (s : State) : s.quiet.edge = s.edge := rfl
@[simp] theorem State.quiet_mir (s : State) : s.quiet.mir = s.mir := rfl
@[simp] theorem State.quiet_tap (s : State) : s.quiet.tap = s.tap := rfl
@[simp] theorem State.quiet_trigOut (s : State) : s.quiet.trigOut = s.trigOut := rfl
@[simp] theorem State.quiet_latch (s : State) : s.quiet.latch = s.latch := rfl
@[simp] theorem State.quiet_out (s : State) : s.quiet.out = [] := rfl
@[simp] theorem State.quiet_fresh (s : State) : s.quiet.fresh = s.fresh := rfl
@[simp] theorem State.quiet_pending (s : State) : s.quiet.pending = s.pending := rfl

@[simp] theorem State.quiet_reg (s : State) (a : Nat) : s.quiet.reg a = s.reg a := rfl
@[simp] theorem State.quiet_fld (s : State) (a : Nat) (f : Fld) : s.quiet.fld a f = s.fld a f := rfl
@[simp] theorem State.quiet_bit (s : State) (a : Nat) (f : Fld) : s.quiet.bit a f = s.bit a f := rfl
@[simp] theorem State.quiet_byte (s : State) (k : Nat) : s.quiet.byte k = s.byte k := rfl
@[simp] theorem State.quiet_word (s : State) (k : Nat) : s.quiet.word k = s.word k := rfl
@[simp] theorem State.quiet_engS (s : State) (n : Nat) : s.quiet.engS n = s.engS n := rfl
@[simp] theorem State.quiet_drnS (s : State) (d : Nat) : s.quiet.drnS d = s.drnS d := rfl
@[simp] theorem State.quiet_ctxS (s : State) (c : Nat) : s.quiet.ctxS c = s.ctxS c := rfl
@[simp] theorem State.quiet_laneS (s : State) (l : Nat) : s.quiet.laneS l = s.laneS l := rfl
@[simp] theorem State.quiet_stS (s : State) (c : Nat) : s.quiet.stS c = s.stS c := rfl
@[simp] theorem State.quiet_edgeS (s : State) (e : Nat) : s.quiet.edgeS e = s.edgeS e := rfl
@[simp] theorem State.quiet_pairV (s : State) (k : Nat) : s.quiet.pairV k = s.pairV k := rfl
@[simp] theorem State.quiet_latched (s : State) (p : Party) (a : Nat) : s.quiet.latched p a = s.latched p a := rfl
@[simp] theorem State.quiet_domState (s : State) (d : Nat) : s.quiet.domState d = s.domState d := rfl
@[simp] theorem State.quiet_inRun (s : State) (d : Nat) : s.quiet.inRun d = s.inRun d := rfl
@[simp] theorem State.quiet_served (s : State) (d : Nat) : s.quiet.served d = s.served d := rfl

end Sys2Proof.Machine
end

