-- ==== Sys2Proof/Laws/Op.lean ====
section
/-! SUPPORT. How a composed operation runs, what its parts leave unchanged, and what the parts read back. -/
namespace Sys2Proof.Machine

/-! Running. -/

@[simp] theorem Op.skip_run (s : State) : Op.skip.run s = s := rfl
@[simp] theorem Op.thn_run (a b : Op) (s : State) : (Op.thn a b).run s = b.run (a.run s) := rfl
@[simp] theorem Op.all_nil_run (s : State) : (Op.all []).run s = s := rfl
@[simp] theorem Op.all_cons_run (a : Op) (r : List Op) (s : State) : (Op.all (a :: r)).run s = (Op.all r).run (a.run s) := rfl
@[simp] theorem Op.dyn_run (f : State → Op) (s : State) : (Op.dyn f).run s = (f s).run s := rfl
@[simp] theorem Op.when_true (o : Op) : Op.when true o = o := rfl
@[simp] theorem Op.when_false (o : Op) : Op.when false o = Op.skip := rfl
@[simp] theorem Op.each_nil {α : Type} (f : α → Op) (s : State) : (Op.each [] f).run s = s := rfl
@[simp] theorem Op.each_cons {α : Type} (x : α) (r : List α) (f : α → Op) (s : State) :
    (Op.each (x :: r) f).run s = (Op.each r f).run ((f x).run s) := rfl
@[simp] theorem Op.mod_run (f : State → State) (h) (s : State) : (Op.mod f h).run s = f s := rfl
theorem Op.next_eq (o : Op) (s : State) : o.next s = .next (o.run s.quiet) := rfl
theorem Op.setF_run (a : Nat) (f : Fld) (v : Nat) (s : State) :
    (Op.setF a f v).run s = (Op.wr a (setFld (s.reg a) f v)).run s := rfl
theorem Op.flag_run (a : Nat) (f : Fld) (s : State) : (Op.flag a f).run s = (Op.setF a f 1).run s := rfl

/-! What an operation leaves unchanged. -/

/-- The operation leaves an observation of the state unchanged. -/
def Op.Keeps {α : Type} (o : Op) (g : State → α) : Prop := ∀ s, g (o.run s) = g s

theorem Op.keeps_skip {α : Type} (g : State → α) : Op.skip.Keeps g := fun _ => rfl
theorem Op.keeps_thn {α : Type} {g : State → α} {a b : Op} (ha : a.Keeps g) (hb : b.Keeps g) : (Op.thn a b).Keeps g :=
  fun s => (hb _).trans (ha s)
theorem Op.keeps_all {α : Type} {g : State → α} {l : List Op} (h : ∀ o ∈ l, o.Keeps g) : (Op.all l).Keeps g := by
  induction l with
  | nil => exact Op.keeps_skip g
  | cons a r ih => exact Op.keeps_thn (h a (by simp)) (ih fun o ho => h o (by simp [ho]))
theorem Op.keeps_dyn {α : Type} {g : State → α} {f : State → Op} (h : ∀ s, (f s).Keeps g) : (Op.dyn f).Keeps g :=
  fun s => h s s
theorem Op.keeps_when {α : Type} {g : State → α} {c : Bool} {o : Op} (h : o.Keeps g) : (Op.when c o).Keeps g := by
  cases c
  · exact Op.keeps_skip g
  · exact h
theorem Op.keeps_ite {α : Type} {g : State → α} {c : Prop} [Decidable c] {a b : Op} (ha : a.Keeps g) (hb : b.Keeps g) :
    (if c then a else b).Keeps g := by split <;> assumption
theorem Op.keeps_each {α β : Type} {g : State → α} {l : List β} {f : β → Op} (h : ∀ x, (f x).Keeps g) : (Op.each l f).Keeps g := by
  apply Op.keeps_all
  intro o ho
  obtain ⟨x, -, rfl⟩ := List.mem_map.1 ho
  exact h x
theorem Op.keeps_mod {α : Type} {g : State → α} {f : State → State} {hf} (h : ∀ s, g (f s) = g s) : (Op.mod f hf).Keeps g := h
/-- A composed operation as one step of a meaning: the outcome keeps what the operation keeps. -/
theorem Op.next_keeps {α : Type} {g : State → α} {o : Op} {s t : State} (h : o.Keeps g) (hg : g s.quiet = g s)
    (e : o.next s = .next t) : g t = g s := by
  unfold Op.next at e
  injection e with e
  rw [← e, h, hg]

/-! Registers. -/

/-- A register reads back what was written to its implemented bits (R10). -/
@[simp] theorem Op.wr_reg_same (a : Nat) (v : W) (s : State) : ((Op.wr a v).run s).reg a = v &&& impOf a := by
  simp [State.reg, Regs.set]
/-- A write of one register leaves every other register alone. -/
theorem Op.wr_reg_other {a b : Nat} (v : W) (s : State) (h : b ≠ a) : ((Op.wr a v).run s).reg b = s.reg b := by
  simp only [State.reg, Op.wr_regs, Regs.set]
  exact Tab.get_set_other _ _ _ h
theorem Op.wr_reg (a b : Nat) (v : W) (s : State) : ((Op.wr a v).run s).reg b = if b = a then v &&& impOf a else s.reg b := by
  by_cases h : b = a
  · subst h; simp
  · simp [h, Op.wr_reg_other v s h]
theorem Op.keeps_wr {a b : Nat} {v : W} (h : b ≠ a) : (Op.wr a v).Keeps fun s => s.reg b := fun s => Op.wr_reg_other v s h
theorem Op.keeps_setF {a b : Nat} {f : Fld} {v : Nat} (h : b ≠ a) : (Op.setF a f v).Keeps fun s => s.reg b :=
  Op.keeps_dyn fun _ => Op.keeps_wr h
theorem Op.keeps_count {a b k : Nat} (h : b ≠ a) : (Op.count a k).Keeps fun s => s.reg b :=
  Op.keeps_dyn fun _ => Op.keeps_wr h
/-- A byte reads back, and every other byte is left alone. -/
@[simp] theorem Op.byte_byte_same (k : Nat) (b : Byte) (s : State) : ((Op.byte k b).run s).byte k = b := by
  simp [State.byte]
theorem Op.byte_byte_other {k j : Nat} (b : Byte) (s : State) (h : j ≠ k) : ((Op.byte k b).run s).byte j = s.byte j := by
  simp only [State.byte, Op.byte_mem]
  exact Tab.get_set_other _ _ _ h

/-! Units. -/

@[simp] theorem Op.eng_engS_same (n : Nat) (f : EngSt → EngSt) (s : State) : ((Op.eng n f).run s).engS n = f (s.engS n) := by
  simp [State.engS]
theorem Op.eng_engS_other {n m : Nat} (f : EngSt → EngSt) (s : State) (h : m ≠ n) : ((Op.eng n f).run s).engS m = s.engS m := by
  simp only [State.engS, Op.eng_eng]
  exact Tab.get_set_other _ _ _ h
@[simp] theorem Op.drn_drnS_same (d : Nat) (f : DrnSt → DrnSt) (s : State) : ((Op.drn d f).run s).drnS d = f (s.drnS d) := by
  simp [State.drnS]
theorem Op.drn_drnS_other {d m : Nat} (f : DrnSt → DrnSt) (s : State) (h : m ≠ d) : ((Op.drn d f).run s).drnS m = s.drnS m := by
  simp only [State.drnS, Op.drn_drn]
  exact Tab.get_set_other _ _ _ h
@[simp] theorem Op.ctx_ctxS_same (c : Nat) (f : CtxSt → CtxSt) (s : State) : ((Op.ctx c f).run s).ctxS c = f (s.ctxS c) := by
  simp [State.ctxS]
theorem Op.ctx_ctxS_other {c m : Nat} (f : CtxSt → CtxSt) (s : State) (h : m ≠ c) : ((Op.ctx c f).run s).ctxS m = s.ctxS m := by
  simp only [State.ctxS, Op.ctx_ctx]
  exact Tab.get_set_other _ _ _ h
@[simp] theorem Op.lane_laneS_same (l : Nat) (f : LaneSt → LaneSt) (s : State) : ((Op.lane l f).run s).laneS l = f (s.laneS l) := by
  simp [State.laneS]
theorem Op.lane_laneS_other {l m : Nat} (f : LaneSt → LaneSt) (s : State) (h : m ≠ l) :
    ((Op.lane l f).run s).laneS m = s.laneS m := by
  simp only [State.laneS, Op.lane_lane]
  exact Tab.get_set_other _ _ _ h

end Sys2Proof.Machine
end

