-- ==== Sys2Proof/Laws/Field.lean ====
section
/-! SUPPORT. Reading a field of a register after a field, or the same one, was written. -/
namespace Sys2Proof.Machine

/-- A field that fits a register word. -/
abbrev fldFits (f : Fld) : Prop := f.lo ≤ f.hi ∧ f.hi < 32
/-- Two fields with no bit in common. -/
abbrev fldApart (f g : Fld) : Prop := f.hi < g.lo ∨ g.hi < f.lo

/-- A bit of a field's mask. -/
theorem Fld.mask_bit {f : Fld} (h : fldFits f) (i : Nat) (hi : i < 32) :
    (Fld.mask f).getLsbD i = (decide (f.lo ≤ i) && decide (i ≤ f.hi)) := by
  obtain ⟨h1, h2⟩ := h
  have h3 : f.hi - f.lo ≤ 31 := by omega
  simp only [Fld.mask, BitVec.getLsbD_shiftLeft, hi, decide_true, Bool.true_and, BitVec.getLsbD_ushiftRight, BitVec.getLsbD_allOnes]
  by_cases ha : i < f.lo
  · have : ¬f.lo ≤ i := by omega
    simp [ha, this]
  · have hb : f.lo ≤ i := by omega
    simp only [ha, decide_false, Bool.not_false, Bool.true_and, hb, decide_true]
    congr 1
    simp only [eq_iff_iff]
    omega

/-- A bit of a field's value. -/
theorem getFld_bit (w : W) (f : Fld) (i : Nat) : (getFld w f).testBit i = (decide (i < f.width) && w.getLsbD (f.lo + i)) := by
  simp [getFld, Nat.testBit_mod_two_pow, Nat.testBit_shiftRight, BitVec.getLsbD]

/-- A bit of a word with one field loaded. -/
theorem setFld_bit {f : Fld} (h : fldFits f) (w : W) (v i : Nat) (hi : i < 32) :
    (setFld w f v).getLsbD i = if f.lo ≤ i ∧ i ≤ f.hi then v.testBit (i - f.lo) else w.getLsbD i := by
  simp only [setFld, BitVec.getLsbD_or, BitVec.getLsbD_and, BitVec.getLsbD_not, hi, decide_true, Bool.true_and, Fld.mask_bit h i hi,
    BitVec.getLsbD_shiftLeft, BitVec.getLsbD_ofNat]
  by_cases ha : f.lo ≤ i
  · by_cases hb : i ≤ f.hi
    · have : ¬i < f.lo := by omega
      have h3 : i - f.lo < 32 := by omega
      simp [ha, hb, this, h3]
    · simp [ha, hb]
  · simp [ha]

/-- A field reads back what was loaded, on its width. -/
theorem getFld_setFld_same {f : Fld} (h : fldFits f) (w : W) (v : Nat) : getFld (setFld w f v) f = v % 2 ^ f.width := by
  apply Nat.eq_of_testBit_eq
  intro i
  rw [getFld_bit, Nat.testBit_mod_two_pow]
  by_cases hi : i < f.width
  · have h32 : f.lo + i < 32 := by have := h.1; have := h.2; unfold Fld.width at hi; omega
    rw [setFld_bit h _ _ _ h32]
    have : f.lo ≤ f.lo + i ∧ f.lo + i ≤ f.hi := by have := h.1; unfold Fld.width at hi; omega
    simp [hi, this]
  · simp [hi]

/-- Loading a field leaves every other field. -/
theorem getFld_setFld_other {f g : Fld} (h : fldFits f) (hg : fldFits g) (ha : fldApart f g) (w : W) (v : Nat) :
    getFld (setFld w f v) g = getFld w g := by
  apply Nat.eq_of_testBit_eq
  intro i
  rw [getFld_bit, getFld_bit]
  by_cases hi : i < g.width
  · have h32 : g.lo + i < 32 := by have := hg.1; have := hg.2; unfold Fld.width at hi; omega
    rw [setFld_bit h _ _ _ h32]
    have : ¬(f.lo ≤ g.lo + i ∧ g.lo + i ≤ f.hi) := by
      have := hg.1; unfold Fld.width at hi; rcases ha with ha | ha <;> omega
    simp [this]
  · simp [hi]

/-- A mask that covers a field does not change it. -/
theorem getFld_and {f : Fld} (h : fldFits f) {m : W} (hm : Fld.mask f &&& m = Fld.mask f) (w : W) : getFld (w &&& m) f = getFld w f := by
  apply Nat.eq_of_testBit_eq
  intro i
  rw [getFld_bit, getFld_bit]
  by_cases hi : i < f.width
  · have h32 : f.lo + i < 32 := by have := h.1; have := h.2; unfold Fld.width at hi; omega
    have hb := congrArg (fun x => x.getLsbD (f.lo + i)) hm
    simp only [BitVec.getLsbD_and, Fld.mask_bit h _ h32] at hb
    have : f.lo ≤ f.lo + i ∧ f.lo + i ≤ f.hi := by have := h.1; unfold Fld.width at hi; omega
    simp only [this, decide_true, Bool.and_true, Bool.true_and] at hb
    rw [BitVec.getLsbD_and, hb, Bool.and_true]
  · simp [hi]

/-- A register after one field was loaded. -/
theorem Op.setF_reg (a b : Nat) (f : Fld) (v : Nat) (s : State) :
    ((Op.setF a f v).run s).reg b = if b = a then setFld (s.reg a) f v &&& impOf a else s.reg b := Op.wr_reg a b _ s
/-- A field of an implemented register reads back what was loaded. -/
theorem Op.setF_fld_same {a : Nat} {f : Fld} (h : fldFits f) (hm : Fld.mask f &&& impOf a = Fld.mask f) (v : Nat) (s : State) :
    ((Op.setF a f v).run s).fld a f = v % 2 ^ f.width := by
  unfold State.fld
  rw [Op.setF_reg, if_pos rfl, getFld_and h hm, getFld_setFld_same h]
/-- Loading a field leaves the other implemented fields of the register, and every other register. -/
theorem Op.setF_fld_other {a b : Nat} {f g : Fld} (h : fldFits f) (hg : fldFits g) (hm : Fld.mask g &&& impOf a = Fld.mask g)
    (hb : b ≠ a ∨ fldApart f g) (v : Nat) (s : State) : ((Op.setF a f v).run s).fld b g = s.fld b g := by
  unfold State.fld
  rw [Op.setF_reg]
  split
  · next he =>
    subst he
    rcases hb with hb | hb
    · exact absurd rfl hb
    · rw [getFld_and hg hm, getFld_setFld_other h hg hb]
  · rfl

end Sys2Proof.Machine
end

