-- ==== Sys2Proof/Laws/Base.lean ====
section
/-! SUPPORT. What the shared operations do: gates of power, conditions and events told to the collector, event lines, counts and
latches. -/
namespace Sys2Proof.Machine

/-! Gates (R506). -/

/-- An access to a block of the hub while the device is not off. -/
theorem Op.hub_run {s : State} (o : Op) (h : s.pwr.dead = false) : (Op.hub o).run s = o.run s := by
  simp only [Op.hub, Op.dyn_run, h]
  rfl
/-- An access while the device is off changes nothing. -/
theorem Op.hub_dead {s : State} (o : Op) (h : s.pwr.dead = true) : (Op.hub o).run s = s := by
  simp only [Op.hub, Op.dyn_run, h]
  rfl
/-- An access to a domain that is served. -/
theorem Op.gate_run {s : State} {p : Party} {a : Nat} {wr : Bool} {dom : Nat} (o : Op) (h : s.pwr.dead = false)
    (hd : s.served dom = true) : (Op.gate p a wr dom o).run s = o.run s := by
  simp only [Op.gate, Op.dyn_run, h, hd]
  rfl
/-- An access to a dark domain is recorded and nothing else. -/
theorem Op.gate_dark {s : State} {p : Party} {a : Nat} {wr : Bool} {dom : Nat} (o : Op) (h : s.pwr.dead = false)
    (hd : s.served dom = false) : (Op.gate p a wr dom o).run s = (Op.dark p .bar0 a wr dom).run s := by
  simp only [Op.gate, Op.dyn_run, h, hd]
  rfl
/-- An access while the device is off changes nothing. -/
theorem Op.gate_dead {s : State} {p : Party} {a : Nat} {wr : Bool} {dom : Nat} (o : Op) (h : s.pwr.dead = true) :
    (Op.gate p a wr dom o).run s = s := by
  simp only [Op.gate, Op.dyn_run, h]
  rfl
/-- A domain is served in Run, Idle and Sleep. -/
theorem served_iff (s : State) (d : Nat) : s.served d = true ↔ s.domState d < 3 := by
  simp [State.served, Nat.blt_eq]

/-! The collector (R438, R439). -/

/-- A message merges into a pending one or joins the queue; beside FC_STAT.MERGE_SAT nothing else changes. -/
theorem Op.intake_col (m : Msg) (s : State) : ((Op.intake m).run s).col = { s.col with intake := mergeMsg m s.col.intake } := by
  simp only [Op.intake, Op.dyn_run, Op.all_cons_run, Op.all_nil_run]
  cases mergeSat m s.col.intake <;> rfl
theorem Op.intake_reg (m : Msg) (s : State) {a : Nat} (h : a ≠ FC_STAT) : ((Op.intake m).run s).reg a = s.reg a := by
  simp only [Op.intake, Op.dyn_run, Op.all_cons_run, Op.all_nil_run]
  cases mergeSat m s.col.intake
  · rfl
  · exact Op.wr_reg_other _ _ h
/-- What an intake leaves: everything but registers and the collector. -/
theorem Op.intake_rest (m : Msg) (s : State) :
    { (Op.intake m).run s with regs := [], col := .init } = { s with regs := [], col := .init } := by
  simp only [Op.intake, Op.dyn_run, Op.all_cons_run, Op.all_nil_run]
  cases mergeSat m s.col.intake <;> rfl
/-- An event is told unless self-test isolates its source. -/
theorem Op.raise_col (src kind cls detail : Nat) (s : State) : ((Op.raise src kind cls detail).run s).col =
    if s.isolated src kind detail then s.col
    else { s.col with intake := mergeMsg ⟨src, kind, cls, false, BitVec.ofNat 40 detail, true, 0, false⟩ s.col.intake } := by
  simp only [Op.raise, Op.dyn_run]
  split
  · rfl
  · exact Op.intake_col _ s
theorem Op.raise_reg (src kind cls detail : Nat) (s : State) {a : Nat} (h : a ≠ FC_STAT) :
    ((Op.raise src kind cls detail).run s).reg a = s.reg a := by
  simp only [Op.raise, Op.dyn_run]
  split
  · rfl
  · exact Op.intake_reg _ s h
theorem Op.raise_rest (src kind cls detail : Nat) (s : State) :
    { (Op.raise src kind cls detail).run s with regs := [], col := .init } = { s with regs := [], col := .init } := by
  simp only [Op.raise, Op.dyn_run]
  split
  · rfl
  · exact Op.intake_rest _ s
/-- A condition becomes set: it is told once while it holds, unless its source is isolated. -/
theorem Op.condSet_col (src kind cls detail : Nat) (s : State) : ((Op.condSet src kind cls detail).run s).col =
    if s.isolated src kind detail || s.holds src kind cls detail then s.col
    else { s.col with
      conds := s.col.conds ++ [⟨src, kind, cls, condKey kind (BitVec.ofNat 40 detail), BitVec.ofNat 40 detail⟩]
      intake := mergeMsg ⟨src, kind, cls, false, BitVec.ofNat 40 detail, true, 0, false⟩ s.col.intake } := by
  by_cases h : (s.isolated src kind detail || s.holds src kind cls detail) = true
  · rw [if_pos h, Op.condSet, Op.dyn_run]
    exact congrArg State.col (congrArg (Op.run · s) (if_pos h))
  · rw [if_neg h, Op.condSet, Op.dyn_run]
    refine (congrArg State.col (congrArg (Op.run · s) (if_neg h))).trans ?_
    exact Op.intake_col _ _
theorem Op.condSet_reg (src kind cls detail : Nat) (s : State) {a : Nat} (h : a ≠ FC_STAT) :
    ((Op.condSet src kind cls detail).run s).reg a = s.reg a := by
  simp only [Op.condSet, Op.dyn_run]
  split
  · rfl
  · exact Op.intake_reg _ _ h
theorem Op.condSet_rest (src kind cls detail : Nat) (s : State) :
    { (Op.condSet src kind cls detail).run s with regs := [], col := .init } = { s with regs := [], col := .init } := by
  simp only [Op.condSet, Op.dyn_run]
  split
  · rfl
  · rw [Op.thn_run, Op.intake_rest]
    rfl
/-- A condition ends: its clear message is sent where it was set. -/
theorem Op.condClear_col (src kind cls detail : Nat) (s : State) : ((Op.condClear src kind cls detail).run s).col =
    if s.holds src kind cls detail then
      { s.col with
        conds := s.col.conds.filter fun k => !k.is src kind cls detail
        intake := mergeMsg ⟨src, kind, cls, false, BitVec.ofNat 40 detail, false, 0, false⟩ s.col.intake }
    else s.col := by
  by_cases h : s.holds src kind cls detail = true
  · rw [if_pos h, Op.condClear, Op.dyn_run]
    refine (congrArg State.col (congrArg (Op.run · s) (if_pos h))).trans ?_
    exact Op.intake_col _ _
  · rw [if_neg h, Op.condClear, Op.dyn_run]
    exact congrArg State.col (congrArg (Op.run · s) (if_neg h))
theorem Op.condClear_reg (src kind cls detail : Nat) (s : State) {a : Nat} (h : a ≠ FC_STAT) :
    ((Op.condClear src kind cls detail).run s).reg a = s.reg a := by
  simp only [Op.condClear, Op.dyn_run]
  split
  · exact Op.intake_reg _ _ h
  · rfl
theorem Op.condClear_rest (src kind cls detail : Nat) (s : State) :
    { (Op.condClear src kind cls detail).run s with regs := [], col := .init } = { s with regs := [], col := .init } := by
  simp only [Op.condClear, Op.dyn_run]
  split
  · rw [Op.thn_run, Op.intake_rest]
    rfl
  · rfl

/-! Event lines, counts and latches (R11, R394, R398). -/

/-- A line of a drone is set, and the others stay. -/
theorem Op.event_line (d line j : Nat) (s : State) (hj : j < 16) : (((Op.event d line).run s).drnS d).evpend.getLsbD j
    = (decide (j = line) || (s.drnS d).evpend.getLsbD j) := by
  simp only [Op.event, Op.drn_drnS_same, BitVec.getLsbD_or, BitVec.getLsbD_shiftLeft, hj, decide_true, Bool.true_and,
    BitVec.getLsbD_one]
  by_cases h : j = line
  · subst h
    simp
  · by_cases h2 : j < line
    · simp [h, h2]
    · have : ¬j - line = 0 := by omega
      simp [h, h2, this]
/-- A counter register goes up and stops at its largest value. -/
theorem Op.count_reg (a k : Nat) (s : State) :
    ((Op.count a k).run s).reg a = BitVec.ofNat 32 (Nat.min ((s.reg a).toNat + k) 0xFFFFFFFF) &&& impOf a := by
  simp only [Op.count, Op.dyn_run, Op.wr_reg_same]
/-- A latched word reads back for its party. -/
theorem Op.latch_same (p : Party) (a : Nat) (v : W) (s : State) : ((Op.latch p a v).run s).latched p a = v := by
  simp [State.latched]
/-- A latched word of another place or party stays. -/
theorem Op.latch_other {p q : Party} {a b : Nat} (v : W) (s : State)
    (h : partyCode q * 0x100000000 + b ≠ partyCode p * 0x100000000 + a) : ((Op.latch p a v).run s).latched q b = s.latched q b := by
  simp only [State.latched, Op.latch_latch]
  exact Tab.get_set_other _ _ _ h

end Sys2Proof.Machine
end

