-- ==== Sys2Proof/Laws/Memory.lean ====
section
/-! SUPPORT. Memory operations keep the canonical form of memory, and what bytes read after a write of several. -/
namespace Sys2Proof.Machine

/-- Reset memory, which lists nothing, is canonical. -/
theorem reset_mem_wf : Memory.wf State.reset.mem := ⟨List.Pairwise.nil, by intro e h; cases h⟩
/-- Every operation keeps the canonical form of memory. -/
theorem Op.mem_wf (o : Op) {s : State} (h : s.Wf) : Memory.wf (o.run s).mem := (o.keeps s h).mem
/-- Every operation keeps the canonical form of registers: rising addresses, no reset values listed, reserved bits 0. -/
theorem Op.regs_wf (o : Op) {s : State} (h : s.Wf) : Regs.wf (o.run s).regs := (o.keeps s h).regs
/-- Reading below every key of a table gives what an unlisted key reads as. -/
theorem Tab.get_lt {α : Type} (d : Nat → α) (k : Nat) (t : Tab α) (h : ∀ e ∈ t, k < e.1) : Tab.get t d k = d k := by
  have : t.find? (fun e => e.1 == k) = none := by
    rw [List.find?_eq_none]
    intro e he
    have := h e he
    simp only [beq_iff_eq]
    omega
  unfold Tab.get
  rw [this]
  rfl
/-- Reading the first key, and reading past it. -/
theorem Tab.get_cons {α : Type} (d : Nat → α) (k : Nat) (e : Nat × α) (t : Tab α) :
    Tab.get (e :: t) d k = if k = e.1 then e.2 else Tab.get t d k := by
  unfold Tab.get
  by_cases h : k = e.1
  · simp [h]
  · have : (e.1 == k) = false := by simpa using fun h' => h h'.symm
    simp [this, h]
/-- Canonical tables that read alike are equal. -/
theorem Tab.ext_get {α : Type} [DecidableEq α] (d : Nat → α) : ∀ (a b : Tab α), a.wf d → b.wf d →
    (∀ k, Tab.get a d k = Tab.get b d k) → a = b
  | [], [], _, _, _ => rfl
  | [], e :: b, _, hb, h => by
    have := h e.1
    rw [Tab.get_cons, if_pos rfl] at this
    exact absurd this.symm (hb.2 e (by simp))
  | e :: a, [], ha, _, h => by
    have := h e.1
    rw [Tab.get_cons, if_pos rfl] at this
    exact absurd this (ha.2 e (by simp))
  | e :: a, f :: b, ha, hb, h => by
    have pa := List.pairwise_cons.1 ha.1
    have pb := List.pairwise_cons.1 hb.1
    have key : e.1 = f.1 := by
      rcases Nat.lt_trichotomy e.1 f.1 with l | l | l
      · have := h e.1
        rw [Tab.get_cons, if_pos rfl, Tab.get_lt d e.1 (f :: b)] at this
        · exact absurd this (ha.2 e (by simp))
        · intro x hx
          rcases List.mem_cons.1 hx with rfl | hx
          · exact l
          · exact Nat.lt_trans l (pb.1 x hx)
      · exact l
      · have := h f.1
        rw [Tab.get_cons d f.1 f, if_pos rfl, Tab.get_lt d f.1 (e :: a)] at this
        · exact absurd this.symm (hb.2 f (by simp))
        · intro x hx
          rcases List.mem_cons.1 hx with rfl | hx
          · exact l
          · exact Nat.lt_trans l (pa.1 x hx)
    have val : e.2 = f.2 := by
      have := h e.1
      rwa [Tab.get_cons, if_pos rfl, Tab.get_cons, if_pos key] at this
    have rest : a = b := by
      refine Tab.ext_get d a b ⟨pa.2, fun x hx => ha.2 x (by simp [hx])⟩ ⟨pb.2, fun x hx => hb.2 x (by simp [hx])⟩ ?_
      intro k
      by_cases hk : k = e.1
      · rw [hk, Tab.get_lt d e.1 a pa.1, Tab.get_lt d e.1 b (fun x hx => by rw [key]; exact pb.1 x hx)]
      · have := h k
        rwa [Tab.get_cons, if_neg hk, Tab.get_cons, if_neg (by rw [← key]; exact hk)] at this
    rw [rest, Prod.ext key val]
/-- States in canonical form whose registers and bytes read alike hold equal registers and memory. -/
theorem State.Wf.ext_reads {s t : State} (hs : s.Wf) (ht : t.Wf) (hr : ∀ a, s.reg a = t.reg a) (hm : ∀ k, s.byte k = t.byte k) :
    s.regs = t.regs ∧ s.mem = t.mem :=
  ⟨Tab.ext_get rstOf _ _ hs.regs.1 ht.regs.1 hr, Tab.ext_get memRst _ _ hs.mem ht.mem hm⟩
/-- A write of consecutive bytes: each byte of the range reads back, every other byte is left alone. -/
theorem Op.bytes_byte (l : List Byte) (k j : Nat) (s : State) :
    ((Op.bytes k l).run s).byte j = if k ≤ j ∧ j < k + l.length then l.getD (j - k) 0#8 else s.byte j := by
  induction l generalizing k s with
  | nil =>
    have h : ¬(k ≤ j ∧ j < k + ([] : List Byte).length) := by simp
    rw [if_neg h]
    rfl
  | cons b r ih =>
    show ((Op.bytes (k + 1) r).run ((Op.byte k b).run s)).byte j = _
    rw [ih]
    by_cases hj : j = k
    · subst hj
      have h1 : ¬(j + 1 ≤ j ∧ j < j + 1 + r.length) := by omega
      have h2 : j ≤ j ∧ j < j + (b :: r).length := by simp
      rw [if_neg h1, if_pos h2, Op.byte_byte_same]
      simp
    · rw [Op.byte_byte_other b s hj]
      by_cases h : k + 1 ≤ j ∧ j < k + 1 + r.length
      · have h2 : k ≤ j ∧ j < k + (b :: r).length := by simp only [List.length_cons]; omega
        have h3 : j - k = (j - (k + 1)) + 1 := by omega
        rw [if_pos h, if_pos h2, h3]
        simp
      · have h2 : ¬(k ≤ j ∧ j < k + (b :: r).length) := by simp only [List.length_cons]; omega
        rw [if_neg h, if_neg h2]
/-- A write of bytes leaves every register alone. -/
theorem Op.bytes_regs (l : List Byte) (k : Nat) (s : State) : ((Op.bytes k l).run s).regs = s.regs := by
  induction l generalizing k s with
  | nil => rfl
  | cons b r ih =>
    show ((Op.bytes (k + 1) r).run ((Op.byte k b).run s)).regs = _
    rw [ih]
    rfl

end Sys2Proof.Machine
end

