-- ==== Sys2Proof/Laws/Step.lean ====
section
/-! SUPPORT. What a step is: every command's effect is one operation, and so keeps the canonical form and the queue. -/
namespace Sys2Proof.Machine

/-- Every command's meaning is an operation run on the state without the outputs of the command before it. -/
theorem exec_op (i : Instr) (s : State) : ∃ o : Op, exec i s = o.next s := by
  cases i <;> exact ⟨_, rfl⟩
/-- A step with a command waiting is that command on the rest of the queue. -/
theorem step_cons {s : State} {c : Instr} {l : List Instr} (h : s.pending = c :: l) : step s = exec c { s with pending := l } := by
  unfold step
  rw [h]
/-- A step with no command waiting is one clock. -/
theorem step_nil {s : State} (h : s.pending = []) : step s = Op.tick.next s := by
  unfold step
  rw [h]
/-- A command never touches the queue. -/
theorem exec_pending {i : Instr} {s t : State} (h : exec i s = .next t) : t.pending = s.pending := by
  obtain ⟨o, ho⟩ := exec_op i s
  exact Op.next_queue (ho ▸ h)
/-- A command keeps registers and memory in canonical form. -/
theorem exec_wf {i : Instr} {s t : State} (w : s.Wf) (h : exec i s = .next t) : t.Wf := by
  obtain ⟨o, ho⟩ := exec_op i s
  exact Op.next_wf w (ho ▸ h)
/-- The statements' way of saying that a command completes, from the operation it runs. -/
theorem gives_of_op {i : Instr} {s : State} {o : Op} {P : State → Prop} (e : exec i s = o.next s) (h : P (o.run s.quiet)) :
    ∃ t, exec i s = .next t ∧ P t := ⟨_, e, h⟩

end Sys2Proof.Machine
end

