-- ==== Sys2Proof/Laws/Words.lean ====
section
/-! SUPPORT. What a store, a capture trigger and the datapath words that a command brings leave alone, of which the statements of the
receive side, of capture and of the monitor speak. -/
namespace Sys2Proof.Machine

/-- What a store never touches: everything but registers, memory, poison marks, GOOD_SHADOW of an engine, and the error logic. -/
def State.pastStore (s : State) : State := { s with regs := [], mem := [], poison := [], eng := [], ecc := .init }
/-- What datapath words never touch: beside that of a store, everything but event lines of drones, the TRIG_OUT pin and outputs. -/
def State.pastWords (s : State) : State := { s.pastStore with drn := [], trigOut := 0, out := [] }

theorem Op.keeps_nil {α : Type} {g : State → α} : (Op.all []).Keeps g := fun _ => rfl
theorem Op.keeps_cons {α : Type} {g : State → α} {a : Op} {l : List Op} (h : a.Keeps g) (hl : (Op.all l).Keeps g) :
    (Op.all (a :: l)).Keeps g := fun s => (hl _).trans (h s)
/-- What keeps the rest of a store keeps the rest of words. -/
theorem Op.Keeps.words {o : Op} (h : o.Keeps State.pastStore) : o.Keeps State.pastWords := fun s => by
  unfold State.pastWords
  rw [h s]

/-! The primitive operations. -/

theorem Op.wr_past (a : Nat) (v : W) : (Op.wr a v).Keeps State.pastStore := fun _ => rfl
theorem Op.setF_past (a : Nat) (f : Fld) (v : Nat) : (Op.setF a f v).Keeps State.pastStore := Op.keeps_dyn fun _ => Op.wr_past _ _
theorem Op.setB_past (a : Nat) (f : Fld) (b : Bool) : (Op.setB a f b).Keeps State.pastStore := Op.setF_past _ _ _
theorem Op.flag_past (a : Nat) (f : Fld) : (Op.flag a f).Keeps State.pastStore := Op.setF_past _ _ _
theorem Op.count_past (a k : Nat) : (Op.count a k).Keeps State.pastStore := Op.keeps_dyn fun _ => Op.wr_past _ _
theorem Op.byte_past (k : Nat) (b : Byte) : (Op.byte k b).Keeps State.pastStore := fun _ => rfl
theorem Op.eng_past (n : Nat) (f : EngSt → EngSt) : (Op.eng n f).Keeps State.pastStore := fun _ => rfl
theorem Op.ecc_past (f : EccSt → EccSt) : (Op.ecc f).Keeps State.pastStore := fun _ => rfl
theorem Op.injDrop_past (p : Inject → Bool) : (Op.injDrop p).Keeps State.pastStore :=
  Op.keeps_dyn fun _ => Op.keeps_thn (Op.ecc_past _) (Op.setB_past _ _ _)
theorem Op.poison_past (k : Nat) (b : Bool) : (Op.poison k b).Keeps State.pastStore := fun _ => rfl
theorem Op.emit_past (o : Output) : (Op.emit o).Keeps State.pastWords := fun _ => rfl
theorem Op.event_past (d line : Nat) : (Op.event d line).Keeps State.pastWords := fun _ => rfl

/-! Composed ones. -/

theorem Op.wordWritten_past (k : Nat) (whole own : Bool) : (Op.wordWritten k whole own).Keeps State.pastStore := by
  refine Op.keeps_dyn fun s => Op.keeps_cons ?_ (Op.keeps_cons (Op.keeps_when (Op.keeps_thn (Op.ecc_past _) (Op.count_past _ _)))
    (Op.keeps_cons (Op.keeps_when (Op.keeps_thn (Op.injDrop_past _) (Op.flag_past _ _)))
    (Op.keeps_cons (Op.keeps_when (Op.poison_past _ _)) (Op.keeps_cons ?_ (Op.keeps_cons (Op.keeps_when
      (Op.keeps_cons (Op.wr_past _ _) (Op.keeps_cons (Op.setF_past _ _ _) (Op.keeps_cons (Op.setF_past _ _ _)
      (Op.keeps_cons (Op.flag_past _ _) (Op.keeps_cons (Op.flag_past _ _) (Op.keeps_cons (Op.ecc_past _) Op.keeps_nil))))))) Op.keeps_nil)))))
  · split
    · exact Op.flag_past _ _
    · exact Op.keeps_skip _
  · split
    · exact Op.eng_past _ _
    · exact Op.keeps_skip _
/-- A store changes registers of the error logic, bytes, poison marks and GOOD_SHADOW, and nothing else. -/
theorem Op.store_past (l : List (Nat × Byte)) (own : Bool) : (Op.store l own).Keeps State.pastStore :=
  Op.keeps_thn (Op.keeps_each fun _ => Op.byte_past _ _) (Op.keeps_each fun _ => Op.wordWritten_past _ _ _)
/-- A trigger changes CAP registers, its engine's capture, the TRIG_OUT pin and the outputs. -/
theorem Op.capTrig_past (n src : Nat) : (Op.capTrig n src).Keeps State.pastWords :=
  Op.keeps_dyn fun _ => Op.keeps_ite
    (Op.keeps_cons (Op.setF_past _ _ _).words (Op.keeps_cons (Op.setF_past _ _ _).words (Op.keeps_cons (Op.keeps_when (Op.flag_past _ _).words)
    (Op.keeps_cons (Op.setF_past _ _ _).words (Op.keeps_cons (Op.wr_past _ _).words (Op.keeps_cons (Op.wr_past _ _).words
    (Op.keeps_cons (Op.eng_past _ _).words (Op.keeps_cons (Op.keeps_when (Op.keeps_thn (fun _ => rfl) (Op.keeps_when (Op.emit_past _))))
      Op.keeps_nil))))))))
    (Op.keeps_ite (Op.keeps_ite (Op.keeps_cons (Op.eng_past _ _).words (Op.keeps_cons (Op.setF_past _ _ _).words
      (Op.keeps_cons (Op.setF_past _ _ _).words Op.keeps_nil))) (Op.count_past _ _).words) (Op.keeps_skip _))
/-- A clock of the monitor chain changes MON registers, its engine's monitor, and event line 8. -/
theorem Op.monClock_past (n : Nat) (w : CapWord) : (Op.monClock n w).Keeps State.pastWords :=
  Op.keeps_dyn fun _ => Op.keeps_cons (Op.eng_past _ _).words (Op.keeps_cons (Op.eng_past _ _).words
    (Op.keeps_cons (Op.keeps_when (Op.keeps_thn (Op.eng_past _ _).words (Op.eng_past _ _).words))
    (Op.keeps_cons (Op.keeps_when (Op.keeps_dyn fun _ => Op.keeps_cons (Op.keeps_when (Op.flag_past _ _).words)
      (Op.keeps_cons (Op.eng_past _ _).words (Op.keeps_cons (Op.keeps_dyn fun _ => Op.keeps_each fun _ => (Op.wr_past _ _).words)
      (Op.keeps_cons (Op.keeps_dyn fun _ => (Op.wr_past _ _).words) (Op.keeps_cons (Op.keeps_when (Op.event_past _ _)) Op.keeps_nil))))))
      Op.keeps_nil)))
theorem Op.capTail_past (n : Nat) : (Op.capTail n).Keeps State.pastWords := by
  refine Op.keeps_dyn fun s => ?_
  split
  · exact Op.keeps_thn (Op.keeps_each fun _ => (Op.store_past _ _).words) (Op.eng_past _ _).words
  · exact Op.keeps_skip _
theorem Op.capWord_past (n : Nat) (w : CapWord) : (Op.capWord n w).Keeps State.pastWords :=
  Op.keeps_thn (Op.keeps_dyn fun _ => Op.keeps_when (Op.keeps_dyn fun _ => Op.keeps_when (Op.keeps_thn (Op.eng_past _ _).words (Op.capTrig_past n 2))))
    (Op.keeps_dyn fun _ => Op.keeps_cons (Op.keeps_each fun _ => (Op.store_past _ _).words)
      (Op.keeps_cons (Op.eng_past _ _).words (Op.keeps_cons (Op.setF_past _ _ _).words Op.keeps_nil)))
/-- A datapath word changes registers, capture memory with its error logic, and its engine. -/
theorem Op.wordIn_past (n : Nat) (w : CapWord) : (Op.wordIn n w).Keeps State.pastWords :=
  Op.keeps_cons (Op.keeps_dyn fun _ => (Op.eng_past _ _).words) (Op.keeps_cons (Op.capTail_past n)
    (Op.keeps_cons (Op.keeps_dyn fun _ => Op.keeps_when (Op.capWord_past n w))
    (Op.keeps_cons (Op.keeps_dyn fun _ => Op.keeps_when (Op.eng_past _ _).words) Op.keeps_nil)))
theorem Op.symbols_past (n : Nat) : (Op.symbols n).Keeps State.pastWords :=
  Op.keeps_dyn fun _ => Op.keeps_when (Op.keeps_thn (Op.eng_past _ _).words (Op.keeps_when
    (Op.keeps_thn (Op.setB_past _ _ _).words (Op.setB_past _ _ _).words)))
/-- The datapath words that a command brings change registers, capture memory with its error logic, engines, event lines, the TRIG_OUT
pin and the outputs, and nothing else of the device. -/
theorem Op.adcIn_past (n : Nat) (ws : List CapWord) : (Op.adcIn n ws).Keeps State.pastWords :=
  Op.keeps_dyn fun _ => Op.keeps_when (Op.keeps_cons (Op.keeps_dyn fun _ => Op.keeps_when (Op.eng_past _ _).words)
    (Op.keeps_cons (Op.keeps_each fun w => Op.keeps_cons (Op.wordIn_past n w) (Op.keeps_cons (Op.symbols_past n)
      (Op.keeps_cons (Op.monClock_past n w) Op.keeps_nil))) Op.keeps_nil))
/-- A command that brings no words has none of their effect. -/
theorem Op.adcIn_nil (n : Nat) (s : State) : (Op.adcIn n []).run s = s := by
  unfold Op.adcIn
  rw [Op.dyn_run, List.isEmpty_nil, Bool.not_true, Bool.and_false]
  rfl
/-- Words reach no engine that is not in Run. -/
theorem Op.adcIn_dark (n : Nat) (ws : List CapWord) {s : State} (h : s.inRun (domEng n) = false) : (Op.adcIn n ws).run s = s := by
  unfold Op.adcIn
  rw [Op.dyn_run, h, Bool.false_and]
  rfl

end Sys2Proof.Machine
end

