-- ==== Sys2Proof/Laws/Zynnan.lean ====
section
/-! SUPPORT. How a drone's instruction runs: the registers of a drone after a write, and an operation on one drone alone. -/
namespace Sys2Proof.Machine

/-- A general register after a write: g0 reads 0 (R379). -/
theorem DrnSt.gw_gr (z : DrnSt) (d k : Nat) (v : W) : (z.gw d v).gr k = if k = 0 then 0#32 else if k = d then v else z.gr k := by
  unfold DrnSt.gw DrnSt.gr
  by_cases hk : k = 0
  · simp [hk]
  · by_cases hd : d = 0
    · simp [hd, hk]
    · by_cases h : k = d
      · subst h; simp [hk]
      · simp [hk, hd, h, Tab.get_set_other _ _ _ h]
@[simp] theorem DrnSt.adv_gr (z : DrnSt) (r : Nat) : (z.adv).gr r = z.gr r := rfl
@[simp] theorem DrnSt.adv8_gr (z : DrnSt) (r : Nat) : (z.adv8).gr r = z.gr r := rfl
@[simp] theorem DrnSt.gw_pc (z : DrnSt) (d : Nat) (v : W) : (z.gw d v).pc = z.pc := by unfold DrnSt.gw; split <;> rfl
@[simp] theorem DrnSt.adv_pc (z : DrnSt) : (z.adv).pc = z.pc + 4#16 := rfl
/-- A write of a general register and the advance of the PC leave the rest of the drone. -/
theorem DrnSt.gw_adv_rest (z : DrnSt) (d : Nat) (v : W) : { (z.gw d v).adv with g := [], pc := 0#16 } = { z with g := [], pc := 0#16 } := by
  unfold DrnSt.gw; split <;> rfl
@[simp] theorem State.quiet_drnState (s : State) (x : Nat) : s.quiet.drnState x = s.drnState x := rfl

/-- An operation on one drone changes that drone alone. -/
theorem Op.drn_only (s : State) (x : Nat) (g : DrnSt → DrnSt) (f : DrnSt → DrnSt) (h : f (g (s.drnS x)) = f (s.drnS x)) :
    OnlyDrone s ((Op.drn x g).run s.quiet) x f := by
  refine ⟨?_, ?_, rfl⟩
  · rw [Op.drn_drnS_same]; exact h
  · intro y hy; rw [Op.drn_drnS_other _ _ hy]; rfl
@[simp] theorem State.quiet_executes (s : State) (x : Nat) : s.quiet.executes x = s.executes x := rfl
/-- A drone that executes is in RUN (R363). -/
theorem State.executes_run {s : State} {x : Nat} (h : s.executes x = true) : s.drnState x = 1 := by
  unfold State.executes at h
  simp only [Bool.and_eq_true, beq_iff_eq] at h
  exact h.1
@[simp] theorem State.quiet_executes8 (s : State) (x : Nat) : s.quiet.executes8 x = s.executes8 x := rfl
/-- A fetch that meets no error. -/
theorem Op.fetch_run {s : State} {x : Nat} {pc : BitVec 16} (o : Op) (h : s.fetchOk x pc = true) : (Op.fetch x pc o).run s = o.run s := by
  simp only [Op.fetch, Op.dyn_run, h, if_true]
/-- What an instruction of a drone that executes does. -/
theorem Op.zyn_run {s : State} {x : Nat} (o : Op) (h : s.executes x = true) : (Op.zyn x o).run s = o.run s := by
  unfold State.executes at h
  simp only [Bool.and_eq_true] at h
  simp only [Op.zyn, Op.dyn_run, h.1, Op.when, if_true]
  exact Op.fetch_run o h.2
/-- An instruction of a drone that executes runs. -/
theorem Op.zyn_next (s : State) (x : Drn) (o : Op) (h : s.executes x = true) : (Op.zyn x o).next s = .next (o.run s.quiet) := by
  rw [Op.next_eq]
  exact congrArg Host.Outcome.next (Op.zyn_run o ((State.quiet_executes s x).trans h))
/-- A long form of a drone that fetches both its words runs. -/
theorem Op.zyn8_next (s : State) (x : Drn) (o : Op) (h : s.executes8 x = true) : (Op.zyn8 x o).next s = .next (o.run s.quiet) := by
  unfold State.executes8 at h
  simp only [Bool.and_eq_true] at h
  rw [Op.zyn8, Op.zyn_next s x _ h.1, Op.dyn_run]
  exact congrArg Host.Outcome.next (Op.fetch_run (s := s.quiet) o h.2)
/-- The general registers after an operation on a drone that writes one of them. -/
theorem Op.drn_gr (s : State) (x : Drn) (d : GReg) (g : DrnSt → DrnSt) (v : W)
    (h : ∀ r, (g (s.drnS x)).gr r = if r = 0 then 0#32 else if r = d.val then v else (s.drnS x).gr r) :
    ((Op.drn x g).run s.quiet).gr x d = (if d = 0 then 0#32 else v)
      ∧ (∀ k : GReg, k ≠ d → ((Op.drn x g).run s.quiet).gr x k = s.gr x k) := by
  constructor
  · simp only [State.gr, Op.drn_drnS_same]
    show (g (s.drnS x)).gr d = _
    rw [h]
    by_cases h0 : d = 0
    · subst h0; simp
    · have : d.val ≠ 0 := fun h => h0 (Fin.ext h)
      simp [h0, this]
  · intro k hk
    simp only [State.gr, Op.drn_drnS_same]
    show (g (s.drnS x)).gr k = _
    rw [h]
    have hk' : k.val ≠ d.val := fun h => hk (Fin.ext h)
    by_cases h0 : k.val = 0
    · simp [h0, DrnSt.gr]
    · simp [h0, hk']

end Sys2Proof.Machine
end

