-- ==== Sys2Proof/Tests/Slice0.lean ====
section
/-! SUPPORT. Tests: ill-formed commands that WellFormed refuses, a witness for the hypotheses of every statement, words of the
Zynnan encoding, and single steps on small states. Expected results come from the rules that the comments name. -/
namespace Sys2Proof.Tests
open Sys2Proof Sys2Proof.Machine

/-! Small states: operations run on the state after reset. -/

theorem reset_Wf : State.reset.Wf := ⟨⟨⟨List.Pairwise.nil, by intro e h; cases h⟩, by intro e h; cases h⟩,
  ⟨List.Pairwise.nil, by intro e h; cases h⟩⟩
/-- The state after some operations from reset. -/
def mk (l : List Op) : State := (Op.all l).run State.reset
theorem mk_wf (l : List Op) : (mk l).Wf := (Op.all l).keeps _ reset_Wf
/-- What is read of the next state of a command; a default where there is none. -/
def after {α : Type} (c : Instr) (s : State) (d : α) (f : State → α) : α := match exec c s with | .next t => f t | _ => d
/-- A domain in Run. -/
def run (d : Nat) : Op := Op.setF (PWR_DOM d) PWR_DOM_STATE 0
/-- Drone 1 in RUN with general registers g1 and g2, in keeper mode after reset. -/
def drone1 (a b : W) : List Op :=
  [run 64, Op.setF (HIVE_DRN_STAT 1) HIVE_DRN_STAT_STATE 1, Op.drn 1 fun z => (z.gw 1 a).gw 2 b]

/-- A witness: the state after operations from reset is in canonical form and meets the hypotheses. -/
def Met (l : List Op) (h : State → Prop) : Prop := (mk l).Wf ∧ h (mk l)
theorem met {l : List Op} {h : State → Prop} (p : h (mk l)) : Met l h := ⟨mk_wf l, p⟩
theorem srv {s : State} {a : Nat}
    (h : (!s.pwr.dead && match Spec.domain a with | none => true | some d => Nat.blt (s.domState d) 3) = true) : Spec.served s a := by
  simp only [Bool.and_eq_true, Bool.not_eq_true'] at h
  refine ⟨h.1, ?_⟩
  cases e : Spec.domain a with
  | none => trivial
  | some d => rw [e] at h; exact Nat.blt_eq.mp h.2

/-- The receiver of engine 5 in a state, its domain in Run. -/
def rx5 (st : Nat) : List Op := [run 5, Op.setF (RX_STAT 5) RX_STAT_STATE st]
/-- Engine 5 with its domain in Run, changed beyond its registers. -/
def e5 (f : EngSt → EngSt) : List Op := [run 5, Op.eng 5 f]
/-- Drone 1 in RUN, changed. -/
def d1 (f : DrnSt → DrnSt) : List Op := drone1 0#32 0#32 ++ [Op.drn 1 f]

/-! Witnesses: the Zynnan instructions. -/

theorem witness_zynIntegerResults : Met (drone1 5#32 0xFFFFFFFF#32) (fun s => s.executes 1 = true
    ∧ Spec.value s (.add 1 0 1 2) = some (1, 0, 4#32, 4#16) ∧ Spec.value s (.shl 1 3 1 2) = some (1, 3, 0x80000000#32, 4#16)
    ∧ Spec.value s (.li 1 31 7#32) = some (1, 31, 7#32, 8#16) ∧ Spec.fetches s 1 (.add 1 0 1 2) ∧ Spec.fetches s 1 (.li 1 31 7#32)) :=
  met (by decide)
theorem witness_zynBranchesAndJumps : Met (drone1 8#32 9#32) (fun s => s.executes 1 = true
    ∧ Spec.branch s (.brne 1 1 2 0x8000#16) = some (1, true, 0x8000#16) ∧ Spec.branch s (.breq 1 1 2 1#16) = some (1, false, 1#16)
    ∧ (s.gr 1 1).toNat % 4 = 0 ∧ (s.gr 1 2).toNat % 4 ≠ 0 ∧ (s.drnS 1).tip = false
    ∧ (0xFFFC#32).toNat < 65536 ∧ (0xFFFC#32).toNat % 4 = 0 ∧ s.executes8 1 = true) := met (by decide)
theorem witness_zynSaturatingResults : Met (drone1 0x80000000#32 1#32 ++ [Op.drn 1 fun z => (z.gw 3 0x40000000#32).aw 2 (3#40, -3#40)])
    (fun s => s.executes 1 = true ∧ Spec.nearest ((s.gr 1 1).toInt * (s.gr 1 1).toInt) 31 (2 ^ 31)
    ∧ Spec.nearest ((s.gr 1 2).toInt * (s.gr 1 3).toInt) 31 0 ∧ Spec.nearest ((s.drnS 1).ar 2).1.toInt (1#5).toNat 2
    ∧ Spec.nearest ((s.drnS 1).ar 2).2.toInt (1#5).toNat (-2) ∧ Spec.nearest ((s.drnS 1).ar 2).1.toInt (0#5).toNat 3
    ∧ Spec.accValue s (.cadd 1 2 2) = some (1, 2, 6, -6)) := met (by unfold Spec.nearest; decide)
/-- Address register 3 with its modifiers: pointer, PM, PB, PL and AMODE. -/
def ptr (p pm pb pl am : W) : DrnSt → DrnSt := fun z =>
  { z with p := [(3, p)], pm := [(3, pm)], pb := [(3, pb)], pl := [(3, pl)], amode := [(3, am)] }
theorem witness_zynLoads :
    Met (d1 (ptr 0x1FFFC#32 4#32 0x1FFF0#32 16#32 1#32)) (fun s => s.executes 1 = true
      ∧ Spec.dataWord s 1 (s.gr 1 0 + (4#16).signExtend 32) false = some 0x30060004 ∧ Spec.clean s 0x30060004
      ∧ Spec.dataWord s 1 ((s.drnS 1).pr 3 + (0#16).signExtend 32) false = some 0x3007FFFC ∧ Spec.clean s 0x3007FFFC
      ∧ Spec.pointer s 1 3 true = some 0x1FFF0#32 ∧ Spec.pointer s 1 3 false = some 0x1FFFC#32)
    ∧ Met (d1 (ptr 0x11FFFFFC#32 8#32 0x11FFFF00#32 256#32 2#32)) (fun s => s.executes 1 = true
      ∧ Spec.dataWord s 1 ((s.drnS 1).pr 3 + (0#16).signExtend 32) false = some 0x1FFFFFC ∧ Spec.clean s 0x1FFFFFC
      ∧ (Spec.pointer s 1 3 true).isSome)
    ∧ Met (d1 (ptr 0x0801FFFC#32 4#32 0#32 0#32 0#32)) (fun s => s.executes 1 = true
      ∧ Spec.dataWord s 1 ((s.drnS 1).pr 3 + (0#16).signExtend 32) false = some 0x3005FFFC ∧ Spec.pointer s 1 3 true = some 0x08020000#32) :=
  ⟨met (by unfold Spec.clean; decide), met (by unfold Spec.clean; decide), met (by decide)⟩
theorem witness_zynStores :
    Met (d1 (ptr 0x10000000#32 4#32 0#32 0#32 0#32)) (fun s => s.executes 1 = true
      ∧ Spec.dataWord s 1 (s.gr 1 0 + (0x7FFC#16).signExtend 32) true = some 0x30067FFC ∧ Spec.notHeld s 0x30067FFC
      ∧ Spec.dataWord s 1 ((s.drnS 1).pr 3 + (0#16).signExtend 32) true = some 0 ∧ Spec.notHeld s 0
      ∧ Spec.pointer s 1 3 true = some 0x10000004#32 ∧ Spec.dataWord s 1 (s.gr 1 0) true = some 0x30060000
      ∧ Spec.notHeld s 0x30060000 ∧ Spec.clean s 0x30060000)
    ∧ Met (drone1 0x10000FFC#32 0#32 ++ [Op.stw fun z => { z with op := some 3, addr := 0, len := 0x1000 }]) (fun s => s.executes 1 = true
      ∧ Spec.dataWord s 1 (s.gr 1 1 + (0#16).signExtend 32) true = some 0xFFC ∧ ¬Spec.notHeld s 0xFFC) :=
  ⟨met (by unfold Spec.clean Spec.notHeld; decide), met (by unfold Spec.notHeld; decide)⟩
theorem witness_zynBlockExponent :
    Met (drone1 2#32 0x2000#32 ++ [Op.drn 1 (ptr 0x100#32 4#32 0#32 0#32 0#32)]) (fun s => s.executes 1 = true
      ∧ (s.gr 1 1).toNat % 8192 = 2 ∧ (s.gr 1 2).toNat % 8192 = 0
      ∧ (∀ i, i < 2 → Spec.dataWord s 1 (0x100#32 + BitVec.ofNat 32 (4 * i)) false = some (0x30060100 + 4 * i)
        ∧ Spec.clean s (0x30060100 + 4 * i)
        ∧ Spec.post (s.drnS 1) 3 (0x100#32 + BitVec.ofNat 32 (4 * i)) = some (0x100#32 + BitVec.ofNat 32 (4 * (i + 1))))) :=
  met (by unfold Spec.clean; decide)
theorem witness_zynControlRegisters :
    Met (drone1 7#32 0#32) (fun s => s.executes 1 = true ∧ (Spec.control s 1 (0x03F#12).toNat).isSome ∧ Spec.control s 1 0 = some 1#32
      ∧ Spec.loads.lookup (0x013#12).toNat = some 0xFFFFFFFF#32 ∧ (s.drnS 1).keeper = true)
    ∧ Met (d1 fun z => { z with keeper := false }) (fun s => s.executes 1 = true
      ∧ Spec.loads.lookup (0x03F#12).toNat = some 3#32 ∧ Spec.workerMay (0x03F#12).toNat ∧ (s.drnS 1).keeper = false) :=
  ⟨met (by decide), met (by unfold Spec.workerMay; decide)⟩
theorem witness_zynPointersAndOrder : Met (drone1 7#32 0#32) (fun s => s.executes 1 = true) := met (by decide)
/-- A path of two reads, the second of which traps. -/
theorem cleanTwo {s : State} {x : Drn} {p : PReg} {n : Nat} {q r : W} {k : Nat} (hn : n = 2) (hq : Spec.dataWord s x q false = some k)
    (hc : Spec.clean s k) (hr : Spec.post (s.drnS x) p q = some r) (hd : Spec.dataWord s x r false = none) : Spec.pathClean s x p n q := by
  subst hn
  refine ⟨fun j h => ?_, fun r' h => ⟨fun j h' => ?_, fun _ _ => trivial⟩⟩
  · rw [hq] at h; cases h; exact hc
  · rw [hr] at h; cases h; rw [hd] at h'; cases h'
theorem witness_zynTraps :
    Met (drone1 0x20000#32 3#32) (fun s => s.executes 1 = true ∧ Spec.trap s (.ldw 1 1 1 0#16) = some (1, 4, 0x20000#32, 0#16)
      ∧ Spec.trap s (.xadd 1 1 2 1) = some (1, 3, 3#32, 0#16) ∧ Spec.trap s (.sys 1) = some (1, 7, 0#32, 4#16)
      ∧ Spec.trap s (.banksw 1) = some (1, 8, 0#32, 0#16) ∧ Spec.trap s (.ja 1 0x10000#32) = some (1, 1, 0#32, 0#16)
      ∧ (s.drnS 1).tip = false)
    ∧ Met (d1 fun z => { ptr 0#32 4#32 0#32 0#32 1#32 z with keeper := false, tip := true }) (fun s => s.executes 1 = true
      ∧ Spec.trap s (.rtt 1) = some (1, 2, 0#32, 0#16) ∧ Spec.trap s (.wrc 1 0 0x004#12) = some (1, 2, 0#32, 0#16)
      ∧ Spec.trap s (.rdc 1 0 0x00D#12) = some (1, 1, 0#32, 0#16) ∧ Spec.trap s (.ldp 1 0 3 true 0#16) = some (1, 1, 0#32, 0#16)
      ∧ Spec.trap s (.illegalInstruction 1 0x003E0000#32) = some (1, 1, 0#32, 0#16) ∧ (s.drnS 1).tip = true)
    -- with TIP 1, a GOTO to a misaligned target, and a BEXP whose second read lies past the cell
    ∧ Met (drone1 1#32 2#32 ++ [Op.drn 1 fun z => { ptr 0x1FFFC#32 4#32 0#32 0#32 0#32 z with tip := true }]) (fun s => s.executes 1 = true
      ∧ s.executes8 1 = true ∧ Spec.trap s (.goto 1 0 1) = some (1, 3, 1#32, 0#16) ∧ Spec.trap s (.bexp 1 4 3 2) = some (1, 4, 0x20000#32, 0#16)
      ∧ Spec.readsClean s (.bexp 1 4 3 2) ∧ (s.drnS 1).tip = true) := by
  refine ⟨met (by and_intros <;> decide), met (by and_intros <;> decide), met ⟨by decide, by decide, by decide, by decide, ?_, by decide⟩⟩
  exact cleanTwo (k := 0x3007FFFC) (r := 0x20000#32) (by decide) (by decide) (by unfold Spec.clean; decide) (by decide) (by decide)
theorem witness_zynEvents :
    Met (drone1 0x8008#32 7#32 ++ [Op.drn 1 fun z => { z with evpend := 0x8008#16, timer := 1#32 }]) (fun s => s.executes 1 = true
      ∧ Spec.lowest ((s.drnS 1).evpend &&& (s.gr 1 1).setWidth 16) 3 ∧ (s.drnS 1).evpend &&& (s.gr 1 2).setWidth 16 = 0#16
      ∧ (s.drnS 1).timer = 1#32 ∧ s.domState (domClu (1 / 8)) = 0)
    ∧ Met [Op.drn 1 fun z => { z with timer := 1#32 }] (fun s => (s.drnS 1).timer = 1#32 ∧ s.domState (domClu (1 / 8)) ≠ 0)
    ∧ Met ([run 64, Op.setF (HIVE_DRN_STAT 1) HIVE_DRN_STAT_STATE 2,
        Op.drn 1 fun z => { z with evpend := 0x8000#16, wait := some (4, 0xFFFF#16) }]) (fun s => s.drnState 1 = 2
      ∧ (s.drnS 1).wait = some (4, 0xFFFF#16) ∧ Spec.lowest ((s.drnS 1).evpend &&& 0xFFFF#16) 15) :=
  ⟨met (by unfold Spec.lowest; decide), met (by decide), met (by unfold Spec.lowest; decide)⟩
theorem witness_zynReturnAndHandover :
    Met (drone1 0#32 0#32 ++ [Op.flag (HIVE_DRN_STAT 1) HIVE_DRN_STAT_PENDING, Op.drn 1 fun z => { z with nmi := true, pause := some 1#64 }])
      (fun s => s.executes 1 = true ∧ (s.drnS 1).keeper = true ∧ s.bit (HIVE_DRN_STAT 1) HIVE_DRN_STAT_PENDING = true
        ∧ (s.drnS 1).pause = some 1#64) := met (by decide)
theorem witness_zynParameterSpace :
    Met (drone1 0x44#32 0x2#32) (fun s => s.executes 1 = true
      ∧ Spec.paramRead s (.epl 1 3 1 0#16) = some (1, 3, 0x44#32, 4#16) ∧ Spec.mayAccess s 1 0x44#32 false
      ∧ after (.readClear (.drone 1) .bar0 0x44#32 0) s [] (fun u => u.out) = [.read (.drone 1) 0#32]
      ∧ Spec.paramWrite s (.epsa 1 1 0xFFFFFFFC#32) = some (1, 1, 0xFFFFFFFC#32, 8#16) ∧ Spec.mayAccess s 1 0xFFFFFFFC#32 true
      ∧ Spec.paramWrite s (.eps 1 1 2 0#16) = some (1, 1, 0x2#32, 4#16) ∧ ¬Spec.mayAccess s 1 0x2#32 true ∧ (s.drnS 1).tip = false)
    ∧ Met (d1 fun z => { z with keeper := false, pwinB := 0x1000000#32, pwinL := 0x1000100#32 }) (fun s => s.executes 1 = true
      ∧ Spec.mayAccess s 1 0x10000FC#32 false ∧ ¬Spec.mayAccess s 1 0x1000100#32 false ∧ ¬Spec.mayAccess s 1 0x3500000#32 true) :=
  ⟨met (by simp only [Spec.mayAccess]; and_intros <;> decide), met (by simp only [Spec.mayAccess]; and_intros <;> decide)⟩

/-! Witnesses: accesses, swaps, gait table, transmitter and boundaries. -/

theorem witness_registerAccesses : Met [run 47, run 51] (fun s => Spec.served s (GLO_HINT_TX 47) ∧ Spec.served s (HRN_STAT 3)
    ∧ Spec.served s STW_ARG_ADDR ∧ Spec.served s (GLO_SAT_CNT 47) ∧ Spec.served s (CAP_TSTAMP_LO 47)) :=
  met ⟨srv (by decide), srv (by decide), srv (by decide), srv (by decide), srv (by decide)⟩
theorem witness_unassignedAddresses : Met (drone1 0x3FFFFFC#32 0#32) (fun s => (0x3FFFFFC#32).toNat < 0x4000000
    ∧ (0x3FFFFFC#32).toNat % 4 = 0 ∧ layout (0x3FFFFFC#32).toNat = none ∧ ¬(0x3500000 ≤ (0x3FFFFFC#32).toNat ∧ (0x3FFFFFC#32).toNat < 0x3600000)
    ∧ Spec.served s (0x3FFFFFC#32).toNat ∧ s.executes 1 = true ∧ Spec.paramRead s (.epl 1 2 1 0#16) = some (1, 2, 0x3FFFFFC#32, 4#16)
    ∧ Spec.paramWrite s (.epsa 1 2 0x3FFFFFC#32) = some (1, 2, 0x3FFFFFC#32, 8#16)
    ∧ Spec.mayAccess s 1 0x3FFFFFC#32 false ∧ Spec.mayAccess s 1 0x3FFFFFC#32 true) :=
  met ⟨by decide, by decide, by decide, by decide, srv (by decide), by decide, by decide, by decide,
    by simp only [Spec.mayAccess]; decide, by simp only [Spec.mayAccess]; decide⟩
theorem witness_darkAndUnalignedAccesses : Met [] (fun s => s.pwr.dead = false ∧ Spec.domain (0x27FFFFC#32).toNat = some 47
    ∧ 3 ≤ s.domState 47 ∧ (0x27FFFFC#32).toNat % 4 = 0 ∧ (s.stS 47).run = none ∧ (0x3FFFFC#22).toNat % 4 = 0
    ∧ (0x1000002#32).toNat % 4 ≠ 0 ∧ (0x1000001#32).toNat % 4 ≠ 0) := met (by and_intros <;> decide)
theorem witness_memoryWindowAccesses : Met [run 47] (fun s => s.pwr.dead = false ∧ (0x1FFFFF8#25).toNat % 8 = 0
    ∧ s.combHeld (0x1FFFFF8#25).toNat 8 = false ∧ (0x1FFFFFC#25).toNat % 4 = 0 ∧ Spec.clean s (0x1FFFFFC#25).toNat ∧ s.domState 47 < 3
    ∧ (s.stS 47).run = none ∧ (0x3FFFF8#22).toNat % 8 = 0 ∧ 0x7#4 ≠ 15#4 ∧ 0x2000000 ≤ (0x3FFFFFFF#32).toNat
    ∧ (0x3FFFFFFF#32).toNat < 0x40000000) := met (by unfold Spec.clean; and_intros <;> decide)
theorem witness_swapRequests :
    Met (rx5 7 ++ [Op.eng 5 fun e => { e with tx := .on }]) (fun s => Spec.served s (ENG_SWAP_REQ 5)
      ∧ Spec.judge s 5 0 [2, 3] 0 = 0 ∧ Spec.judge s 5 1 [2] 1#24 = 2 ∧ Spec.judge s 5 1 [2] 2#24 = 0
      ∧ Spec.judge s 5 1 [2] 0x800000#24 = 2 ∧ Spec.judge s 5 2 [2] 0 = 3 ∧ Spec.judge s 5 3 [2] 0 = 4)
    ∧ Met (e5 fun e => { e with swaps := [⟨2, false, .next, false⟩] }) (fun s => Spec.served s (ENG_SWAP_REQ 5)
      ∧ Spec.judge s 5 0 [2] 0 = 1 ∧ Spec.judge s 5 2 [4] 0 = 0) :=
  ⟨met ⟨srv (by decide), by and_intros <;> decide⟩, met ⟨srv (by decide), by and_intros <;> decide⟩⟩
theorem witness_zynSwap : Met (drone1 0x4#32 0#32 ++ [run 47, run 1]) (fun s => s.executes 1 = true ∧ Spec.swapEng 1 false 47#6 = some 47
    ∧ Spec.swapEng 1 true 0#6 = some 1 ∧ (s.drnS 1).keeper = true ∧ Spec.named ((s.gr 1 1).setWidth 15) = [2] ∧ s.served 47 = true
    ∧ Spec.swapEng 1 false 48#6 = none ∧ Spec.named ((s.gr 1 2).setWidth 15) = []) := met (by and_intros <;> decide)
/-- A valid gait entry 0 of engine 5, of constellation 0: k = 0 and one slot (R54). -/
def gait0 : List Op := [Op.wr (GAIT_W1 5 0) 1#32, Op.wr (GAIT_W2 5 0) 128#32, Op.wr (GAIT_W0 5 0) 0x80800000#32]
set_option maxRecDepth 100000 in
theorem witness_gaitTable :
    Met (run 5 :: gait0) (fun s => Spec.served s (GAIT_W0 5 0) ∧ (s.gait 5 0).bad = 0 ∧ Spec.gaitProtected s 5 0 3 0#32
      ∧ ¬Spec.gaitProtected s 5 15 0 0x80800000#32 ∧ (gaitOf 0x80800000#32 (s.reg (GAIT_W1 5 15)) (s.reg (GAIT_W2 5 15))).bad ≠ 0
      ∧ s.pendBlk 5 0 = false ∧ s.bit (GAIT_W0 5 15) GAIT_W0_VALID = false ∧ s.bit (GAIT_W0 5 0) GAIT_W0_VALID = true)
    ∧ Met (e5 fun e => { e with swaps := [⟨0, false, .next, false⟩] }) (fun s => s.pendBlk 5 0 = true ∧ s.pendBlk 5 1 = false) :=
  ⟨met ⟨srv (by decide), by and_intros <;> decide⟩, met (by decide)⟩
theorem witness_transmitterSwitching :
    Met (run 5 :: gait0) (fun s => Spec.served s (TX_CTL 5) ∧ s.bit (TX_CTL 5) TX_CTL_EN = false ∧ s.inRun 5 = true
      ∧ s.bit (GAIT_W0 5 (s.txAct 5)) GAIT_W0_VALID = true ∧ s.txcBad 5 0x4000 = false ∧ s.bit (TX_STAT 5) TX_STAT_ON = false
      ∧ (s.engS 5).tx = .off)
    ∧ Met ([run 5, Op.flag (TX_CTL 5) TX_CTL_EN, Op.flag (TX_STAT 5) TX_STAT_ON, Op.eng 5 fun e => { e with tx := .on }]) (fun s =>
      Spec.served s (TX_CTL 5) ∧ s.bit (TX_CTL 5) TX_CTL_EN = true ∧ s.bit (TX_STAT 5) TX_STAT_ON = true ∧ (s.engS 5).tx ≠ .starting)
    ∧ Met (run 5 :: [Op.eng 5 fun e => { e with tx := .starting }]) (fun s => (s.engS 5).tx = .starting
      ∧ s.bit (GAIT_W0 5 (s.txAct 5)) GAIT_W0_VALID = false ∧ s.bit (TX_CTL 5) TX_CTL_EN = false)
    ∧ Met (e5 fun e => { e with tx := .stopping }) (fun s => (s.engS 5).tx = .stopping)
    -- the first sample with released pads; a DAC that saturates for the first time and again
    ∧ Met [run 5, Op.setF (PWR_DOM 5) PWR_DOM_PAD_HOLD 0, Op.eng 5 fun e => { e with tx := .starting }] (fun s => (s.engS 5).tx = .starting
      ∧ (s.engS 5).hold = false ∧ s.bit (PWR_DOM (domEng 5)) PWR_DOM_PAD_HOLD = false)
    ∧ Met [run 5, Op.flag (TX_STAT 5) TX_STAT_ON, Op.flag (TX_STAT 5) ⟨7, 7⟩] (fun s => s.bit (TX_STAT 5) TX_STAT_ON = true
      ∧ s.bit (TX_STAT 5) ⟨4 + 0, 4 + 0⟩ = false ∧ s.bit (TX_STAT 5) ⟨4 + 3, 4 + 3⟩ = true) :=
  ⟨met ⟨srv (by decide), by and_intros <;> decide⟩, met ⟨srv (by decide), by and_intros <;> decide⟩, met (by decide), met (by decide),
    met (by decide), met (by decide)⟩
theorem witness_boundaries :
    Met (e5 fun e => { e with tx := .on, prop := { e.prop with st := 2, s := 1 } }) (fun s => (s.engS 5).tx = .on
      ∧ (s.engS 5).prop.st = 2 ∧ (s.engS 5).prop.s = s.sfTx 5 + 1#24)
    ∧ Met (run 5 :: gait0 ++ [Op.setF (PWR_DOM 5) PWR_DOM_PAD_HOLD 0, Op.setF (ENG_SF_TX 5) ENG_SF_TX_SN 7, Op.eng 5 fun e => { e with tx := .on, swaps := [⟨2, false, .named 8, false⟩] }]) (fun s =>
      (s.engS 5).tx = .on ∧ (BitVec.ofNat 24 (s.fld (ENG_SF_TX 5) ENG_SF_TX_SN) + 1#24).toNat % 8 = 0 ∧ (s.engS 5).hold = false
      ∧ s.bit (PWR_DOM (domEng 5)) PWR_DOM_PAD_HOLD = false ∧ Spec.due s 5 false 8#24 ≠ []
      ∧ ((Spec.due s 5 false 8#24).filter fun p => p.blk == (2 : Fin 15).val).length = 1
      ∧ (Spec.due s 5 false 8#24).filter (fun p => p.blk == (0 : Fin 15).val) = [])
    ∧ Met (rx5 7 ++ [Op.negRxSt 5 2, Op.eng 5 fun e => { e with resp := { e.resp with lt := 1 } }]) (fun s => s.rxState 5 = 7
      ∧ s.negRxState 5 = 2 ∧ (s.engS 5).resp.lt = s.sfRx 5 + 1#24 ∧ (s.engS 5).resp.catchUp = false
      ∧ ((Spec.sampled s 5 []).engS 5).rxp.fcnt = 0 ∧ (Spec.sampled s 5 []).rxState 5 = 7)
    ∧ Met (rx5 7 ++ [Op.negRxSt 5 3, Op.eng 5 fun e => { e with resp := { e.resp with lt := 1, catchUp := true } },
        Op.rxp 5 fun r => { r with fcnt := 2, fsum := -3 }]) (fun s =>
      s.negRxState 5 = 3 ∧ (s.engS 5).resp.lt = s.sfRx 5 + 1#24 ∧ (s.engS 5).resp.catchUp = true ∧ 2 ≤ s.rxState 5
      ∧ ((Spec.sampled s 5 []).engS 5).rxp.fcnt = 2 ∧ ((Spec.sampled s 5 []).engS 5).rxp.fsum = -3) :=
  ⟨met (by decide), met (by and_intros <;> decide), met (by and_intros <;> decide), met (by and_intros <;> decide)⟩
/-! Witnesses: negotiation and overhead. -/

/-- Entries 0 and 1 of engine 5 valid, its transmitter on. -/
def neg5 : List Op := run 5 :: gait0 ++ [Op.wr (GAIT_W1 5 1) 1#32, Op.wr (GAIT_W2 5 1) 128#32, Op.wr (GAIT_W0 5 1) 0x80800000#32,
  Op.eng 5 fun e => { e with tx := .on }]
theorem witness_negotiationProposer :
    Met (neg5 ++ [Op.wr (NEG_TX_S 5) 24#32]) (fun s => Spec.served s (NEG_TX_CTL 5) ∧ Spec.goReason s 5 1 [] = 0
      ∧ (0x80010000#32).getLsbD 30 = false ∧ getFld 0x80010000#32 NEG_TX_CTL_INDEX = 1 ∧ (0x40010000#32).getLsbD 31 = false)
    ∧ Met (neg5 ++ [Op.wr (NEG_TX_S 5) 23#32]) (fun s => Spec.served s (NEG_TX_CTL 5) ∧ Spec.goReason s 5 1 [] = 6)
    ∧ Met (neg5 ++ [Op.eng 5 fun e => { e with prop := { e.prop with st := 1, s := 39 } }]) (fun s => (s.engS 5).prop.st = 1
      ∧ Spec.lead s 5 (s.engS 5).prop.s.toNat = 31)
    ∧ Met (neg5 ++ [Op.eng 5 fun e => { e with prop := { e.prop with st := 1, s := 40 } }]) (fun s => Spec.served s (NEG_TX_CTL 5)
      ∧ (s.engS 5).prop.st = 1 ∧ ¬(Spec.lead s 5 (s.engS 5).prop.s.toNat < 32 ∨ 2 ^ 23 ≤ Spec.lead s 5 (s.engS 5).prop.s.toNat)) :=
  ⟨met ⟨srv (by decide), by and_intros <;> decide⟩, met ⟨srv (by decide), by decide⟩, met (by decide), met ⟨srv (by decide), by decide⟩⟩
theorem witness_negotiationResponder :
    Met (neg5 ++ rx5 7 ++ [Op.negRxSt 5 1, Op.flag (NEG_RX_PROP 5) NEG_RX_PROP_CHECK_OK, Op.flag (ENG_SF_OFS 5) ENG_SF_OFS_VALID,
        Op.wr (NEG_RX_S 5) 32#32]) (fun s => Spec.served s (NEG_RX_CTL 5) ∧ s.negRxState 5 = 1 ∧ Spec.nakReason s 5 [] = 0
      ∧ (0x80000000#32).getLsbD 30 = false)
    ∧ Met (neg5 ++ rx5 7 ++ [Op.negRxSt 5 1, Op.flag (NEG_RX_PROP 5) NEG_RX_PROP_CHECK_OK, Op.flag (ENG_SF_OFS 5) ENG_SF_OFS_VALID,
        Op.wr (NEG_RX_S 5) 31#32]) (fun s => Spec.served s (NEG_RX_CTL 5) ∧ s.negRxState 5 = 1 ∧ Spec.nakReason s 5 [] = 6)
    ∧ Met [run 5] (fun s => Spec.served s (NEG_RX_CTL 5) ∧ s.negRxState 5 ≠ 1) :=
  ⟨met ⟨srv (by decide), by and_intros <;> decide⟩, met ⟨srv (by decide), by and_intros <;> decide⟩, met ⟨srv (by decide), by decide⟩⟩
/-! A superframe whose overhead symbols carry chosen slice bits: only the first copy of each bit has an energy (R59). -/
def ohSyms (d : Nat → Bool) : List Pol := (List.range 389).map fun p =>
  let o := p - 257 - (p - 256) / 32
  let g := fun j : Nat => if pilotBit (8160 + j) != d j then (-1 : Int) else 1
  if p < 257 then ((0, 0), (0, 0)) else ((g (2 * o), g (2 * o + 1)), (0, 0))
theorem sliceBit_ohSyms (s : State) (n : Nat) (r : RxSf) (d : Nat → Bool) (hm : (r.glo.mode != 1) = true) (hs : r.syms = ohSyms d)
    (j : Nat) (hj : j < 256) : s.sliceBit n r j = d j := by
  have glo : ∀ y p, s.rxGlo n r y p = polOf y ((ohSyms d).getD p ((0, 0), (0, 0))) := fun y p => by
    unfold State.rxGlo State.rxGloOut GloRec.apply
    rw [if_pos (by rw [hm]; rfl), hs]
  have zero : ∀ y o, 128 ≤ o → polOf y ((ohSyms d).getD (ohPos o) ((0, 0), (0, 0))) = ((0, 0) : Int × Int) := fun y o h => by
    rw [List.getD_eq_getElem?_getD, List.getElem?_eq_none (by simp only [ohSyms, List.length_map, List.length_range, ohPos, symPos]; omega)]
    cases y <;> rfl
  have own : (ohSyms d).getD (ohPos (j / 2)) ((0, 0), (0, 0)) =
      ((if pilotBit (8160 + 2 * (j / 2)) != d (2 * (j / 2)) then (-1 : Int) else 1,
        if pilotBit (8160 + (2 * (j / 2) + 1)) != d (2 * (j / 2) + 1) then (-1 : Int) else 1), (0, 0)) := by
    have lt : ohPos (j / 2) < 389 := by simp only [ohPos, symPos]; omega
    have e : ohPos (j / 2) - 257 - (ohPos (j / 2) - 256) / 32 = j / 2 := by simp only [ohPos, symPos]; omega
    have ge : ¬ohPos (j / 2) < 257 := by simp only [ohPos, symPos]; omega
    have ge' : (ohSyms d)[ohPos (j / 2)]? = some ((if pilotBit (8160 + 2 * (j / 2)) != d (2 * (j / 2)) then (-1 : Int) else 1,
        if pilotBit (8160 + (2 * (j / 2) + 1)) != d (2 * (j / 2) + 1) then (-1 : Int) else 1), (0, 0)) := by
      unfold ohSyms
      rw [List.getElem?_map, List.getElem?_range lt]
      simp only [Option.map_some, e, if_neg ge]
    rw [List.getD_eq_getElem?_getD, ge']; rfl
  have rest : ∀ k, 1 ≤ k → k < 8 → s.rxGlo n r (Nat.ble 1024 (j + 256 * k)) (ohPos ((j + 256 * k) % 1024 / 2)) = (0, 0) := by
    intro k h1 h2
    rw [glo]
    by_cases h4 : k = 4
    · subst h4
      rw [show (j + 256 * 4) % 1024 / 2 = j / 2 by omega, own, show Nat.ble 1024 (j + 256 * 4) = true by rw [Nat.ble_eq]; omega]; rfl
    · exact zero _ _ (by omega)
  have first : s.rxGlo n r (Nat.ble 1024 j) (ohPos (j % 1024 / 2)) = (if pilotBit (8160 + 2 * (j / 2)) != d (2 * (j / 2)) then (-1 : Int) else 1,
        if pilotBit (8160 + (2 * (j / 2) + 1)) != d (2 * (j / 2) + 1) then (-1 : Int) else 1) := by
    rw [glo, show j % 1024 / 2 = j / 2 by omega, own, show Nat.ble 1024 j = false by rw [← Bool.not_eq_true, Nat.ble_eq]; omega]; rfl
  unfold State.sliceBit
  simp only [show List.range 8 = [0, 1, 2, 3, 4, 5, 6, 7] from rfl, List.foldl_cons, List.foldl_nil, Nat.mul_zero, Nat.add_zero,
    rest 1 (by omega) (by omega), rest 2 (by omega) (by omega), rest 3 (by omega) (by omega), rest 4 (by omega) (by omega),
    rest 5 (by omega) (by omega), rest 6 (by omega) (by omega), rest 7 (by omega) (by omega), first, ite_self, Int.neg_zero, Int.add_zero, Int.zero_add]
  rcases Nat.mod_two_eq_zero_or_one j with h | h
  · rw [show 2 * (j / 2) = j by omega]
    cases d j <;> cases pilotBit (8160 + j) <;> simp [h]
  · rw [show 2 * (j / 2) + 1 = j by omega]
    cases d j <;> cases pilotBit (8160 + j) <;> simp [h]
/-- The bytes of slice bits, and the slice bits of byte 32k and those after it of a frame (R58). -/
def bytesOf (d : Nat → Bool) : List Byte := (List.range 32).map fun b => BitVec.ofNat 8 (bitsVal ((List.range 8).map fun i => d (8 * b + i)))
def sliceOf (f : List Byte) (k j : Nat) : Bool := (f.getD (32 * k + j / 8) 0#8).getLsbD (7 - j % 8)
theorem sliceBytes_ohSyms (s : State) (n : Nat) (r : RxSf) (d : Nat → Bool) (hm : (r.glo.mode != 1) = true) (hs : r.syms = ohSyms d) :
    s.sliceBytes n r = bytesOf d := by
  refine List.map_congr_left fun b hb => congrArg (fun l => BitVec.ofNat 8 (bitsVal l)) (List.map_congr_left fun i hi => ?_)
  exact sliceBit_ohSyms s n r d hm hs _ (by have := List.mem_range.1 hb; have := List.mem_range.1 hi; omega)
/-- The record of a superframe that carries a slice of a frame, and the eight of a frame, oldest first. -/
def ohRec (f : List Byte) (l0 : BitVec 24) (k : Nat) : RxSf :=
  ⟨0, l0 + BitVec.ofNat 24 k, some 0, none, none, 0, 0, 0, false, false, 0, 0, ⟨0, [], 0, [], 0, []⟩, [], [], ohSyms (sliceOf f k), [], some true,
    false, false, false⟩
def carries (f : List Byte) (l0 : BitVec 24) : Op := Op.rxp 5 fun r => { r with sfs := ((List.range 8).map (ohRec f l0)).reverse }
theorem byte_bits (b : Byte) : BitVec.ofNat 8 (bitsVal ((List.range 8).map fun i => b.getLsbD (7 - i))) = b := by
  revert b; decide +kernel
theorem bytesOf_sliceOf (f : List Byte) (k : Nat) : bytesOf (sliceOf f k) = (List.range 32).map fun b => f.getD (32 * k + b) 0#8 := by
  refine List.map_congr_left fun b _ => Eq.trans ?_ (byte_bits (f.getD (32 * k + b) 0#8))
  refine congrArg (fun l => BitVec.ofNat 8 (bitsVal l)) (List.map_congr_left fun i hi => ?_)
  have := List.mem_range.1 hi
  unfold sliceOf
  rw [show (8 * b + i) / 8 = b by omega, show (8 * b + i) % 8 = i by omega]
set_option maxRecDepth 10000 in
theorem slices_whole (g : Nat → Byte) : (List.range 8).flatMap (fun k => (List.range 32).map fun b => g (32 * k + b)) = (List.range 256).map g := by
  rfl
theorem slices_frame (f : List Byte) (h : f.length = 256) : (List.range 8).flatMap (fun k => bytesOf (sliceOf f k)) = f := by
  rw [funext (bytesOf_sliceOf f), slices_whole fun i => f.getD i 0#8]
  refine List.ext_getElem (by simp [h]) fun i h1 h2 => ?_
  rw [List.getElem_map, List.getElem_range, List.getD_eq_getElem?_getD, List.getElem?_eq_getElem h2]; rfl
theorem received5 {s : State} {f : List Byte} {l0 : BitVec 24} (h : s.ohSlices 5 = some ((List.range 8).map (ohRec f l0)))
    (lock : s.rxState 5 = 7) (len : f.length = 256) : Spec.received s 5 = some (f, l0) := by
  unfold Spec.received
  have e : ((List.range 8).map (ohRec f l0)).flatMap (s.sliceBytes 5) = f := by
    rw [List.flatMap_map]
    refine Eq.trans ?_ (slices_frame f len)
    exact congrArg (fun g => List.flatMap g _) (funext fun k => sliceBytes_ohSyms s 5 (ohRec f l0 k) (sliceOf f k) rfl rfl)
  have z : l0 + BitVec.ofNat 24 0 = l0 := by simp
  have h' : s.ohSlices ((5 : Eng) : Nat) = some ((List.range 8).map (ohRec f l0)) := h
  rw [h']
  refine Eq.trans (if_pos lock) ?_
  exact congrArg some (Prod.ext e z)
/-- An overhead frame of FORMAT 1 with its FCS: the gait bytes from 40, and MSN in bytes 2 to 4 (R59, R60). -/
def frame5 (msn : Nat) (gait : List Byte) : List Byte :=
  let body := [1#8, 0#8] ++ beBytes 3 msn ++ List.replicate 35 0#8 ++ gait ++ List.replicate (214 - gait.length) 0#8
  body ++ beBytes 2 (crc16 body)
/-- Gait messages: PROPOSE of transaction 7; ACK echoed as CONFIRM of transaction 0 with an ACK of S = 40; ABANDON with a NAK of reason 3. -/
def propose : List Byte := [1#8, 7#8, 1#8]
def confirm : List Byte := [2#8, 0#8, 0#8, 0#8, 0#8, 0#8, 0#8, 0#8, 1#8, 0#8, 0#8] ++ beBytes 3 40
def abandons : List Byte := [3#8, 0#8, 0#8, 0#8, 0#8, 0#8, 0#8, 0#8, 2#8, 0#8, 3#8] ++ beBytes 3 40
def locked : Op := Op.flag (RX_STAT 5) RX_STAT_OH_LOCK
set_option maxRecDepth 100000 in
theorem witness_overheadFrames :
    Met (rx5 7) (fun s => Spec.received s 5 = none)
    ∧ Met (rx5 7 ++ [carries (frame5 8 []) 8#24]) (fun s => Spec.received s 5 = some (frame5 8 [], 8#24)
      ∧ s.bit (RX_STAT 5) RX_STAT_OH_LOCK = false ∧ crc16 (frame5 8 []) = 0 ∧ (frame5 8 []).getD 0 0#8 = 1#8
      ∧ (s.engS 5).oh.at_ 8#24 = none)
    ∧ Met (rx5 7 ++ [carries (frame5 8 []) 8#24, Op.eng 5 fun e => { e with oh := { e.oh with good := [(0, 0)] } }]) (fun s =>
      Spec.received s 5 = some (frame5 8 [], 8#24)
      ∧ (s.engS 5).oh.at_ 8#24 = some (BitVec.ofNat 24 (beVal ((frame5 8 []).extract 2 5)) - 8#24, 8#24 - 8#24))
    ∧ Met (rx5 7 ++ [locked, carries (List.replicate 256 1#8) 16#24]) (fun s =>
      Spec.received s 5 = some (List.replicate 256 1#8, 16#24) ∧ s.bit (RX_STAT 5) RX_STAT_OH_LOCK = true
      ∧ ((16#24).toNat + s.fld (ENG_SF_OFS 5) ENG_SF_OFS_OFS) % 8 = 0 ∧ crc16 (List.replicate 256 1#8) ≠ 0)
    ∧ Met (rx5 7 ++ [locked, carries (frame5 16 propose) 16#24]) (fun s => Spec.received s 5 = some (frame5 16 propose, 16#24)
      ∧ Spec.acted s 5 (frame5 16 propose) 16#24 ∧ s.negRxState 5 ≠ 3
      ∧ ((frame5 16 propose).getD 41 0#8).toNat ≠ s.fld (NEG_RX_STAT 5) NEG_RX_STAT_TID)
    ∧ Met (rx5 7 ++ [locked, carries (frame5 16 confirm) 16#24, Op.negRxSt 5 2,
        Op.eng 5 fun e => { e with resp := { e.resp with lt := 2 }, prop := { e.prop with st := 1, s := 40 } }]) (fun s =>
      Spec.received s 5 = some (frame5 16 confirm, 16#24) ∧ Spec.acted s 5 (frame5 16 confirm) 16#24
      ∧ s.negRxState 5 = 2 ∧ ((s.engS 5).resp.lt - s.sfRx 5).toNat = 2 ∧ (s.engS 5).resp.catchUp = false
      ∧ beVal ((frame5 16 confirm).extract 43 46) = s.fld (NEG_RX_S 5) NEG_RX_S_S
      ∧ (s.engS 5).prop.st = 1 ∧ beVal ((frame5 16 confirm).extract 51 54) = (s.engS 5).prop.s.toNat ∧ Spec.lead s 5 (s.engS 5).prop.s.toNat = 32)
    ∧ Met (rx5 7 ++ [locked, carries (frame5 16 abandons) 16#24, Op.negRxSt 5 1,
        Op.eng 5 fun e => { e with prop := { e.prop with st := 1, s := 40 } }]) (fun s =>
      Spec.received s 5 = some (frame5 16 abandons, 16#24) ∧ Spec.acted s 5 (frame5 16 abandons) 16#24
      ∧ s.negRxState 5 = 1 ∧ (s.engS 5).prop.st = 1 ∧ beVal ((frame5 16 abandons).extract 51 54) = (s.engS 5).prop.s.toNat) :=
  ⟨met (by decide), met ⟨received5 rfl (by decide) (by decide +kernel), by and_intros <;> decide +kernel⟩,
    met ⟨received5 rfl (by decide) (by decide +kernel), by decide +kernel⟩,
    met ⟨received5 rfl (by decide) (by decide +kernel), by and_intros <;> decide +kernel⟩,
    met ⟨received5 rfl (by decide) (by decide +kernel), by unfold Spec.acted; and_intros <;> decide +kernel⟩,
    met ⟨received5 rfl (by decide) (by decide +kernel), by unfold Spec.acted; and_intros <;> decide +kernel⟩,
    met ⟨received5 rfl (by decide) (by decide +kernel), by unfold Spec.acted; and_intros <;> decide +kernel⟩⟩
/-! Witnesses: converters, calibration, capture. -/

theorem witness_converterInputs :
    Met (rx5 7) (fun s => Spec.served s (CONV_SEL 5) ∧ Spec.receiving s 5 ∧ 0xFF#32 &&& 0xFF#32 ≠ 0#32
      ∧ ¬(Spec.receiving s 5 ∧ 0x100#32 &&& 0xFF#32 ≠ 0#32) ∧ (s.reg (CONV_OVR_STAT 5)).getLsbD 0 = false)
    ∧ Met (rx5 1 ++ [Op.wr (CONV_SEL 5) 0x40#32, Op.flag (CONV_OVR_STAT 5) ⟨3, 3⟩]) (fun s => s.rxState 5 = 1
      ∧ ¬(Spec.receiving s 5 ∧ 0#32 &&& 0xFF#32 ≠ 0#32) ∧ ((Spec.sampled s 5 []).reg (CONV_SEL 5) >>> (2 * 3)) &&& 3#32 ≠ 0#32
      ∧ (s.reg (CONV_OVR_STAT 5)).getLsbD 3 = true)
    -- slice 63 runs and has statistics above the threshold; spare 64 serves slice 5 and is held at its limit; spare 67 is out of use
    ∧ Met ([run 5, Op.wr (CONV_ADC_MAP 5 3 + 0x4000) 0x85#32, Op.rxp 5 fun r => { r with power := 10 ^ 12, stat := [[], [], [], [[0#8]]] },
        Op.eng 5 fun e => { e with track := [(3 * 68 + 64, ⟨512, 0, 0, 0⟩)] }, Op.col fun c => { c with conds := [⟨0x153, 2, 2, condKey 2 5, 5⟩] }]) (fun s =>
      let u := Spec.sampled s 5 []
      (u.reg (CONV_SEL 5) >>> (2 * 3)) &&& 3#32 = 0#32 ∧ aboveThr (u.accThr 5) (u.engS 5).rxp.power = true ∧ (u.engS 5).rxp.stat.getD 3 [] ≠ []
      ∧ u.tracked 5 3 63 = true ∧ u.servedSlice 5 3 63 = some 63 ∧ u.holds (0x100 + 16 * 5 + 3) 2 2 63 = false
      ∧ u.tracked 5 3 64 = true ∧ u.servedSlice 5 3 64 = some 5 ∧ u.holds (0x100 + 16 * 5 + 3) 2 2 5 = true
      ∧ Spec.track u 5 3 64 = ⟨512, 0, 0, 0⟩ ∧ u.tracked 5 3 67 = false)
    ∧ Met [run 5, Op.wr (CONV_ADC_MAP 5 3) 0x80000000#32] (fun s => (s.reg (Spec.spareWord 5 3)).getLsbD (8 * 3 + 7) = true
      ∧ (s.reg (Spec.spareWord 5 3 + 0x4000)).getLsbD (8 * 3 + 7) = false ∧ s.ecc.job = none
      ∧ (s.reg (Spec.spareWord 5 7)).getLsbD (8 * 1 + 7) = false) :=
  ⟨met ⟨srv (by decide), by and_intros <;> decide⟩, met (by and_intros <;> decide), met (by and_intros <;> decide +kernel),
    met (by and_intros <;> decide)⟩
theorem witness_calibration :
    Met (e5 fun e => { e with calRun := 1 }) (fun s => (s.engS 5).calRun = 1 ∧ Spec.served s (CONV_CAL_CTL 5)
      ∧ (0x40000000#32).getLsbD 31 = false)
    ∧ Met (run 5 :: [Op.setF (CONV_CAL_TONE 5) CONV_CAL_TONE_FREQ 1000]) (fun s => (s.engS 5).calRun = 0
      ∧ Spec.calRefuse s 5 1 15 = 0 ∧ Spec.calRefuse s 5 2 15 = 0 ∧ Spec.calRefuse s 5 3 15 = 8 ∧ Spec.calRefuse s 5 0 15 = 10
      ∧ Spec.served s (CONV_CAL_CTL 5) ∧ (0x8000000F#32).getLsbD 30 = false)
    ∧ Met (run 5 :: [Op.setF (CONV_CAL_TONE 5) CONV_CAL_TONE_FREQ 999]) (fun s => Spec.calRefuse s 5 2 15 = 7)
    ∧ Met (e5 fun e => { e with calRun := 2, cal := [[⟨0, 0, false⟩]] }) (fun s => (s.engS 5).calRun = 2 ∧ (s.engS 5).cal ≠ [])
    ∧ Met (e5 fun e => { e with calRun := 2 }) (fun s => (s.engS 5).calRun = 2 ∧ (s.engS 5).cal = [])
    ∧ Met (e5 fun e => { e with calRun := 3 }) (fun s => (s.engS 5).calRun = 3 ∧ s.pendBlk 5 10 = false)
    ∧ Met (e5 fun e => { e with calRun := 3, swaps := [⟨10, true, .next, false⟩] }) (fun s => (s.engS 5).calRun = 3 ∧ s.pendBlk 5 10 = true)
    -- amplitudes for which every gain is a 16-bit value: G for an amplitude of 14 codes, and each g[k] near 1
    ∧ Met (e5 fun e => { e with calRun := 3, cal := [List.replicate 64 ⟨0, 0, false⟩], tone := [List.replicate 64 ⟨0, 1638400, false⟩] }) (fun s =>
      let amp := fun k => ampOf (Spec.sums (s.engS 5).cal 0 k) (Spec.sums (s.engS 5).tone 0 k)
      (s.engS 5).calRun = 3 ∧ s.pendBlk 5 10 = false ∧ 0 < ((List.range 64).map amp).sum
      ∧ rneDiv (14 * 16384 * 64 * 2 ^ 64 : Nat) (((List.range 64).map amp).sum) < 65536 ∧ 0 < amp 63
      ∧ rneDiv ((((List.range 64).map amp).sum) * 16384 : Nat) (64 * amp 63 : Nat) < 65536) :=
  ⟨met ⟨by decide, srv (by decide), by decide⟩, met ⟨by decide, by decide, by decide, by decide, by decide, srv (by decide), by decide⟩,
    met (by decide), met (by decide), met (by decide), met (by decide), met (by decide), met (by and_intros <;> decide +kernel)⟩
theorem witness_capture :
    -- pre-trigger record full; the pin of engine 5 alone is armed
    Met [run 5, Op.setF (CAP_STAT 5) CAP_STAT_STATE 1, Op.wr (CAP_LEN 5) 256#32, Op.wr (CAP_CTL 5) 0x100001#32,
        Op.eng 5 fun e => { e with cap := { e.cap with written := 256 } }] (fun s => s.capState 5 = 1 ∧ (Spec.sampled s 5 []).capState 5 = 1
      ∧ Spec.recLen (Spec.sampled s 5 []) 5 - Spec.postLen (Spec.sampled s 5 []) 5 ≤ ((Spec.sampled s 5 []).engS 5).cap.written
      ∧ Spec.served s (CAP_CTL 5) ∧ (∀ m : Eng, s.bit (CAP_CTL m) CAP_CTL_SRC_PIN = decide (m = 5))
      ∧ s.bit (CAP_CTL 5) CAP_CTL_EDGE = false ∧ s.bit (CAP_CTL 5) CAP_CTL_SRC_TIME = false ∧ s.capState 5 ≠ 3
      ∧ (s.fld (CAP_CTL 5) CAP_CTL_MASK).testBit 0 = true ∧ s.inRun 5 = true ∧ (s.engS 5).cap.tail = none ∧ s.fld (CAP_CTL 5) CAP_CTL_POINT ≠ 1)
    -- a record of 2^20 samples ends; its time has come, for a second trigger, though it fired already
    ∧ Met [run 5, Op.setF (CAP_STAT 5) CAP_STAT_STATE 3, Op.wr (CAP_POST 5) 0x1FFFFF#32, Op.wr (CAP_CTL 5) 0x200001#32,
        Op.eng 5 fun e => { e with cap := { e.cap with trigAt := 0x100, written := 0x100100 } }] (fun s => s.capState 5 = 3
      ∧ (Spec.sampled s 5 []).capState 5 = 3
      ∧ ((Spec.sampled s 5 []).engS 5).cap.trigAt + Spec.postLen (Spec.sampled s 5 []) 5 ≤ ((Spec.sampled s 5 []).engS 5).cap.written
      ∧ ((Spec.sampled s 5 []).engS 5).cap.held = none
      ∧ Spec.recLen (Spec.sampled s 5 []) 5 ≤ ((Spec.sampled s 5 []).engS 5).cap.written)
    -- the time trigger is due
    ∧ Met [run 5, Op.setF (CAP_STAT 5) CAP_STAT_STATE 2, Op.wr (CAP_CTL 5) 0x200001#32, Op.flag (CAP_STAT 5) CAP_STAT_LATE] (fun s =>
      let u := Spec.sampled s 5 []
      u.fld (CAP_TRIG_TIME_HI 5) CAP_TRIG_TIME_HI_T * 2 ^ 32 + (u.reg (CAP_TRIG_TIME_LO 5)).toNat = u.stamp
      ∧ u.bit (CAP_CTL 5) CAP_CTL_SRC_TIME = true ∧ u.capState 5 = 2 ∧ (u.engS 5).cap.timed = false
      ∧ s.bit (CAP_STAT 5) CAP_STAT_LATE = true ∧ s.inRun 5 = true ∧ (s.engS 5).cap.tail = none)
    ∧ Met [run 5] (fun s => s.capState 5 = 0 ∧ (s.engS 5).calRun = 0 ∧ Spec.served s (CAP_CTL 5)) :=
  ⟨met ⟨by decide, by decide, by decide, srv (by decide), by and_intros <;> decide⟩, met (by and_intros <;> decide), met (by and_intros <;> decide),
    met ⟨by decide, by decide, srv (by decide)⟩⟩
/-! Witnesses: the receiver. -/

/-- Power above, and below, the threshold for long, in a state entered long ago. -/
def above : Op := Op.rxp 5 fun r => { r with above := 10 ^ 9, inSt := 10 ^ 9 }
def below : Op := Op.rxp 5 fun r => { r with below := 10 ^ 9, inSt := 10 ^ 9 }
theorem witness_receiverControl :
    Met (rx5 2 ++ [Op.flag (RX_CTL 5) RX_CTL_EN, above]) (fun s => Spec.served s (RX_CTL 5) ∧ s.rxState 5 = 2 ∧ s.bit (RX_CTL 5) RX_CTL_EN = true
      ∧ (1#32).getLsbD 1 = false ∧ (3#32).getLsbD 0 = true ∧ (Spec.sampled s 5 []).rxState 5 = 2
      ∧ (Spec.sampled s 5 []).heldDwell 5 ((Spec.sampled s 5 []).engS 5).rxp.above = true)
    ∧ Met (rx5 6 ++ [below]) (fun s => 3 ≤ (Spec.sampled s 5 []).rxState 5 ∧ (Spec.sampled s 5 []).rxState 5 ≤ 6 ∧ s.bit (RX_CTL 5) RX_CTL_EN = false
      ∧ (Spec.sampled s 5 []).heldDwell 5 ((Spec.sampled s 5 []).engS 5).rxp.below = true)
    ∧ Met (rx5 1 ++ [Op.flag (RX_CTL 5) RX_CTL_EN]) (fun s => s.rxState 5 = 1 ∧ s.bit (RX_CTL 5) RX_CTL_EN = true) :=
  ⟨met ⟨srv (by decide), by and_intros <;> decide +kernel⟩, met (by and_intros <;> decide +kernel), met (by decide)⟩
/-- A sync word of an epoch after `n` symbols, or 256 symbols unlike it, and `k` symbols since. -/
def syncSyms (epoch : Bool) (n k : Nat) : Op := Op.rxp 5 fun r =>
  { r with
    syms := List.replicate k (((0, 0), (0, 0)), 0, 0)
      ++ ((syncWordX.zip (syncWordY.map fun v => if epoch then (-v.1, -v.2) else v)).map fun p => (p, 0, 0)).reverse
    symN := n + 256 + k, seen := n }
def noSyms (n k : Nat) : Op := Op.rxp 5 fun r =>
  { r with syms := List.replicate (256 + k) (((0, 0), (0, 0)), 0, 0), symN := n + 256 + k, seen := n }
def acq5 (f : Acq → Acq) : Op := Op.eng 5 fun e => { e with acq := f e.acq }
/-- What is known of the observation at the expected position: errors of X and of the two forms of Y. -/
def seen5 (s : State) : Option (Nat × Nat × Nat) :=
  if (Spec.sampled s 5 []).syncReady 5 then ((Spec.sampled s 5 []).syncObs 5).map fun o => (o.errs, o.y0, o.y1) else none
set_option maxRecDepth 100000 in
theorem witness_receiverAcquisition :
    -- a scan of one response; its fine pass has 17
    Met (rx5 3 ++ [Op.setF (RX_CD_SCAN 5) RX_CD_SCAN_RANGE 0, Op.rxp 5 fun r => { r with scan := (false, 80000, 9) :: List.replicate 17 (true, 80001, 3) }]) (fun s =>
      let u := Spec.sampled s 5 []
      u.rxState 5 = 3 ∧ 2 * Spec.scanHalf u 5 + 1 ≤ (Spec.trials u 5 false).length ∧ 17 ≤ (Spec.trials u 5 true).length
      ∧ Spec.isBest ((Spec.trials u 5 false).map fun t => t.2) 0 ∧ Spec.isBest ((Spec.trials u 5 true).map fun t => t.2) 0)
    -- the next trial of the coarse pass, and of the fine one
    ∧ Met (rx5 3 ++ [Op.setF (RX_CD_SCAN 5) RX_CD_SCAN_RANGE 1]) (fun s => let u := Spec.sampled s 5 []
      Spec.trials u 5 true = [] ∧ (Spec.trials u 5 false).length < 2 * Spec.scanHalf u 5 + 1)
    ∧ Met (rx5 4 ++ [acq5 fun a => { a with repl := true }, Op.rxp 5 fun r => { r with wordN := 10 ^ 6 }]) (fun s =>
      let u := Spec.sampled s 5 []
      u.rxState 5 = 4 ∧ u.elapsed 5 (u.engS 5).acq.conv0 (u.fld (RX_ACQ_TIME 5) RX_ACQ_TIME_CONV) = true ∧ (u.engS 5).acq.rconv = false ∧ (u.engS 5).acq.repl = true
      ∧ u.elapsed 5 (u.engS 5).acq.conv0 50 = true)
    ∧ Met (rx5 5 ++ [syncSyms false 1000 0, Op.rxp 5 fun r => { r with wordN := 10 ^ 6 }]) (fun s =>
      let u := Spec.sampled s 5 []
      u.rxState 5 = 5 ∧ (u.engS 5).rxp.firstHeld (u.engS 5).rxp.seen = 1000 ∧ (u.engS 5).rxp.symN = 1256
      ∧ (u.engS 5).rxp.hitAt (Spec.errBound u 5) 1000 = some (0, false, 0) ∧ (u.engS 5).acq.repl = false
      ∧ u.elapsed 5 (u.engS 5).acq.hunt0 (u.engS 5).acq.limit = true)
    ∧ Met (rx5 6 ++ [syncSyms false 65536 0, acq5 fun a => { a with count := 3 }]) (fun s => seen5 s = some (0, 0, 256)
      ∧ (Spec.sampled s 5 []).rxState 5 = 6 ∧ ((Spec.sampled s 5 []).engS 5).acq.count = 3)
    ∧ Met (rx5 6 ++ [syncSyms true 65536 0, acq5 fun a => { a with count := 2 }]) (fun s => seen5 s = some (0, 256, 0)
      ∧ (Spec.sampled s 5 []).rxState 5 = 6 ∧ ((Spec.sampled s 5 []).engS 5).acq.count = 2)
    ∧ Met (rx5 6 ++ [noSyms 65536 0]) (fun s => (seen5 s).any (fun o => decide (Spec.errBound (Spec.sampled s 5 []) 5 < o.1)) = true
      ∧ (Spec.sampled s 5 []).rxState 5 = 6)
    ∧ Met (rx5 7 ++ [syncSyms false 65536 300]) (fun s => seen5 s = some (0, 0, 256) ∧ (Spec.sampled s 5 []).rxState 5 = 7)
    ∧ Met (rx5 7 ++ [noSyms 65536 300, acq5 fun a => { a with pref := some 1 }, Op.rxp 5 fun r => { r with power := 10 ^ 12 }]) (fun s =>
      (seen5 s).any (fun o => decide (Spec.errBound (Spec.sampled s 5 []) 5 < o.1)) = true ∧ (Spec.sampled s 5 []).rxState 5 = 7
      ∧ ((Spec.sampled s 5 []).engS 5).acq.pref = some 1 ∧ 1 ^ 100 * 10 ^ (Spec.sampled s 5 []).fld (RX_ACQ_SYNC 5) RX_ACQ_SYNC_STEP
        < ((Spec.sampled s 5 []).engS 5).rxp.power ^ 100)
    ∧ Met (rx5 7 ++ [noSyms 65536 300, acq5 fun a => { a with miss := 7 }]) (fun s =>
      (seen5 s).any (fun o => decide (Spec.errBound (Spec.sampled s 5 []) 5 < o.1)) = true ∧ (Spec.sampled s 5 []).rxState 5 = 7
      ∧ ((Spec.sampled s 5 []).engS 5).acq.miss = 7 ∧ ((Spec.sampled s 5 []).engS 5).acq.pref = none)
    ∧ Met (rx5 7 ++ [noSyms 65536 300, acq5 fun a => { a with miss := 6 }]) (fun s =>
      (seen5 s).any (fun o => decide (Spec.errBound (Spec.sampled s 5 []) 5 < o.1)) = true ∧ (Spec.sampled s 5 []).rxState 5 = 7
      ∧ ((Spec.sampled s 5 []).engS 5).acq.miss = 6 ∧ ((Spec.sampled s 5 []).engS 5).acq.pref = none)
    ∧ Met (rx5 4) (fun s => ((Spec.sampled s 5 []).syncObs 5) = none ∧ (Spec.sampled s 5 []).rxState 5 = 4) :=
  ⟨met (by unfold Spec.isBest; and_intros <;> decide +kernel), met (by and_intros <;> decide +kernel), met (by and_intros <;> decide +kernel),
    met (by and_intros <;> decide +kernel), met (by and_intros <;> decide +kernel), met (by and_intros <;> decide +kernel),
    met (by and_intros <;> decide +kernel), met (by and_intros <;> decide +kernel), met (by and_intros <;> decide +kernel),
    met (by and_intros <;> decide +kernel), met (by and_intros <;> decide +kernel), met (by decide +kernel)⟩
theorem witness_receiverFeedback :
    Met (rx5 7 ++ [Op.rxp 5 fun r => { r with wordN := 10 ^ 9, tsum := 5, tcnt := 1 }, Op.wr (RX_TUNE_CFG 5) 0xFFFFFFFF#32]) (fun s =>
      Spec.served s (RX_SYNCQ_SF 5) ∧ Spec.served s (RX_EQ_CTL 5) ∧ ((Op.each [((5 : Eng), ([] : List CapWord))] fun e => Op.adcIn e.1 e.2).run s.quiet).tuneDue 5 = true
      ∧ (2#32).getLsbD 2 = false ∧ (4#32).getLsbD 1 = false) := met ⟨srv (by decide), srv (by decide), by decide +kernel, by decide, by decide⟩
/-! Witnesses: Glohiord, the decoder pool. -/

/-- A superframe on transmit whose 128 equal terms, own |x|^2 x times 1 - 2^-15, saturate the first symbol; one on receive whose first symbol
is out of range before the stage; one with a neighbour on slot 1. -/
def loudTx : SfRec := ⟨0, 0, 0x80800000#32, 1#32, 128#32, false, [], 0, false, true, false, 0, [], [],
  ⟨1, List.replicate 128 (0x80000000#32, 0x00007FFF#32), 0, [], 65536, []⟩, 0, 0, 0, [], [], false⟩
def loudRx : RxSf :=
  ⟨0, 7#24, none, none, none, 0, 0, 0, false, false, 0, 0, ⟨1, [], 0, [], 65536, []⟩, [], [], [((40000, 0), (0, 0))], [], none, false, false, false⟩
def byFour : RxSf :=
  ⟨0, 0, none, none, none, 0, 0, 0, false, false, 0, 0, ⟨1, [], 2, [none, some (0, 0), none, none], 65536, []⟩, [], [], [], [], none, false, false, false⟩
theorem find_one {α : Type} {p : α → Bool} {l : List α} {r : α} (hl : l = [r]) (h : p r = true) : l.find? p = some r := by
  subst hl; simp [h]
theorem loud_tx : (mk [run 5, Op.eng 5 fun e => { e with sfs := [loudTx] }]).txSat 5 loudTx = true := by
  unfold State.txSat
  exact List.any_eq_true.2 ⟨0, List.mem_range.2 (by omega), by decide +kernel⟩
theorem loud_rx : (mk (rx5 7 ++ [Op.rxp 5 fun r => { r with sfs := [loudRx] }])).rxSat 5 loudRx = true := by
  unfold State.rxSat
  refine Bool.and_eq_true_iff.2 ⟨by decide, List.any_eq_true.2 ⟨0, List.mem_range.2 (by omega), by decide +kernel⟩⟩
theorem witness_glohiordStage :
    Met (rx5 7 ++ [Op.setF (RX_STAT 4) RX_STAT_STATE 7]) (fun s => s.fld (GLO_OCC 5) GLO_OCC_RX_SEEN ≠ Spec.pattern s 5 true
      ∧ s.fld (GLO_OCC 5) GLO_OCC_TX_SEEN = Spec.pattern s 5 false ∧ Spec.served s (GLO_TERM 5 1 127)
      ∧ s.fld (TX_MODE 5 + 0x4000) TX_MODE_GLO ≠ 1 ∧ 5 ≤ getFld 0xFFFFFFFF#32 GLO_TERM_SRC_A ∧ Spec.served s (GLO_PAGE_CTL 5)
      ∧ s.bit (GLO_PAGE_STAT 5) GLO_PAGE_STAT_IS_OPEN = false ∧ gloPage (s.reg (GLO_SEL 5 + 0x4000)) false ≠ 2047
      ∧ gloPage (s.reg (GLO_SEL 5 + 0x4000)) true ≠ 2047 ∧ gloPage (s.reg (GLO_SEL 5 + 0x4000)) true = 0 ∧ s.pendBlk 5 6 = false
      ∧ s.pendBlk 5 7 = false ∧ s.gloHeld 5 true = false ∧ s.pwr.dead = false ∧ s.domState 5 < 3 ∧ (s.stS 5).run = none)
    ∧ Met [run 5, Op.wr (GLO_PAGE_STAT 5) 0xFFFFFFFF#32, Op.setF (RX_MODE 5 + 0x4000) RX_MODE_GLO 1] (fun s =>
      s.bit (GLO_PAGE_STAT 5) GLO_PAGE_STAT_IS_OPEN = true ∧ s.fld (GLO_PAGE_STAT 5) GLO_PAGE_STAT_PAGE = 2047
      ∧ s.fld (RX_MODE 5 + 0x4000) RX_MODE_GLO = 1)
    ∧ Met (rx5 7 ++ [Op.setF (RX_STAT 4) RX_STAT_STATE 7, Op.wr (GLO_CFG 5) 0xFFFFFFFF#32,
        Op.eng 5 fun e => { e with resp := { e.resp with blocks := [7] } }]) (fun s => s.bit (GLO_CFG 5) GLO_CFG_EV_RX = true
      ∧ s.gloHeld 5 true = true ∧ s.fld (GLO_OCC 5) GLO_OCC_RX_SEEN ≠ Spec.pattern s 5 true)
    -- saturation on each side and none; a neighbour of the superframe in progress that is usable no more
    ∧ Met [run 5, Op.eng 5 fun e => { e with sfs := [loudTx] }] (fun s => (s.engS 5).sfs.find? (fun r => !r.sat && s.txSat 5 r) = some loudTx
      ∧ (s.engS 5).rxp.sfs.find? (fun r => !r.sat && s.rxSat 5 r) = none)
    ∧ Met (rx5 7 ++ [Op.rxp 5 fun r => { r with sfs := [loudRx] }]) (fun s =>
      (s.engS 5).rxp.sfs.find? (fun r => !r.sat && s.rxSat 5 r) = some loudRx ∧ (s.engS 5).sfs.find? (fun r => !r.sat && s.txSat 5 r) = none)
    ∧ Met (rx5 7 ++ [Op.setF (GLO_OCC 5) GLO_OCC_RX_SEEN 2, Op.rxp 5 fun r => { r with sfs := [byFour] }]) (fun s =>
      s.fld (GLO_OCC 5) GLO_OCC_RX_SEEN ≠ Spec.pattern s 5 true ∧ s.gloCur 5 true = some byFour.glo ∧ (byFour.glo.nbr.getD 1 none).isSome = true
      ∧ (Spec.neighbour 5 1).elim false (Spec.usable s 5 true) = false) :=
  ⟨met ⟨by decide, by decide, srv (by decide), by decide, by decide, srv (by decide), by and_intros <;> decide⟩,
    met (by and_intros <;> decide), met (by and_intros <;> decide), met ⟨find_one rfl (by rw [loud_tx]; rfl), rfl⟩,
    met ⟨find_one rfl (by rw [loud_rx]; rfl), rfl⟩, met (by and_intros <;> decide)⟩
/-- A direction of an edge link in a state. -/
def edge (k : Nat) (e : EdgeSt) : Op := Op.mod fun s => { s with edge := Tab.set s.edge (fun _ => EdgeSt.init) k e }
theorem witness_edgeLinks :
    Met [run 38, edge 9 ⟨false, [0, 0, 0, 7], [0, 0, 0, 0], []⟩] (fun s => (∃ i : Fin 4, s.inRun (8 * (4 : Fin 5).val + 6 + i.val) = true)
      ∧ (s.edgeS 9).bad.length = 4 ∧ (s.edgeS 9).good.length = 4 ∧ (s.edgeS 9).down = false ∧ crc16 [] ≠ 0
      ∧ 8 ≤ (s.edgeS 9).bad.getD 3 0 + 1 ∧ (s.edgeS 9).bad.getD 0 0 + 1 < 8)
    ∧ Met [run 41, edge 9 ⟨true, [0, 0, 0, 0], [64, 64, 64, 63], []⟩] (fun s => (∃ i : Fin 4, s.inRun (8 * (4 : Fin 5).val + 6 + i.val) = true)
      ∧ (s.edgeS 9).bad.length = 4 ∧ (s.edgeS 9).good.length = 4 ∧ (s.edgeS 9).down = true ∧ crc16 [0xFF#8, 0xFF#8] = 0
      ∧ 64 ≤ min 64 ((s.edgeS 9).good.getD 3 0 + 1) ∧ ∀ i : Fin 4, i ≠ 3 → 64 ≤ (s.edgeS 9).good.getD i 0)
    ∧ Met [run 37] (fun s => ¬∃ i : Fin 4, s.inRun (8 * (4 : Fin 5).val + 6 + i.val) = true) :=
  ⟨met (by and_intros <;> decide), met (by and_intros <;> decide +kernel), met (by decide)⟩
/-- The record of superframe 0 of a run, whose codewords unit 3 decodes, or none does. -/
def cwRec (dec : List Nat) : RxSf :=
  ⟨0, 0, some 0, some 0, some 0, 0x80000000#32, 1#32, 128#32, false, false, 0, 4096, ⟨0, [], 0, [], 0, []⟩, dec, [], [], [], some true, false, false, false⟩
set_option maxRecDepth 100000 in
theorem witness_decodedCodewords :
    Met (rx5 7 ++ [Op.rxp 5 fun r => { r with sfs := [cwRec [3]] }, Op.setF POOL_MIRROR_STAT POOL_MIRROR_STAT_STATE 2,
        Op.setF POOL_MIRROR_STAT POOL_MIRROR_STAT_COMPARED 4095, Op.mod fun s => { s with mir := { s.mir with target := 3, since := some 0xFFFFFF#24 } }, Op.wr FAR_CFG 0]) (fun s =>
      s.cwDue 5 0 = some (cwRec [3]) ∧ (cwRec [3]).dec[0 % (cwRec [3]).dec.length]? = some 3 ∧ s.bit (FEC_STAT 5) FEC_STAT_UNCORR = false
      ∧ s.fld POOL_MIRROR_STAT POOL_MIRROR_STAT_STATE = 2 ∧ s.mir.target = 3
      ∧ (s.mir.since.elim True fun x => 1 ≤ ((cwRec [3]).cnt - x).toNat ∧ ((cwRec [3]).cnt - x).toNat < 2 ^ 23)
      ∧ s.fld POOL_MIRROR_STAT POOL_MIRROR_STAT_COMPARED < 4096 ∧ s.pwr.dead = false ∧ s.bit FAR_CFG FAR_CFG_AUTO_UNIT = false)
    ∧ Met (rx5 7 ++ [Op.rxp 5 fun r => { r with sfs := [cwRec []] }, Op.flag (FEC_STAT 5) FEC_STAT_UNCORR]) (fun s =>
      s.cwDue 5 0 = some (cwRec []) ∧ (cwRec []).dec = [] ∧ s.cwDue 5 1000 = none ∧ s.bit (FEC_STAT 5) FEC_STAT_UNCORR = true) :=
  ⟨met (by and_intros <;> decide +kernel), met (by and_intros <;> decide +kernel)⟩
/-- Unit 0 assigned, unit 87 free; and the mirror command that names them. -/
def mir87 : List Op := [Op.setF (POOL_UNIT 0) POOL_UNIT_STATE 1, Op.setF (POOL_UNIT 87) POOL_UNIT_STATE 0, Op.setF (POOL_UNIT 1) POOL_UNIT_STATE 5]
theorem witness_decoderUnits :
    Met (mir87 ++ [run 62]) (fun s => Spec.unit s 1 = 5 ∧ s.pwr.dead = false ∧ (0x80000057#32).getLsbD 30 = false
      ∧ getFld 0x80000057#32 POOL_MIRROR_CTL_SPARE = 87 ∧ Spec.unit s 87 = 0 ∧ getFld 0x80000057#32 POOL_MIRROR_CTL_TARGET = 0 ∧ Spec.unit s 0 = 1
      ∧ s.fld POOL_MIRROR_STAT POOL_MIRROR_STAT_STATE = 0 ∧ s.inRun (52 + 87 / 8) = true ∧ s.stw.waiting = false ∧ s.pwr.poolW = none
      ∧ ¬(88 < 88 ∧ Spec.unit s 88 = 0))
    ∧ Met mir87 (fun s => s.inRun (52 + 87 / 8) = false ∧ s.pwr.cmd = none)
    ∧ Met ([Op.setF POOL_MIRROR_STAT POOL_MIRROR_STAT_STATE 2, Op.setF POOL_MIRROR_STAT POOL_MIRROR_STAT_COMPARED 4096,
        Op.setF (POOL_UNIT 0) POOL_UNIT_STATE 2]) (fun s => s.ecc.job = none
      ∧ s.fld POOL_MIRROR_STAT POOL_MIRROR_STAT_STATE = 2 ∧ s.fld POOL_MIRROR_STAT POOL_MIRROR_STAT_COMPARED = 4096
      ∧ Spec.unit s s.mir.spare = 2 ∧ (0x40000000#32).getLsbD 31 = false) :=
  ⟨met (by and_intros <;> decide), met (by decide), met (by decide)⟩

/-! Witnesses: clients, ports, lanes. -/

/-- Context 4095 in a state of R241; a committed Ethernet client of one slot (R240). -/
def ctx (st : Nat) : List Op := [Op.setF (CTX_STAT 4095) CTX_STAT_STATE st, Op.wr (CTX_SLOTS 4095) 0xFFFFFFFF#32,
  Op.setF (CTX_SLOTS 4095) CTX_SLOTS_MAX 1, Op.flag (CTX_CFG 4095) CTX_CFG_COMMITTED]
/-- An active calendar entry that names context 4095. -/
def inCal : Op := Op.wr (CAL_IN 47 319 + 0x30000) 0x80000FFF#32
theorem unlooped_ctx {st : Nat} (e : (getFld ((mk (ctx st)).portW ((mk (ctx st)).ctxPort 4095)) PORT_CFG_TYPE == 3) = false)
    (h : Spec.noLoop (mk (ctx st)) ((mk (ctx st)).ctxPort 4095 / 64) ((mk (ctx st)).ctxPort 4095 % 64)) : Spec.unlooped (mk (ctx st)) 4095 := by
  intro k
  unfold State.phyOf
  rw [e]
  exact h
theorem witness_contextCommands :
    Met (ctx 0) (fun s => s.pwr.dead = false ∧ s.ctxState 4095 = 0)
    ∧ Met (ctx 3 ++ [inCal]) (fun s => s.ctxState 4095 = 3 ∧ Spec.inCalendar s 4095)
    ∧ Met (ctx 2 ++ [inCal]) (fun s => s.ctxState 4095 = 2 ∧ (s.ctxS 4095).rd.toNat = s.fld (CTX_ACC 4095) CTX_ACC_ACC
      ∧ ∃ n : Eng, ∃ i : Fin 320, (s.reg (CAL_IN n i + 0x30000)).getLsbD 31 = true ∧ s.fld (CAL_IN n i + 0x30000) CAL_IN_CTX = 4095)
    ∧ Met (ctx 1) (fun s => s.ctxState 4095 = 1 ∧ Spec.unlooped s 4095) :=
  ⟨met (by decide), met ⟨by decide, 47, 319, Or.inl (by decide)⟩, met ⟨by decide, by decide, 47, 319, by decide⟩,
    met ⟨by decide, unlooped_ctx (by decide) (by unfold Spec.noLoop; decide)⟩⟩
/-! No calendar word has an entry enabled at reset (R244). -/
theorem blt_false {a k : Nat} (h : k ≤ a) : Nat.blt a k = false := by rw [← Bool.not_eq_true, Nat.blt_eq]; omega
theorem layout_cli (a : Nat) (h : 0x700000 ≤ a ∧ a < 0x800000) :
    layout a = if Nat.beq (a % 4) 0 then laySub rowsCLI (a - 0x700000) 0x30000 else none := by
  have h1 : Nat.blt a 0x800000 = true := by rw [Nat.blt_eq]; exact h.2
  unfold layout
  rw [if_pos h1, blt_false (k := 0x100000) (by omega), blt_false (k := 0x200000) (by omega), blt_false (k := 0x300000) (by omega),
    blt_false (k := 0x400000) (by omega), blt_false (k := 0x500000) (by omega), blt_false (k := 0x600000) (by omega),
    blt_false (k := 0x700000) (by omega)]
  simp only [Bool.false_eq_true, if_false]
theorem rows_rst : ∀ r ∈ rowsCLI, r.lay.rst.getLsbD 31 = false := by decide
theorem sub_rst (o d : Nat) (l : Lay) (e : laySub rowsCLI o d = some l) : l.rst.getLsbD 31 = false := by
  have mem : ∀ o r, findRow rowsCLI o = some r → r.lay.rst.getLsbD 31 = false := fun o r q => rows_rst r (List.mem_of_find?_eq_some q)
  unfold laySub at e
  split at e
  · rename_i r q; injection e with e; rw [← e]; exact mem _ _ q
  · split at e
    · cases e
    · split at e
      · rename_i r q
        split at e
        · injection e with e; rw [← e]; simp only [Lay.view, BitVec.getLsbD_and, mem _ _ q, Bool.false_and]
        · cases e
      · cases e
theorem cal_rst (a : Nat) (h : 0x700000 ≤ a ∧ a < 0x800000) : (rstOf a).getLsbD 31 = false := by
  unfold rstOf
  rw [layout_cli a h]
  by_cases z : Nat.beq (a % 4) 0 = true
  · rw [if_pos z]
    cases e : laySub rowsCLI (a - 0x700000) 0x30000 with
    | none => rfl
    | some l => exact sub_rst _ _ l e
  · rw [if_neg z]; rfl
/-- No entry of a calendar is enabled in a state that lists no word of a calendar, and no share is pending. -/
theorem no_calendar {s : State} {c : Nat} (keys : ∀ e ∈ s.regs, e.1 < 0x730000)
    (pend : ∀ n : Eng, s.pendBlk n 13 = false ∧ s.pendBlk n 14 = false) : ¬Spec.inCalendar s c := by
  have z : ∀ a, 0x730000 ≤ a ∧ a < 0x800000 → (s.reg a).getLsbD 31 = false := fun a h => by
    have far : s.reg a = rstOf a := by
      unfold State.reg Tab.get
      rw [List.find?_eq_none.2 (fun e m => by have := keys e m; simp only [beq_iff_eq]; omega)]; rfl
    rw [far]; exact cal_rst a (by omega)
  intro ⟨n, i, e⟩
  rw [z _ (by simp only [CAL_IN]; omega), z _ (by simp only [CAL_OUT]; omega), (pend n).1, (pend n).2] at e
  simp at e
theorem witness_contextAdmission :
    Met (ctx 0 ++ [Op.flag (PORT_CFG 0 0) PORT_CFG_EN]) (fun s => s.ctxState 4095 = 0 ∧ s.ctxOk 4095 = true)
    ∧ Met (ctx 0) (fun s => s.ctxState 4095 = 0 ∧ s.ctxOk 4095 = false)
    ∧ Met (ctx 1) (fun s => s.pwr.dead = false ∧ s.ctxState 4095 ≠ 0 ∧ ¬Spec.inCalendar s 4095) :=
  ⟨met (by decide), met (by decide), met ⟨by decide, by decide, no_calendar (by decide) (by decide)⟩⟩
/-- Context 4095 with its LIM, ACC and hidden state. -/
def traffic (lim acc : Nat) (f : CtxSt → CtxSt) : List Op :=
  ctx 1 ++ [Op.setF (CTX_LIM 4095) CTX_LIM_LIM lim, Op.setF (CTX_ACC 4095) CTX_ACC_ACC acc, Op.ctx 4095 f]
/-- A run of context 4095 that engine 47 has deframed. -/
def runs47 (d : Deframed) : Op := Op.rxp 47 fun r => { r with runs := [d] }
def someCal : Op := Op.wr (CAL_OUT 47 319 + 0x30000) 0x80000FFF#32
/-- A run of one block that waits for those before it. -/
def gapRun : Run := ⟨5, [⟨.lf, false, false, 0x400000⟩], 0, 0⟩
theorem witness_clientTraffic :
    Met (traffic 0 0xFFFFFF id) (fun s => s.ptpCtx 4095 = false ∧ (s.ctxS 4095).fin = .init ∧ (s.ctxS 4095).fout = .init
      ∧ Blk.idle.drop = true ∧ (s.ctxS 4095).inFrame = false ∧ Blk.idle.start = false ∧ Spec.credit s 4095 ∧ Blk.lf.drop = false
      ∧ (s.ctxS 4095).cutting = false ∧ ((s.engS 47).rxp.runs.find? fun d => d.ctx == 4095) = none ∧ ∀ r ∈ (s.ctxS 4095).runs, s.time.c < r.t + 2500)
    ∧ Met (traffic 7 7 (fun c => { c with cutting := true, inFrame := true, runs := [gapRun] }) ++ [Op.time fun x => { x with c := 2500 }]) (fun s =>
      ¬Spec.credit s 4095 ∧ (s.ctxS 4095).cutting = true ∧ (s.ctxS 4095).runs = [gapRun] ∧ gapRun.t + 2500 ≤ s.time.c
      ∧ (∀ b ∈ gapRun.bs, s.injAt (bufKey b.word) = false) ∧ ∀ b ∈ gapRun.bs, s.poisoned (bufKey b.word) = false)
    -- a run whose context is gone, a committed run while an engine is down and while none is, elastic runs
    ∧ Met [runs47 ⟨false, 4095, 0, false, [(.lf, false), (.lf, true)], 0⟩] (fun s => ¬s.ctxState 4095 ≠ 0
      ∧ ((s.engS 47).rxp.runs.find? fun d => d.ctx == 4095) = some ⟨false, 4095, 0, false, [(.lf, false), (.lf, true)], 0⟩)
    ∧ Met (traffic 0 0 id ++ [runs47 ⟨true, 4095, 0, false, [(.lf, false)], 0⟩, someCal]) (fun s => s.ctxState 4095 ≠ 0
      ∧ ((s.engS 47).rxp.runs.find? fun d => d.ctx == 4095) = some ⟨true, 4095, 0, false, [(.lf, false)], 0⟩ ∧ s.ctxCom 4095 = true
      ∧ ((s.calAll true false).any fun e => e.ctx == 4095 && !s.bit (RX_STAT e.eng) RX_STAT_READY) = true)
    ∧ Met (traffic 0 0 id ++ [runs47 ⟨true, 4095, 0, false, [(.lf, false)], 0⟩, someCal, Op.flag (RX_STAT 47) RX_STAT_READY]) (fun s =>
      s.ctxState 4095 ≠ 0 ∧ ((s.engS 47).rxp.runs.find? fun d => d.ctx == 4095) = some ⟨true, 4095, 0, false, [(.lf, false)], 0⟩
      ∧ ¬(s.ctxCom 4095 = true ∧ ((s.calAll true false).any fun e => e.ctx == 4095 && !s.bit (RX_STAT e.eng) RX_STAT_READY) = true))
    ∧ Met (traffic 0 0 id ++ [runs47 ⟨false, 4095, 0x7FFFFF#24, false, [(.lf, false)], 0⟩]) (fun s => s.ctxState 4095 ≠ 0
      ∧ ((s.engS 47).rxp.runs.find? fun d => d.ctx == 4095) = some ⟨false, 4095, 0x7FFFFF#24, false, [(.lf, false)], 0⟩
      ∧ ((0x7FFFFF#24 - (s.ctxS 4095).seqRx).toNat < 2 ^ 23) ∧ 2 ^ 23 ≤ (0x800000#24 - (s.ctxS 4095).seqRx).toNat
      ∧ ¬((s.ctxS 4095).seqRx - 0x7FFFFF#24).toNat ≤ (s.ctxS 4095).slack ∧ ¬((s.ctxS 4095).seqRx - 0x800000#24).toNat ≤ (s.ctxS 4095).slack
      ∧ ((s.ctxS 4095).seqRx - 0#24).toNat ≤ (s.ctxS 4095).slack ∧ (s.ctxS 4095).runs = [] ∧ Spec.unarmed s)
    ∧ Met (ctx 1) (fun s => Spec.unlooped s 4095) :=
  ⟨met (by unfold Spec.credit; and_intros <;> decide), met (by unfold Spec.credit; and_intros <;> decide), met (by and_intros <;> decide),
    met (by and_intros <;> decide), met (by and_intros <;> decide), met (by unfold Spec.unarmed; and_intros <;> decide),
    met (unlooped_ctx (by decide) (by unfold Spec.noLoop; decide))⟩
/-- Harness 3 in Run, with lane 63 in a state and an enabled port of a type from lane 62. -/
def har3 (st ty : Nat) : List Op :=
  [run 51, Op.setF (LANE_STAT 3 63) LANE_STAT_STATE st, Op.flag (PORT_CFG 3 62) PORT_CFG_EN, Op.setF (PORT_CFG 3 62) PORT_CFG_TYPE ty,
    Op.setF (PORT_CFG 3 62) PORT_CFG_NLANES 1]
theorem no_loop62 {st ty : Nat} (h : Spec.noLoop (mk (har3 st ty)) 3 62) (e : (mk (har3 st ty)).portAt 3 63 = some 62) :
    ∀ q, (mk (har3 st ty)).portAt 3 63 = some q → Spec.noLoop (mk (har3 st ty)) 3 q := by
  intro q f; rw [e] at f; injection f with f; exact f ▸ h
theorem witness_hostPorts :
    Met (har3 1 0) (fun s => Spec.served s (PORT_CFG 3 63) ∧ Spec.served s (LANE_CFG 3 63) ∧ s.laneState 3 63 = 1 ∧ s.portAt 3 63 = some 62
      ∧ s.fld (PORT_CFG 3 62) PORT_CFG_TYPE ≠ 4 ∧ (s.portCtx 3 62).isEmpty = true ∧ 5 ≤ getFld 0xD0000000#32 PORT_CFG_TYPE
      ∧ s.bit (PORT_CFG 3 62) PORT_CFG_EN = true ∧ s.bit (PORT_STAT 3 62) PORT_STAT_ALIGNED = false
      ∧ (300 : Int).natAbs ≤ 300 ∧ ¬(-301 : Int).natAbs ≤ 300)
    ∧ Met (har3 1 0) (fun s => ∀ q, s.portAt 3 63 = some q → Spec.noLoop s 3 q)
    ∧ Met (har3 2 4 ++ [Op.lane 255 fun x => { x with good := 63 }] ++ ctx 1 ++ [Op.setF (CTX_CFG 4095) CTX_CFG_PORT 254]) (fun s =>
      s.laneState 3 63 = 2 ∧ s.portAt 3 63 = some 62 ∧ s.fld (PORT_CFG 3 62) PORT_CFG_TYPE = 4 ∧ (s.laneS (64 * 3 + 63)).good = 63
      ∧ s.fld (LANE_CTL 3 63) LANE_CTL_LOOP = 0 ∧ ((List.replicate 33 1#2).flatMap (Spec.pam false)).length = 66
      ∧ (s.portCtx 3 62).isEmpty = false ∧ s.portAt 3 0 = none ∧ s.laneState 3 0 ≠ 1)
    ∧ Met (har3 3 4 ++ [Op.lane 255 fun x => { x with hist := List.replicate 15 false }]) (fun s => s.laneState 3 63 = 3
      ∧ 16 ≤ ((((false :: (s.laneS (64 * 3 + 63)).hist).take 64).filter fun y => !y)).length)
    ∧ Met (har3 2 4 ++ [Op.setF (LANE_CTL 3 63) LANE_CTL_LOOP 3, Op.setF (PWR_DOM 51) PWR_DOM_PAD_HOLD 0, Op.lane 255 fun x => { x with tx := true }]) (fun s =>
      s.fld (LANE_CTL 3 63) LANE_CTL_LOOP = 3 ∧ s.lanePads 3 63 = 0)
    ∧ Met (har3 0 4 ++ [Op.setF (LANE_CTL 3 63) LANE_CTL_LOOP 2]) (fun s => s.portAt 3 63 = some 62 ∧ s.fld (LANE_CTL 3 63) LANE_CTL_LOOP = 2)
    -- an Ethernet lane, a native lane below ADAPT, one whose bits end before a block; local fault into a context with credit; a busy port
    ∧ Met (har3 3 0) (fun s => s.portAt 3 63 = some 62 ∧ ¬s.fld (PORT_CFG 3 62) PORT_CFG_TYPE = 4 ∧ s.fld (LANE_CTL 3 63) LANE_CTL_LOOP = 0)
    ∧ Met (har3 1 4) (fun s => s.fld (PORT_CFG 3 62) PORT_CFG_TYPE = 4 ∧ s.fld (LANE_CTL 3 63) LANE_CTL_LOOP = 0 ∧ s.laneState 3 63 < 2)
    ∧ Met (har3 3 4) (fun s => s.fld (PORT_CFG 3 62) PORT_CFG_TYPE = 4 ∧ 2 ≤ s.laneState 3 63 ∧ (s.laneS (64 * 3 + 63)).skip = false
      ∧ ((s.laneS (64 * 3 + 63)).rxBits ++ (List.replicate 32 1#2).flatMap (Spec.pam false)).length < 66)
    ∧ Met (har3 1 0 ++ ctx 1 ++ [Op.setF (CTX_CFG 4095) CTX_CFG_PORT 254, Op.setF (CTX_LIM 4095) CTX_LIM_LIM 1]) (fun s =>
      s.bit (PORT_CFG 3 62) PORT_CFG_EN = true ∧ s.bit (PORT_STAT 3 62) PORT_STAT_ALIGNED = false ∧ (4095 : Fin 4096).val ∈ s.portCtx 3 62
      ∧ s.ctxState 4095 = 1 ∧ Spec.credit s 4095 ∧ s.ptpCtx 4095 = false ∧ (s.ctxS 4095).fin = .init ∧ ¬(s.portCtx 3 62).isEmpty = true) :=
  ⟨met ⟨srv (by decide), srv (by decide), by and_intros <;> decide⟩, met (no_loop62 (by unfold Spec.noLoop; decide) (by decide)),
    met (by and_intros <;> decide), met (by and_intros <;> decide), met (by and_intros <;> decide), met (by decide), met (by decide), met (by decide),
    met (by and_intros <;> decide), met (by unfold Spec.credit; and_intros <;> decide)⟩
theorem laneUsed_iff {s : State} {h : Harn} {l : Fin 64} {q : Nat} (e : s.portAt h l = some q) :
    Spec.laneUsed s h l ↔ (s.portCtx h q).isEmpty = false := by
  unfold Spec.laneUsed
  rw [e]
  exact Bool.not_eq_true _ ▸ Iff.rfl
theorem witness_laneControl :
    Met (har3 2 0) (fun s => ¬Spec.laneUsed s 3 63 ∧ Spec.served s (LANE_TXEQ 3 63) ∧ Spec.served s (LANE_CTL 3 63)
      ∧ 32 < ((Spec.taps 0x821000#32).map Int.natAbs).sum ∧ ((Spec.taps 0x20000#32).map Int.natAbs).sum = 32
      ∧ (s.laneS (64 * 3 + 63)).ramp = none ∧ (3#32).getLsbD 31 = false ∧ (3#32).getLsbD 30 = false ∧ getFld 3#32 LANE_CTL_LOOP = 3
      ∧ s.lanePower 3 63 = 0 ∧ s.fld (LANE_CTL 3 63) LANE_CTL_LOOP = 0 ∧ getFld 0x100#32 LANE_CTL_POWER = 1
      ∧ getFld 0x300#32 LANE_CTL_POWER = 3 ∧ s.bit (LANE_STAT 3 63) LANE_STAT_CAL_BUSY = false ∧ 2 ≤ s.laneState 3 63)
    ∧ Met (har3 1 0 ++ [Op.flag (LANE_STAT 3 63) LANE_STAT_CAL_BUSY, Op.lane 255 fun x => { x with ramp := some ([0, 0, 32, 0, 0], 0, 0#32, 15) }]
        ++ ctx 1 ++ [Op.setF (CTX_CFG 4095) CTX_CFG_PORT 254]) (fun s => Spec.laneUsed s 3 63 ∧ s.bit (LANE_STAT 3 63) LANE_STAT_CAL_BUSY = true
      ∧ (s.laneS (64 * 3 + 63)).ramp = some ([0, 0, 32, 0, 0], 0, 0#32, 15) ∧ s.laneState 3 63 < 2 ∧ s.lanePower 3 63 = 0) :=
  ⟨met ⟨fun k => absurd ((laneUsed_iff (q := 62) (by decide)).1 k) (by decide), srv (by decide), srv (by decide), by and_intros <;> decide⟩,
    met ⟨(laneUsed_iff (q := 62) (by decide)).2 (by decide), by and_intros <;> decide⟩⟩
theorem witness_managementAndTestPorts :
    Met [Op.pwr fun x => { x with ready := true }] (fun s => s.pwr.dead = false ∧ s.pwr.ready = true ∧ 1 ≤ (1 : Fin 7).val ∧ (8#4).toNat ∈ [1, 2, 4, 8]
      ∧ ¬((7 : Fin 16).val < 7) ∧ Spec.takesPins 6 ∧ s.fld STW_CMD_STAT STW_CMD_STAT_STATE = 0)
    ∧ Met [] (fun s => s.pwr.dead = false ∧ s.pwr.ready = false ∧ (3#4).toNat ∉ [1, 2, 4, 8])
    ∧ Met [Op.setF STW_CMD_STAT STW_CMD_STAT_STATE 3] (fun s => s.pwr.dead = false ∧ Spec.takesPins 3
      ∧ s.fld STW_CMD_STAT STW_CMD_STAT_STATE ≠ 0 ∧ s.fld STW_CMD_STAT STW_CMD_STAT_STATE ≠ 4) := ⟨met (by decide), met (by decide), met (by decide)⟩

/-! Witnesses: the time unit, timing ports, the monitor. -/

/-- Stamp and line time in states of R309, with a source. -/
def tu (st ln src : Nat) (f : TimeSt → TimeSt) : List Op :=
  [Op.setF TU_STAT TU_STAT_STAMP_ST st, Op.setF TU_STAT TU_STAT_LINE_ST ln, Op.setF TU_SRV_CFG TU_SRV_CFG_SRC src, Op.time f]
theorem witness_timeServo :
    Met (tu 0 0 1 (fun x => { x with ppsIn := some 0, c := 624999999 }) ++ [Op.setF TU_SRV_LIM TU_SRV_LIM_TIMEOUT 499]) (fun s => s.pwr.dead = false ∧ s.stampSt = 0 ∧ s.lineSt = 0
      ∧ s.fld TU_SRV_CFG TU_SRV_CFG_SRC = 1 ∧ s.time.ppsIn = some 0 ∧ (s.time.c : Int) - 0 < 625000000
      ∧ (false = s.bit TU_PPS_CFG TU_PPS_CFG_IN_EDGE ∨ true = s.bit TU_PPS_CFG TU_PPS_CFG_IN_EDGE)
      ∧ 1250000 * s.fld TU_SRV_LIM TU_SRV_LIM_TIMEOUT ≤ s.time.c - s.time.acc)
    ∧ Met (tu 3 2 0 fun x => { x with pend := 5, ppsIn := some 0, c := 625000000, acc := 625000000, ppsOut := true }) (fun s => s.stampSt = 3
      ∧ s.fld TU_SRV_CFG TU_SRV_CFG_SRC = 0 ∧ ¬(s.time.c : Int) - 0 < 625000000 ∧ s.time.ppsOut = true
      ∧ 1250 * s.fld TU_PPS_CFG TU_PPS_CFG_WIDTH ≤ s.time.c - s.time.rise)
    ∧ Met (tu 1 1 3 (fun x => { x with last := some (0, 3), c := 8, acc := 8 }) ++ [Op.setF TU_SRV_LIM TU_SRV_LIM_TIMEOUT 1]) (fun s =>
      s.stampSt ≠ 0 ∧ s.time.last = some (0, 3)
      ∧ (s.fld TU_SRV_LIM TU_SRV_LIM_STEP_THR * 65536 : Int).natAbs ≤ s.fld TU_SRV_LIM TU_SRV_LIM_STEP_THR * 65536
      ∧ ¬(s.fld TU_SRV_LIM TU_SRV_LIM_STEP_THR * 65536 + 1 : Int).natAbs ≤ s.fld TU_SRV_LIM TU_SRV_LIM_STEP_THR * 65536
      ∧ ¬1250000 * s.fld TU_SRV_LIM TU_SRV_LIM_TIMEOUT ≤ s.time.c - s.time.acc
      ∧ getFld 0#32 TU_SRV_CFG_SRC = 0 ∧ s.fld TU_SRV_CFG TU_SRV_CFG_SRC ≠ 1)
    ∧ Met (tu 1 1 3 (fun x => { x with c := 131 }) ++ [Op.flag TU_PPS_CFG TU_PPS_CFG_OUT_EN]) (fun s =>
      s.bit TU_PPS_CFG TU_PPS_CFG_OUT_EN = true ∧ s.stampSt ≠ 0 ∧ s.bit TU_PPS_CFG TU_PPS_CFG_OUT_CLASS = false ∧ s.time.ppsOut = false
      ∧ ¬(scaleNum s.time.c s.time.stamp / (5 * 2 ^ 32) + 104857) % (10 ^ 9 * 65536) ≤ 209714
      ∧ (scaleNum 2 s.time.stamp / (5 * 2 ^ 32) + 104857) % (10 ^ 9 * 65536) ≤ 209714) :=
  ⟨met (by and_intros <;> decide), met (by and_intros <;> decide), met (by and_intros <;> decide), met (by and_intros <;> decide)⟩
/-- A held descriptor of a timing port, due at a line time; the shortest PTP frame by its EtherType (R318). -/
def desc (t : BitVec 48) : Desc := ⟨63, 0#32, 0x80000040#32, t⟩
def ptp1 : List Byte := List.replicate 12 0#8 ++ [0x88#8, 0xF7#8] ++ List.replicate 50 0#8
set_option maxRecDepth 20000 in
theorem witness_timingPorts :
    Met [Op.flag (TU_TPORT_CFG 3) TU_TPORT_CFG_EN, Op.setHeld 3 [desc 0, desc 5]] (fun s => s.pwr.dead = false
      ∧ s.bit (TU_TPORT_CFG 3) TU_TPORT_CFG_EN = true ∧ ¬(s.fld (RXQ_WR 3) RXQ_WR_IDX + 1) % 64 = s.fld (RXQ_RD 3) RXQ_RD_IDX
      ∧ ptpFrame ptp1 = true ∧ ptpFrame [] = false ∧ getFld 1#32 TXQ_WR_IDX = (s.fld (TXQ_WR 3) TXQ_WR_IDX + 1) % 64
      ∧ getFld 0#32 TXQ_WR_IDX = s.fld (TXQ_WR 3) TXQ_WR_IDX ∧ (s.heldTx 3).length < 64 ∧ (s.heldTx 3).head? = some (desc 0)
      ∧ ((desc 0).launch.toNat + 2 ^ 48 - scaleTs s.time.c s.time.line) % 2 ^ 48 = 0 ∧ s.ctxLive = []
      ∧ (Spec.desc s 3 (s.fld (TXQ_WR 3) TXQ_WR_IDX)).word1.getLsbD 31 = false)
    ∧ Met [Op.setHeld 3 (List.replicate 64 (desc 0x7FFFFFFFFFFF#48)), Op.setF (RXQ_RD 3) RXQ_RD_IDX 1] (fun s =>
      64 ≤ (s.heldTx 3).length ∧ s.bit (TU_TPORT_CFG 3) TU_TPORT_CFG_EN = false ∧ s.heldTx 2 = []
      ∧ (s.fld (RXQ_WR 3) RXQ_WR_IDX + 1) % 64 = s.fld (RXQ_RD 3) RXQ_RD_IDX
      ∧ ((desc 0x7FFFFFFFFFFF#48).launch.toNat + 2 ^ 48 - scaleTs s.time.c s.time.line) % 2 ^ 48 < 2 ^ 47)
    ∧ Met [Op.flag (TU_TPORT_CFG 3) TU_TPORT_CFG_EN, Op.bytes 4 (leBytes 4 0x80000040 ++ leBytes 8 0xFFFFFFFFFFFF)] (fun s =>
      (Spec.desc s 3 (s.fld (TXQ_WR 3) TXQ_WR_IDX)).word1.getLsbD 31 = true
      ∧ 2 ^ 47 ≤ ((Spec.desc s 3 0).launch.toNat + 2 ^ 48 - scaleTs s.time.c s.time.line) % 2 ^ 48
      ∧ ((Spec.desc s 3 1).launch.toNat + 2 ^ 48 - scaleTs s.time.c s.time.line) % 2 ^ 48 < 2 ^ 47)
    -- a frame that leaves, on an aligned port with released pads, and one that waits, for the port or for a launch that it would meet
    ∧ Met [run 51, Op.setF (PWR_DOM 51) PWR_DOM_PAD_HOLD 0, Op.flag (PORT_STAT 3 0) PORT_STAT_ALIGNED, Op.setHeld 3 [desc 5]] (fun s =>
      Spec.waiting s 3 (desc 0) false = [(desc 0, false)] ∧ Tab.get s.time.busy (fun _ => 0) 3 ≤ s.time.c ∧ (desc 0).word1.getLsbD 31 = true
      ∧ s.bit (PORT_STAT 3 (s.fld (TU_TPORT_CFG 3) TU_TPORT_CFG_LANE)) PORT_STAT_ALIGNED = true ∧ s.bit (PWR_DOM (48 + 3)) PWR_DOM_PAD_HOLD = false)
    ∧ Met [Op.setHeld 3 [desc 0xFFFF#48]] (fun s => Tab.get s.time.busy (fun _ => 0) 3 ≤ s.time.c ∧ (⟨63, 0#32, 0x40#32, 0#48⟩ : Desc).word1.getLsbD 31 = false
      ∧ ¬(Spec.sendClks s 3 ⟨63, 0#32, 0x40#32, 0#48⟩ : Int) * 262144 ≤ 5 * Spec.ahead s (desc 0xFFFF#48)
      ∧ (Spec.sendClks s 3 ⟨63, 0#32, 0x40#32, 0#48⟩ : Int) * 262144 ≤ 5 * Spec.ahead s (desc 0xFFFFF#48)
      ∧ s.bit (PORT_STAT 3 (s.fld (TU_TPORT_CFG 3) TU_TPORT_CFG_LANE)) PORT_STAT_ALIGNED = false)
    ∧ Met [Op.time fun x => { x with busy := [(3, 1)] }] (fun s => s.time.c < Tab.get s.time.busy (fun _ => 0) 3)
    ∧ Met (ctx 1 ++ [Op.setF (CTX_CFG 4095) CTX_CFG_PORT 255]) (fun s => ∃ c ∈ s.ctxLive, s.ctxPort c = 64 * 3 + getFld 0x8000003F#32 TU_TPORT_CFG_LANE) :=
  ⟨met (by and_intros <;> decide), met (by and_intros <;> decide), met (by and_intros <;> decide), met (by and_intros <;> decide),
    met (by and_intros <;> decide), met (by decide), met (by decide)⟩
theorem witness_monitorChain :
    Met [run 5, Op.wr (MON_CFG 5) 0x4004C#32] (fun s => Spec.served s (MON_CTL 5) ∧ Spec.startable s 5 ∧ Spec.served s (MON_COARSE 5 0)
      ∧ Spec.served s (MON_FINE 5 0) ∧ s.bit (MON_STAT 5) MON_STAT_RUN = false ∧ s.domState 5 = 0 ∧ (BitVec.ofNat 32 (MON_CFG 5)).toNat = MON_CFG 5
      ∧ (Spec.atClock s 5 [] []).bit (MON_STAT 5) MON_STAT_RUN = false)
    ∧ Met [run 5, Op.wr (MON_CFG 5) 0x5004C#32, Op.flag (MON_STAT 5) MON_STAT_RUN] (fun s => ¬Spec.startable s 5
      ∧ s.bit (MON_STAT 5) MON_STAT_RUN = true ∧ s.domState 5 = 0 ∧ (Spec.atClock s 5 [] []).bit (MON_STAT 5) MON_STAT_RUN = true
      ∧ ∀ q : Fin 8, (Spec.chan (Spec.atClock s 5 [] []) 5 q).integ.length = 5 ∧ (Spec.chan (Spec.atClock s 5 [] []) 5 q).comb.length = 5)
    ∧ Met [] (fun s => s.domState 5 ≠ 0)
    -- an immediate swap of both gaits that changes the symbol rate while the chain runs; MON_CFG at reset meets the bound of MON_GD
    ∧ Met ([run 5, Op.flag (MON_STAT 5) MON_STAT_RUN] ++ gait0 ++ [Op.wr (GAIT_W1 5 1) 1#32, Op.wr (GAIT_W2 5 1) 128#32,
        Op.wr (GAIT_W0 5 1) 0x80801000#32, Op.setF (GAIT_SEL 5) GAIT_SEL_TX_IDX 1, Op.setF (GAIT_SEL 5) GAIT_SEL_RX_IDX 1]) (fun s => Spec.served s (ENG_SWAP_REQ 5) ∧ Spec.served s (MON_STAT 5)
      ∧ s.bit (MON_STAT 5) MON_STAT_RUN = true ∧ (2 * s.fld (MON_CFG 5) MON_CFG_MED + 1 : Int) ≤ 9
      ∧ after (.swapImmediate .host 5 3#15) s false (fun t => t.bit (MON_STAT 5) MON_STAT_RUN && t.engSr 5 != s.engSr 5) = true) :=
  ⟨met ⟨srv (by decide), by decide, srv (by decide), srv (by decide), by and_intros <;> decide⟩, met (by and_intros <;> decide), met (by decide),
    met ⟨srv (by decide), srv (by decide), by decide, by decide, by decide +kernel⟩⟩
/-! Witnesses: the steward and the hive. -/

/-- The steward in a state of R354, changed. -/
def stw (st : Nat) (f : StwSt → StwSt) : List Op := [Op.setF STW_CMD_STAT STW_CMD_STAT_STATE st, Op.stw f]
/-- Two keys of the fuses that are not revoked, as the first hypothesis asks; a device of this model holds fuses that nothing constrains. -/
theorem witness_stewardCommands (fuse : Config.fuseKeyPresent = 15#4) (left : Config.fuseKeyRevoked = 0#4) :
    Met (stw 3 id) (fun s => s.pwr.dead = false ∧ s.stw.op = none ∧ s.stwState = 3 ∧ s.bit STW_CMD_STAT STW_CMD_STAT_UNSIGNED = false
      ∧ (∃ k ∈ List.range 4, k ≠ 0 ∧ Spec.keyLeft s k = true) ∧ (6 : Fin 8).val < 1 ∨ 5 < (6 : Fin 8).val)
    ∧ Met (stw 0 fun x => { x with op := some 1 }) (fun s => s.stw.op.isSome ∧ s.stwState = 0)
    ∧ Met (stw 4 id ++ [Op.wr STW_ARG_LEN 36#32, Op.bytes 0 (leBytes 2 1)]) (fun s => s.stwState = 4 ∧ s.stw.op = none ∧ Spec.recordError s = 0)
    ∧ Met (stw 1 id ++ [Op.wr STW_ARG_LEN 40#32, Op.bytes 0 (leBytes 2 0xFFFF)]) (fun s => s.stwState = 1 ∧ Spec.recordError s = 13) :=
  ⟨met (by simp only [Spec.keyLeft, fuse, left]; decide), met (by decide), met (by decide), met (by decide)⟩
/-- An unsigned image of one code segment of 64 bytes for every drone, at comb offset 0x80000 (R355). -/
def image (flags : Nat) : List Byte :=
  leBytes 4 0x4B445649 ++ leBytes 2 1 ++ leBytes 2 flags ++ leBytes 2 (getFld (rstOf ID_DEVICE) ID_DEVICE_PART)
    ++ leBytes 2 (getFld (rstOf ID_DEVICE) ID_DEVICE_STEP) ++ leBytes 4 0 ++ leBytes 4 256 ++ leBytes 4 1 ++ leBytes 4 0x77
    ++ List.replicate 100 0#8 ++ [0#8, 55#8, 0#8, 0#8] ++ leBytes 4 0 ++ leBytes 4 64 ++ leBytes 4 192 ++ List.replicate 48 0#8
    ++ List.replicate 64 0x11#8
/-- The steward with that image, in a state, for a BOOT or an UPDATE. -/
def imaged (st op : Nat) (f : StwSt → StwSt) : List Op :=
  stw st (fun x => f { x with op := some op, addr := 0x80000, len := 256, minSvn := some 0 }) ++ [Op.bytes 0x80000 (image (2 * (op - 1)))]
set_option maxRecDepth 100000 in
/-- Where the SECURE fuse is 0, as it is on a part that takes unsigned images. -/
theorem witness_imageLoading (open_ : Config.fuseSecure = false) :
    Met (imaged 1 1 id) (fun s => s.pwr.dead = false ∧ s.stw.op = some 1 ∧ s.stwState = 1 ∧ Spec.imageError s = 0)
    ∧ Met (imaged 1 2 id) (fun s => s.stw.op = some 2 ∧ s.stwState = 1 ∧ Spec.imageError s = 0)
    ∧ Met (imaged 1 2 fun x => { x with addr := 0x80040 }) (fun s => s.stw.op = some 2 ∧ s.stwState = 1 ∧ Spec.imageError s ≠ 0)
    ∧ Met (imaged 2 1 fun x => { x with targets := [0] }) (fun s => s.stwState = 2 ∧ s.stw.waiting = false ∧ s.pwr.cmd = none
      ∧ ¬∀ d ∈ s.stw.targets, s.domState (64 + d / 8) = 0)
    ∧ Met (run 64 :: imaged 2 1 fun x => { x with targets := [0] }) (fun s => (∀ d ∈ s.stw.targets, s.domState (64 + d / 8) = 0)
      ∧ Spec.imageError s = 0 ∧ Spec.targeted s 0 true = true ∧ s.fld (HIVE_DRN_STAT 0) HIVE_DRN_STAT_STATE = 0)
    ∧ Met (stw 3 id) (fun s => s.stw.op = none) :=
  ⟨met (by simp only [Spec.imageError, open_]; and_intros <;> decide), met (by simp only [Spec.imageError, open_]; and_intros <;> decide),
    met (by simp only [Spec.imageError, open_]; and_intros <;> decide), met (by and_intros <;> decide),
    met (by simp only [Spec.imageError, open_]; and_intros <;> decide), met (by decide)⟩
theorem witness_vaultRecords : Met (stw 3 fun x => { x with op := some 3, addr := 0x100, len := 36 }) (fun s => s.pwr.dead = false
    ∧ s.stw.op = some 3 ∧ s.stw.len = 36 + leVal (s.bytes (s.stw.addr + 4) 4) ∧ s.vaultRoom 48 = true) := met (by and_intros <;> decide)
/-- A vault whose first `n` sectors have their last byte programmed, so that none of them has erased space at its end. -/
def vaultEnds (n : Nat) : Op := Op.all ((List.range n).map fun x => Op.bytes (vaultKey + 65536 * x + 65535) [0#8])
/-- Bytes in which no record can start hold no record. -/
theorem vaultWalk_blank (n : Nat) : ∀ (o : Nat) (bs : List Byte), bs.length % 16 = 0 →
    (∀ k, k % 16 < 2 → k < bs.length → bs.getD k 0#8 = 0xFF#8) → vaultWalk n o bs = [] := by
  induction n with
  | zero => intro o bs _ _; rfl
  | succ n ih =>
    intro o bs hl hf
    match bs, hl, hf with
    | [], _, _ => rfl
    | [_], hl, _ => simp at hl
    | a :: b :: l, hl, hf =>
      have ha := hf 0 (by decide) (by simp); have hb := hf 1 (by decide) (by simp)
      have ha : a = 0xFF#8 := ha
      have hb : b = 0xFF#8 := hb
      subst ha hb
      have hv : vrecAt o (0xFF#8 :: 0xFF#8 :: l) = none := by
        have : vrecOk (leVal (List.take 2 (0xFF#8 :: 0xFF#8 :: l))) (leVal (List.extract (0xFF#8 :: 0xFF#8 :: l) 4 8)) = false := by
          have e : leVal (List.take 2 (0xFF#8 :: 0xFF#8 :: l)) = 0xFFFF := by simp only [List.take_succ_cons, List.take_zero]; decide
          rw [e]; rfl
        unfold vrecAt; simp only [this, Bool.false_and, Bool.false_eq_true, if_false]
      show (match vrecAt o (0xFF#8 :: 0xFF#8 :: l) with
        | some r => r :: vaultWalk n (o + r.size) ((0xFF#8 :: 0xFF#8 :: l).drop r.size)
        | none => vaultWalk n (o + 16) ((0xFF#8 :: 0xFF#8 :: l).drop 16)) = []
      rw [hv]
      refine ih _ _ (by rw [List.length_drop]; omega) fun k h1 h2 => ?_
      have := hf (k + 16) (by omega) (by rw [List.length_drop] at h2; omega)
      simpa [List.getD_eq_getElem?_getD, Nat.add_comm] using this
/-- A vault in which only last bytes of sectors are programmed holds no record. -/
theorem vaultSec_ends {s : State} (h : ∀ e ∈ s.mem, e.1 % 65536 = 65535) (x : Nat) : s.vaultSec x = [] := by
  unfold State.vaultSec
  split
  · rfl
  · refine vaultWalk_blank _ _ _ (by simp [State.bytes]) fun k h1 h2 => ?_
    have hk : k < 65536 := by simpa [State.bytes] using h2
    have : s.byte (vaultKey + 65536 * x + k) = 0xFF#8 := by
      unfold State.byte Tab.get
      have hv : vaultKey = 65536 * 16384 := rfl
      rw [List.find?_eq_none.2 (fun e m => by have := h e m; simp only [beq_iff_eq]; omega)]
      show memRst _ = _
      unfold memRst; rw [if_pos (by rw [Nat.ble_eq]; omega)]
    simp only [State.bytes, List.getD_eq_getElem?_getD, List.getElem?_map, List.getElem?_range hk, Option.map_some, Option.getD_some, this]
/-- Without an erased sector nothing is reclaimed. -/
theorem vaultReclaim_none {s : State} (h : s.vaultKept = none) (f n : Nat) : (Op.vaultReclaim f n []).run s = s := by
  cases f with
  | zero => rfl
  | succ f =>
    show (if s.vaultRoom n then Op.skip else match s.vaultOldest [], s.vaultKept with
      | some x, some k => Op.all [Op.vaultCopy (65536 * k) (s.vaultKeep x), Op.vaultErase x, Op.vaultReclaim f n (x :: k :: [])]
      | _, _ => Op.skip : Op).run s = s
    rw [h]; split
    · rfl
    · cases s.vaultOldest [] <;> rfl
/-- A reclaim of a vault without records erases the sector. -/
theorem reclaimed_blank {s : State} (h : ∀ e ∈ s.mem, e.1 % 65536 = 65535) (x k : Nat) : Spec.reclaimed s x k = (Op.vaultErase x).run s.quiet := by
  unfold Spec.reclaimed State.vaultKeep; rw [vaultSec_ends h]; rfl
/-- A commit of the smallest record while the first `n` sectors have no erased space. -/
abbrev commit48 (n : Nat) : List Op := vaultEnds n :: stw 3 fun x => { x with op := some 3, addr := 0x100, len := 36 }
theorem commit15_mem : ∀ e ∈ (mk (commit48 15)).mem, e.1 % 65536 = 65535 := by decide +kernel
theorem commit15_oldest : (mk (commit48 15)).vaultOldest [] = some 0 := by
  unfold State.vaultOldest; simp only [vaultSec_ends commit15_mem]; decide +kernel
theorem commit15_room : (Spec.reclaimed (mk (commit48 15)) 0 15).vaultRoom 48 = true := by rw [reclaimed_blank commit15_mem]; decide +kernel
theorem commit16_kept : (mk (commit48 16)).quiet.vaultKept = none := by decide +kernel
theorem commit16_full : ∀ x ∈ (mk (commit48 16)).quiet.vaultOthers, Nat.blt ((mk (commit48 16)).quiet.vaultFree x) 48 = true := by decide +kernel
/-- A commit that reclaims the oldest sector, and one that finds every sector full. -/
theorem witness_vaultReclaim :
    Met (commit48 15) (fun s => s.pwr.dead = false ∧ s.stw.op = some 3
      ∧ s.stw.len = 36 + leVal (s.bytes (s.stw.addr + 4) 4) ∧ s.vaultRoom 48 = false ∧ s.vaultOldest [] = some 0 ∧ s.vaultKept = some 15
      ∧ (Spec.reclaimed s 0 15).vaultRoom 48 = true)
    ∧ Met (commit48 16) (fun s => s.stw.op = some 3
      ∧ ∀ x ∈ ((Op.vaultReclaim 16 48 []).run s.quiet).vaultOthers, ((Op.vaultReclaim 16 48 []).run s.quiet).vaultFree x < 48) := by
  refine ⟨met ⟨by decide, by decide, by decide, by decide +kernel, commit15_oldest, by decide +kernel, commit15_room⟩, met ⟨by decide, ?_⟩⟩
  rw [vaultReclaim_none commit16_kept]
  exact fun x h => Nat.blt_eq.mp (commit16_full x h)
set_option maxRecDepth 100000 in
/-- An UPDATE that meets an unloaded drone, and a loaded one; and a BOOT that waits for clusters. -/
theorem witness_imageUpdate (open_ : Config.fuseSecure = false) :
    Met (run 64 :: imaged 2 2 fun x => { x with targets := [0] }) (fun s => s.stw.op = some 2 ∧ s.stwState = 2 ∧ Spec.imageError s = 0
      ∧ (∀ d ∈ s.stw.targets, s.domState (64 + d / 8) = 0) ∧ Spec.targeted s 0 true = true ∧ s.fld (HIVE_DRN_STAT 0) HIVE_DRN_STAT_STATE = 0)
    ∧ Met (run 64 :: Op.setF (HIVE_DRN_STAT 0) HIVE_DRN_STAT_STATE 1 :: imaged 2 2 fun x => { x with targets := [0] }) (fun s =>
      s.stw.op = some 2 ∧ s.stwState = 2 ∧ Spec.imageError s = 0 ∧ (∀ d ∈ s.stw.targets, s.domState (64 + d / 8) = 0)
      ∧ Spec.targeted s 0 true = true ∧ s.fld (HIVE_DRN_STAT 0) HIVE_DRN_STAT_STATE = 1)
    ∧ Met (imaged 2 1 fun x => { x with targets := [0], waiting := true }) (fun s => s.stw.op = some 1 ∧ s.stwState = 2 ∧ s.stw.waiting = true) :=
  ⟨met (by simp only [Spec.imageError, open_]; and_intros <;> decide), met (by simp only [Spec.imageError, open_]; and_intros <;> decide),
    met (by decide)⟩
theorem vaultDouble_blank {s : State} (h : ∀ e ∈ s.mem, e.1 % 65536 = 65535) : s.vaultDouble = some 0 := by
  unfold State.vaultDouble State.vaultKeep; simp only [vaultSec_ends h]; rfl
theorem ends16_kept : (mk [vaultEnds 16]).vaultKept = none := by decide +kernel
theorem witness_vaultMend : Met [vaultEnds 16] (fun s => Spec.mended s = some 0) :=
  met ((if_pos ends16_kept).trans (vaultDouble_blank (by decide +kernel)))
/-- Drone 55 in a state of R363, with bits of HIVE_DRN_STAT. -/
def d55 (st : Nat) (l : List Op) : List Op := [run 70, Op.setF (HIVE_DRN_STAT 55) HIVE_DRN_STAT_STATE st] ++ l
theorem witness_dronesAndMailboxes :
    Met (d55 2 [Op.flag (HIVE_DRN_STAT 55) HIVE_DRN_STAT_IDLE_VALID]) (fun s => s.pwr.dead = false ∧ s.drnState 55 = 2
      ∧ s.bit (HIVE_DRN_STAT 55) HIVE_DRN_STAT_IDLE_VALID = true ∧ s.bit (HIVE_DRN_STAT 55) HIVE_DRN_STAT_PENDING = false
      ∧ (s.drnS 55).pause = none)
    ∧ Met (d55 3 [Op.flag (HIVE_DRN_STAT 55) HIVE_DRN_STAT_PENDING]) (fun s => s.drnState 55 = 3 ∧ s.bit (HIVE_DRN_STAT 55) HIVE_DRN_STAT_PENDING = true)
    ∧ Met (d55 4 [Op.flag (HIVE_DRN_STAT 55) HIVE_DRN_STAT_IDLE_VALID, Op.drn 55 fun z => { z with pause := some 0#64, cycle := 1500001#64 }]) (fun s =>
      s.drnState 55 = 4 ∧ s.bit (HIVE_DRN_STAT 55) HIVE_DRN_STAT_IDLE_VALID = true ∧ (s.drnS 55).pause = some 0#64 ∧ (s.drnS 55).slow = false
      ∧ 1500000 < ((s.drnS 55).cycle - 0#64).toNat)
    ∧ Met [] (fun s => s.drnState 55 = 0 ∧ (55 : Fin 57) ≠ 56 ∧ 64 < (getFld 65#32 HIVE_MBX_H2D_WR_WR + 128 - s.fld (HIVE_MBX_H2D_RD 55) HIVE_MBX_H2D_RD_RD) % 128
      ∧ ¬64 < (getFld 64#32 HIVE_MBX_H2D_WR_WR + 128 - s.fld (HIVE_MBX_H2D_RD 55) HIVE_MBX_H2D_RD_RD) % 128) :=
  ⟨met (by decide), met (by decide), met (by decide), met (by decide)⟩

/-! Witnesses: memory errors, the farrier, faults. -/

theorem witness_memoryErrors :
    Met [run 47, Op.flag (FG_CFG 47) FG_CFG_EN, Op.setF (FG_POS 47) FG_POS_POS (5 * 2048 * 64 - 1),
        Op.wbSet 47 fun _ => [0x10000000 + 47 * 0x400000, 0x10000004 + 47 * 0x400000]] (fun s => s.regionUp 47 = true
      ∧ Spec.wordIn 47 0x047FFFC0#32 ∧ s.bit (FG_CFG 47) FG_CFG_EN = true ∧ s.regionRun 47 = true
      ∧ s.fld (FG_POS 47) FG_POS_POS + 1 = Spec.macros 47 * Spec.rows 47 * Spec.rowWords 47
      ∧ s.wbOf 47 = [0x10000000 + 47 * 0x400000, 0x10000004 + 47 * 0x400000]
      ∧ 0x10000000 + 47 * 0x400000 ∉ [0x10000004 + 47 * 0x400000] ∧ regionOf (0x10000000 + 47 * 0x400000) = 47
      ∧ (0x10000000 + 47 * 0x400000) % wordSz 47 = 0 ∧ syndSingle 47 1#8 = true ∧ syndSingle 47 0x0F#8 = false
      ∧ s.poisoned (0x10000000 + 47 * 0x400000) = false ∧ s.pendBlk 47 5 = false ∧ s.pwr.dead = false)
    -- the word to write back lies in a response whose block is pending, and the next word is the last but one of its region
    ∧ Met [run 47, Op.eng 47 fun e => { e with swaps := [⟨5, true, .next, false⟩] }, Op.setF (FG_POS 47) FG_POS_POS (5 * 2048 * 64 - 2),
        Op.flag (FG_CFG 47) FG_CFG_EN, Op.wbSet 47 fun _ => [0x10000000 + 47 * 0x400000]] (fun s =>
      s.wbOf 47 = [0x10000000 + 47 * 0x400000] ∧ s.regionRun 47 = true
      ∧ s.cdCopy (0x10000000 + 47 * 0x400000) = some (47, true, true) ∧ s.pendBlk 47 5 = true
      ∧ s.fld (FG_POS 47) FG_POS_POS + 1 < Spec.macros 47 * Spec.rows 47 * Spec.rowWords 47)
    ∧ Met [Op.poison (Spec.keyOf 0x61 0#32) true] (fun s => s.regionUp 47 = false ∧ s.regionUp 0x61 = true ∧ s.poisoned (Spec.keyOf 0x61 0#32) = true
      ∧ s.wbOf 47 = [] ∧ s.regionRun 47 = false ∧ s.pwr.dead = false) :=
  ⟨met (by and_intros <;> decide), met (by and_intros <;> decide), met (by and_intros <;> decide)⟩
/-- The word at the end of region 47, and its key. -/
def lastKey : Nat := Spec.keyOf 47 0x047FFFC0#32
theorem witness_memoryLog :
    -- the word has an entry, and its error an injection that pends, with the same syndrome and with another
    Met [run 47, Op.wr (ECC_LOG_ADDR 47 31) 0x047FFFC0#32, Op.flag (ECC_LOG_INFO 47 31) ECC_LOG_INFO_VALID, Op.flag (ECC_LOG_INFO 47 31) ECC_LOG_INFO_ARMED,
        Op.ecc fun e => { e with inj := [⟨47, lastKey, 1#8⟩], wb := [] }, Op.wbSet 47 fun _ => [lastKey]] (fun s => s.regionUp 47 = true
      ∧ s.injAt lastKey = true ∧ syndSingle 47 1#8 = true ∧ syndSingle 47 2#8 = true ∧ s.reg (ECC_LOG_ADDR 47 31) = 0x047FFFC0#32
      ∧ (∀ e ∈ List.range 31, bitFld (s.reg (ECC_LOG_INFO 47 e)) ECC_LOG_INFO_VALID = false)
      ∧ bitFld (s.reg (ECC_LOG_INFO 47 31)) ECC_LOG_INFO_VALID = true ∧ bitFld (s.reg (ECC_LOG_INFO 47 31)) ECC_LOG_INFO_ARMED = true
      ∧ s.wbOf 47 = [lastKey] ∧ regionOf lastKey = 47 ∧ lastKey % wordSz 47 = 0 ∧ s.regionRun 47 = true ∧ s.logFind lastKey = some 31
      ∧ s.poisoned lastKey = false)
    -- every entry holds a hard word
    ∧ Met [run 47, Op.all ((List.range 32).map fun e => Op.wr (ECC_LOG_INFO 47 e) 0xFFFFFFFF#32)] (fun s =>
      ∀ e ∈ List.range 32, bitFld (s.reg (ECC_LOG_INFO 47 e)) ECC_LOG_INFO_VALID = true ∧ bitFld (s.reg (ECC_LOG_INFO 47 e)) ECC_LOG_INFO_HARD = true)
    -- the client buffer, read by the device itself; and the end of a pass that took a clock more than PERIOD
    ∧ Met [Op.poison (Spec.keyOf 0x60 0#32) true] (fun s => s.regionUp 0x60 = true ∧ s.poisoned (Spec.keyOf 0x60 0#32) = true ∧ Spec.wordIn 0x60 0#32)
    ∧ Met [run 47, Op.wr (FG_CFG 47) 0xFFFFFFFF#32, Op.setF (FG_CFG 47) FG_CFG_PERIOD 1, Op.setF (FG_POS 47) FG_POS_POS (5 * 2048 * 64 - 1),
        Op.time fun x => { x with c := 12500001 }] (fun s => s.bit (FG_CFG 47) FG_CFG_EN = true ∧ s.regionRun 47 = true
      ∧ s.fld (FG_POS 47) FG_POS_POS + 1 = Spec.macros 47 * Spec.rows 47 * Spec.rowWords 47
      ∧ s.fld (FG_CFG 47) FG_CFG_PERIOD * 12500000 < s.time.c - Tab.get s.ecc.pass (fun _ => 0) 47) :=
  ⟨met (by and_intros <;> decide +kernel), met (by decide +kernel), met (by and_intros <;> decide), met (by and_intros <;> decide)⟩
/-- A row request for macro 4, row 2047 of region 47; a slice, a strip and a unit request; one that names no target. -/
def rowReq : FarReq := ⟨0x1000002F#32, 0x047FF000#32⟩
def sliceReq : FarReq := ⟨0x20050300#32, 0#32⟩
def stripReq : FarReq := ⟨0x3005010F#32, 0#32⟩
def unitReq : FarReq := ⟨0x40000057#32, 0#32⟩
def noReq : FarReq := ⟨0x10000099#32, 0x01000000#32⟩
/-- The farrier with a queue and a repair. -/
def far (q : List FarReq) (j : Option FarJob) : Op := Op.ecc fun e => { e with queue := q, job := j }
theorem witness_farrier :
    Met [run 47, far [rowReq] none] (fun s => s.pwr.dead = false ∧ s.ecc.queue.length ≤ 16 ∧ s.ecc.job = none ∧ (s.ecc.queue.find? fun q => !s.farWaits q) = some rowReq
      ∧ Spec.farExists rowReq ∧ Spec.farKind rowReq = 1 ∧ Spec.rowFree s rowReq 0)
    ∧ Met [far [rowReq, noReq] none] (fun s => (s.ecc.queue.find? fun q => !s.farWaits q) = some noReq ∧ ¬Spec.farExists noReq)
    ∧ Met [run 5, far [sliceReq] none] (fun s => (s.ecc.queue.find? fun q => !s.farWaits q) = some sliceReq ∧ Spec.farExists sliceReq
      ∧ Spec.farKind sliceReq = 2 ∧ s.pendBlk 5 10 = false ∧ s.farPass sliceReq 0 = false
      ∧ (s.reg (CONV_ADC_MAP 5 3)).getLsbD 7 = false ∧ (s.reg (CONV_ADC_MAP 5 3 + 0x4000)).getLsbD 7 = false)
    ∧ Met [run 5, far [stripReq] none] (fun s => (s.ecc.queue.find? fun q => !s.farWaits q) = some stripReq ∧ Spec.farExists stripReq
      ∧ Spec.farKind stripReq = 3 ∧ s.pendBlk 5 9 = false ∧ s.farPass stripReq 0 = false ∧ s.bit (STRIP_MAP 5) STRIP_MAP_RX_EN = false
      ∧ s.bit (STRIP_MAP 5 + 0x4000) STRIP_MAP_RX_EN = false)
    ∧ Met ([run 62, far [unitReq] none, Op.setF (POOL_UNIT 87) POOL_UNIT_STATE 1, Op.setF (POOL_UNIT 86) POOL_UNIT_STATE 0]) (fun s =>
      (s.ecc.queue.find? fun q => !s.farWaits q) = some unitReq ∧ Spec.farExists unitReq ∧ 4 ≤ Spec.farKind unitReq ∧ Spec.unit s 87 = 1
      ∧ Spec.unit s 86 = 0 ∧ s.inRun (52 + 86 / 8) = true)
    -- every spare slice of the converter, the spare strip and every unit in use
    ∧ Met [run 5, far [sliceReq] none, Op.wr (CONV_ADC_MAP 5 3) 0x80808080#32, Op.flag (STRIP_MAP 5) STRIP_MAP_RX_EN] (fun s =>
      (∀ i ∈ List.range 4, (s.reg (CONV_ADC_MAP 5 3)).getLsbD (8 * i + 7) = true) ∧ s.bit (STRIP_MAP 5) STRIP_MAP_RX_EN = true)
    ∧ Met [run 47, Op.ecc fun e => { e with used := (List.range 8).map fun i => (47, 4, i) }] (fun s => ∀ i ∈ List.range 8, ¬Spec.rowFree s rowReq i)
    -- a row repair in each of its stages
    ∧ Met [run 47, far [] (some ⟨rowReq, .copy, 0, 0, false, []⟩)] (fun s => s.ecc.job = some ⟨rowReq, .copy, 0, 0, false, []⟩ ∧ Spec.farKind rowReq = 1)
    ∧ Met [run 47, far [] (some ⟨rowReq, .compare, 0, 0, false, []⟩)] (fun s => s.ecc.job = some ⟨rowReq, .compare, 0, 0, false, []⟩ ∧ Spec.farExists rowReq)
    ∧ Met [run 47, far [] (some ⟨rowReq, .switch, 0, 0, false, []⟩)] (fun s => s.ecc.job = some ⟨rowReq, .switch, 0, 0, false, []⟩)
    ∧ Met [run 5, far [] (some ⟨stripReq, .shadow, 0, 0, true, []⟩)] (fun s => s.ecc.job = some ⟨stripReq, .shadow, 0, 0, true, []⟩
      ∧ s.pendBlk 5 9 = false ∧ s.farPass stripReq 0 = false)
    ∧ Met [run 5, far [] (some ⟨stripReq, .shadow, 0, 0, false, []⟩), Op.flag (STRIP_MAP 5) STRIP_MAP_RX_EN] (fun s =>
      s.bit (STRIP_MAP 5) STRIP_MAP_RX_EN = true ∧ s.bit (STRIP_MAP 5 + 0x4000) STRIP_MAP_RX_EN = false
      ∧ s.ecc.job = some ⟨stripReq, .shadow, 0, 0, false, []⟩ ∧ s.bit (STRIP_SPARE_STAT 5) STRIP_SPARE_STAT_RX_PASS = false)
    ∧ Met [run 5, far [] (some ⟨stripReq, .swap, 0, 0, false, []⟩), Op.wr (STRIP_MAP 5 + 0x4000) 0x800F0000#32] (fun s =>
      s.ecc.job = some ⟨stripReq, .swap, 0, 0, false, []⟩ ∧ s.farActive stripReq 0 = true ∧ ∀ x ∈ s.col.conds, x.src ≠ 5)
    -- a swap that took nothing, and one that clashes
    ∧ Met [run 5, far [] (some ⟨stripReq, .swap, 0, 0, false, []⟩)] (fun s => s.farActive stripReq 0 = false ∧ s.pendBlk 5 9 = false
      ∧ s.farPass stripReq 0 = false)
    ∧ Met [run 5, far [] (some ⟨sliceReq, .shadow, 0, 0, false, []⟩), Op.wr (CONV_SPARE_STAT 5 0) 0x1000#32,
        Op.eng 5 fun e => { e with swaps := [⟨10, true, .next, false⟩] }] (fun s => s.farPass sliceReq 0 = true ∧ s.pendBlk 5 10 = true
      ∧ 0 < s.fld FAR_CFG FAR_CFG_RETRY ∧ Spec.farKind sliceReq = 2 ∧ Spec.farEngine sliceReq = 5) :=
  ⟨met (by unfold Spec.rowFree; and_intros <;> decide), met (by and_intros <;> decide), met (by and_intros <;> decide),
    met (by and_intros <;> decide), met (by and_intros <;> decide), met (by and_intros <;> decide), met (by unfold Spec.rowFree; decide),
    met (by and_intros <;> decide), met (by and_intros <;> decide), met (by decide), met (by and_intros <;> decide), met (by and_intros <;> decide),
    met (by and_intros <;> decide), met (by and_intros <;> decide), met (by and_intros <;> decide)⟩
theorem witness_farrierEnds :
    -- the shadow copy still to be restored, while a swap of the block pends and after it
    Met [run 5, far [] (some ⟨sliceReq, .restore 3, 0, 3, true, []⟩), Op.eng 5 fun e => { e with swaps := [⟨10, true, .next, false⟩] }] (fun s =>
      s.ecc.job = some ⟨sliceReq, .restore 3, 0, 3, true, []⟩ ∧ s.pendBlk 5 10 = true ∧ ∀ x ∈ s.col.conds, x.src ≠ 5)
    ∧ Met [run 5, far [] (some ⟨stripReq, .restore 2, 0, 0, true, []⟩)] (fun s => s.ecc.job = some ⟨stripReq, .restore 2, 0, 0, true, []⟩
      ∧ s.pendBlk 5 9 = false ∧ ∀ x ∈ s.col.conds, x.src ≠ 5)
    -- the last clash, and a strip that fails while a swap of its block pends
    ∧ Met [run 5, far [] (some ⟨sliceReq, .shadow, 0, 15, false, []⟩), Op.wr (CONV_SPARE_STAT 5 0) 0x1000#32,
        Op.eng 5 fun e => { e with swaps := [⟨10, true, .next, false⟩] }] (fun s => s.farPass sliceReq 0 = true ∧ s.pendBlk 5 10 = true
      ∧ s.fld FAR_CFG FAR_CFG_RETRY ≤ 15)
    ∧ Met [run 5, far [] (some ⟨stripReq, .shadow, 0, 0, false, []⟩), Op.flag (STRIP_MAP 5) STRIP_MAP_RX_EN,
        Op.eng 5 fun e => { e with swaps := [⟨9, true, .next, false⟩] }] (fun s => s.bit (STRIP_MAP 5) STRIP_MAP_RX_EN = true
      ∧ s.bit (STRIP_MAP 5 + 0x4000) STRIP_MAP_RX_EN = false ∧ s.ecc.job = some ⟨stripReq, .shadow, 0, 0, false, []⟩ ∧ s.pendBlk 5 9 = true)
    ∧ Met [run 5, Op.flag (STRIP_MAP 5) STRIP_MAP_RX_EN] (fun s => s.bit (STRIP_MAP 5) STRIP_MAP_RX_EN = true
      ∧ s.bit (STRIP_MAP 5 + 0x4000) STRIP_MAP_RX_EN = false ∧ s.ecc.job = none) :=
  ⟨met (by and_intros <;> decide), met (by and_intros <;> decide), met (by and_intros <;> decide), met (by and_intros <;> decide),
    met (by and_intros <;> decide)⟩
/-- A pending message of source 0x15B (the pool's receive side of engine 5), class 3. -/
def msg5 (set : Bool) : Msg := ⟨0x15B, 0x14, 3, false, 0#40, set, 0, false⟩
/-- The collector holds a message, and its source has a configuration. -/
def told (m : Msg) (cfg : W) : List Op := [run 5, Op.wr (FC_SRC_CFG m.src) cfg, Op.col fun c => { c with intake := [m] }]
theorem witness_faultMessages :
    Met [run 5, Op.col fun c => { c with intake := [⟨0x700, 0, 0, false, 0#40, true, 0, false⟩, msg5 false, msg5 true] }] (fun s =>
      s.pwr.dead = false ∧ firstMsg s.col.intake = some (msg5 true, [⟨0x700, 0, 0, false, 0#40, true, 0, false⟩, msg5 false])
      ∧ (msg5 true).src < 4096 ∧ (msg5 true).cls < 5 ∧ (msg5 true).kind < 256 ∧ (msg5 true).merged < 2 ^ 14 ∧ Spec.rung s (msg5 true) = 1)
    -- rung 0; rung 2 for a drone and for the steward; a block reset; a chip reset
    ∧ Met (told (msg5 true) 0x3F000000#32) (fun s => firstMsg s.col.intake = some (msg5 true, []) ∧ Spec.rung s (msg5 true) = 0)
    ∧ Met (told (msg5 true) 0x05018400#32) (fun s => Spec.rung s (msg5 true) = 2 ∧ s.fld (FC_SRC_CFG 0x15B) FC_SRC_CFG_OWNER = 5)
    ∧ Met (told (msg5 true) 0x3F018400#32) (fun s => Spec.rung s (msg5 true) = 2 ∧ 56 ≤ s.fld (FC_SRC_CFG 0x15B) FC_SRC_CFG_OWNER)
    ∧ Met (told (msg5 true) 0x05018600#32) (fun s => Spec.rung s (msg5 true) = 3)
    ∧ Met (told (msg5 true) 0x05020800#32) (fun s => Spec.rung s (msg5 true) = 4)
    ∧ Met [] (fun s => s.col.intake = []) :=
  ⟨met (by and_intros <;> decide), met (by and_intros <;> decide), met (by and_intros <;> decide), met (by and_intros <;> decide), met (by decide),
    met (by decide), met (by decide)⟩
/-- A pending set message of a source, class 3, whose rung is 3; its owner is drone 5. -/
def msgOf (src : Nat) : Msg := ⟨src, 0x14, 3, false, 0#40, true, 0, false⟩
def reset3 (src : Nat) (l : List Op) : List Op := l ++ told (msgOf src) 0x05018600#32
def Reaches (src : Nat) (l : List Op) (h : State → Prop) : Prop :=
  Met (reset3 src l) fun s => firstMsg s.col.intake = some (msgOf src, []) ∧ srcExists src = true ∧ Spec.rung s (msgOf src) = 3 ∧ h s
/-- Each kind of block that R443 resets, and a source without one. -/
theorem witness_blockResets :
    Reaches 0x154 [Op.eng 5 fun e => { e with tx := .on }] (fun s => s.domState 5 = 0 ∧ (s.engS 5).tx = .on)
    ∧ Reaches 0x159 [Op.setF (RX_STAT 5) RX_STAT_STATE 7, Op.flag (MON_STAT 5) MON_STAT_RUN] (fun s => s.domState 5 = 0 ∧ 2 ≤ s.rxState 5
      ∧ s.bit (MON_STAT 5) MON_STAT_RUN = true)
    ∧ Reaches 0x637 [run 70, Op.setF (HIVE_DRN_STAT 55) HIVE_DRN_STAT_STATE 4] (fun s => s.drnState 55 = 4)
    ∧ Reaches 0x400 [Op.wr (PORT_CFG 0 0) 0x80000000#32, Op.setF (LANE_STAT 0 0) LANE_STAT_STATE 3] (fun s =>
      (s.reg (PORT_CFG 0 0)).getLsbD 31 = true ∧ 0 < portLanes (s.reg (PORT_CFG 0 0)) ∧ s.laneState 0 0 = 3)
    ∧ Reaches 0x15B [] (fun _ => True) ∧ Reaches 0x2A [] (fun _ => True) ∧ Reaches 0x014 [] (fun _ => True)
    ∧ Reaches 6 [] (fun _ => True)
    ∧ Reaches 5 [far [rowReq] (some ⟨stripReq, .shadow, 0, 0, false, []⟩)] (fun s => s.ecc.job ≠ none)
    ∧ Reaches 0x52F [] (fun s => Spec.noBlock (msgOf 0x52F) ∧ s.fld (FC_SRC_CFG 0x52F) FC_SRC_CFG_OWNER = 5)
    -- a message that starts a capture
    ∧ Reaches 0x15B [Op.flag (CAP_CTL 5) CAP_CTL_SRC_FAULT, Op.setF (CAP_CTL 5) CAP_CTL_FAULT_CLASS 3] (fun s =>
      s.bit (CAP_CTL 5) CAP_CTL_SRC_FAULT = true ∧ s.fld (CAP_CTL 5) CAP_CTL_FAULT_CLASS ≤ 3) :=
  ⟨met (by and_intros <;> decide), met (by and_intros <;> decide), met (by and_intros <;> decide), met (by and_intros <;> decide),
    met (by decide), met (by decide), met (by decide), met (by decide), met (by and_intros <;> decide), met (by and_intros <;> decide),
    met (by and_intros <;> decide)⟩
theorem witness_faultRegisters :
    Met [] (fun s => s.pwr.dead = false ∧ srcExists 0x15B = true ∧ srcExists 4095 = false
      ∧ ¬(srcExists ((0x15B14600#32).toNat / 2 ^ 20) = false ∨ 5 ≤ (0x15B14600#32).toNat / 2 ^ 9 % 8)
      ∧ 5 ≤ (0x15B14A00#32).toNat / 2 ^ 9 % 8 ∧ 5 ≤ getFld 0x28000#32 FC_SRC_CFG_CEILING
      ∧ ¬((56 ≤ getFld 0x3F024924#32 FC_SRC_CFG_OWNER ∧ getFld 0x3F024924#32 FC_SRC_CFG_OWNER ≠ 63)
        ∨ 5 ≤ getFld 0x3F024924#32 FC_SRC_CFG_CEILING ∨ ∃ c ∈ List.range 5, 5 ≤ getFld 0x3F024924#32 ⟨3 * c + 2, 3 * c⟩))
    ∧ Met [Op.time fun x => { x with c := 12500 }, Op.col fun c => { c with errN := true }] (fun s =>
      1250 * s.fld FC_CFG FC_CFG_ERR_HOLD ≤ s.time.c - s.col.errT ∧ s.col.errN = true)
    ∧ Met [Op.time fun x => { x with c := 12499 }] (fun s => s.time.c - s.col.errT < 1250 * s.fld FC_CFG FC_CFG_ERR_HOLD) :=
  ⟨met (by and_intros <;> decide), met (by decide), met (by decide)⟩
/-! Witnesses: self-test, supplies, power, counters, the whole device. -/

/-- No entry of the calendars of engine 5 is enabled in a state that lists no word of a calendar. -/
theorem no_stCalendar {s : State} {n : Nat} (h : n < 48) (keys : ∀ e ∈ s.regs, e.1 < 0x730000 ∨ 0x800000 ≤ e.1) : ¬Spec.stCalendar s n := by
  have z : ∀ a, 0x730000 ≤ a ∧ a < 0x800000 → (s.reg a).getLsbD 31 = false := fun a h => by
    have far : s.reg a = rstOf a := by
      unfold State.reg Tab.get
      rw [List.find?_eq_none.2 (fun e m => by have := keys e m; simp only [beq_iff_eq]; omega)]; rfl
    rw [far]; exact cal_rst a (by omega)
  intro ⟨i, hi, a, ha, e⟩
  have hi := List.mem_range.1 hi
  have ha : a = CAL_IN n i ∨ a = CAL_OUT n i := by simpa using ha
  have r : 0x730000 ≤ a ∧ a + 0x30000 < 0x800000 := by rcases ha with rfl | rfl <;> simp only [CAL_IN, CAL_OUT] <;> omega
  rw [z a (by omega), z (a + 0x30000) (by omega)] at e
  simp at e
theorem idle5 : Met [run 5] (fun s => Spec.engineIdle s 5) :=
  met ⟨by decide, by decide, by decide, by decide, by decide, by decide, by decide, no_stCalendar (by decide) (by decide), by decide⟩
theorem witness_selfTest :
    Met [run 5] (fun s => s.pwr.dead = false ∧ s.domState 5 < 3 ∧ (0x80F00000#32).getLsbD 30 = false ∧ (0x40000000#32).getLsbD 31 = false
      ∧ (s.stS 5).run = none ∧ (s.stS 5).wait = []
      ∧ Spec.stNames 5 (getFld 0x80F00000#32 HST_CMD_KIND) (getFld 0x80F00000#32 HST_CMD_INDEX) (getFld 0x80F00000#32 HST_CMD_TESTS)
      ∧ Spec.stMeets s 5 0 0 ∧ s.domState (Spec.stDomain 5 0 0) = 0 ∧ ¬Spec.stNames 5 8 0 15)
    ∧ Met [run 5] (fun s => Spec.stNames 48 8 87 12 ∧ Spec.stMeets s 48 8 87 ∧ s.domState (Spec.stDomain 48 8 87) ≠ 0 ∧ Spec.stNames 5 1 0 1
      ∧ ¬Spec.stMeets s 5 1 0)
    ∧ Met [run 5, Op.st 5 fun x => { x with run := some ⟨3, 31, 8, true, false, []⟩ }] (fun s => (s.stS 5).run = some ⟨3, 31, 8, true, false, []⟩ ∧ 3 < 4
      ∧ (∀ q ∈ [(4, 0#64)], q.1 = 0 ∨ q.2 = 0#64) ∧ [(4, 0#64), (1, 9#64)] = [(4, 0#64)] ++ (1, 9#64) :: [] ∧ ¬((1 : Nat) = 0 ∨ 9#64 = 0))
    ∧ Met [Op.st 48 fun x => { x with run := some ⟨8, 87, 12, false, true, [0]⟩ }] (fun s => (s.stS 48).run = some ⟨8, 87, 12, false, true, [0]⟩
      ∧ 8 ≤ 8 ∧ [0].length = (Spec.stUnits 8 87).length ∧ (Spec.stUnits 8 87).getD 0 0 < 88)
    ∧ Met [Op.st 48 fun x => { x with wait := [(11, 3)] }] (fun s => (s.stS 48).run = none ∧ (s.stS 48).wait = [(11, 3)]) := by
  refine ⟨met ⟨by decide, by decide, by decide, by decide, by decide, by decide, by decide, ?_, by decide, by decide⟩,
    met ⟨by decide, ?_, by decide, by decide, ?_⟩, met (by and_intros <;> decide), met (by and_intros <;> decide), met (by decide)⟩
  · exact ⟨fun _ => ⟨by decide, idle5.2⟩, fun h => absurd h (by decide), fun h => absurd h (by decide), fun h => absurd h (by decide),
      fun h => absurd h (by decide), fun h => absurd h (by decide)⟩
  · exact ⟨fun h => absurd h (by decide), fun _ h => absurd h (by decide), fun _ => by decide, fun h => absurd h (by decide),
      fun h => absurd h (by decide), fun h => absurd h (by decide)⟩
  · intro h
    obtain ⟨i, hi, e⟩ := (h.2.1 (by decide) (by decide)).1.1 rfl
    revert e hi; revert i; decide
/-- The classes of the feeds, B and A (R483), with the always-on domain ready. -/
def feeds (b a : Nat) (rdy : Bool) : List Op := [Op.setF SUP_STAT ⟨7, 6⟩ b, Op.setF SUP_STAT ⟨5, 4⟩ a, Op.pwr fun x => { x with ready := rdy }]
theorem witness_supplies :
    -- a revert that is due at once, and one that is due a clock later
    Met (feeds 0 0 true ++ [Op.wr SUP_CFG 3#32, Op.time fun x => { x with c := 125000007 },
        Op.mod fun s => { s with sup := ⟨none, .init, { FeedSt.init with since := some 7, away := 3 }⟩ }]) (fun s =>
      s.sup.going = none ∧ s.bit SUP_CFG SUP_CFG_AUTO_REVERT = true ∧ s.bit SUP_CFG SUP_CFG_PREF = true
      ∧ s.bit SUP_STAT SUP_STAT_ACTIVE = false ∧ Spec.feeds s true = 0 ∧ s.pwr.dead = false ∧ s.pwr.ready = true
      ∧ (Spec.feedOf s.sup true).since = some 7 ∧ max 7 (Spec.feedOf s.sup true).away + 125000000 ≤ s.time.c
      ∧ ¬max 7 (Spec.feedOf s.sup true).away + 125000000 ≤ s.time.c - 1 ∧ s.sup.b.since.isSome = true)
    ∧ Met (feeds 2 2 true ++ [Op.mod fun s => { s with sup := ⟨some (true, 2), .init, .init⟩ }]) (fun s => s.sup.going = some (true, 2)
      ∧ Spec.feeds s false = 2 ∧ Spec.feeds s true = 2 ∧ s.pwr.dead = false ∧ ¬(s.sup.a.since.isSome = true ∨ s.sup.b.since.isSome = true))
    ∧ Met (feeds 2 1 false ++ [Op.pwr fun x => { x with dead := true }]) (fun s => s.pwr.dead = true ∧ ¬(Spec.feeds s false = 2 ∧ Spec.feeds s true = 2)
      ∧ ¬(s.pwr.ready = true ∧ s.pwr.dead = false))
    ∧ Met (feeds 2 2 false ++ [Op.pwr fun x => { x with dead := true }]) (fun s => s.pwr.dead = true ∧ Spec.feeds s false = 2 ∧ Spec.feeds s true = 2)
    -- the samples at the edges of the classes (R464)
    ∧ (let cls := fun c k mv => Spec.sampledClass (Spec.sampledFeed .init k mv) c mv
      cls 1 10000 10800 = 0 ∧ cls 1 9999 10800 = 1 ∧ cls 1 10000 13201 = 1 ∧ cls 0 20 10199 = 2 ∧ cls 0 19 10199 = 1 ∧ cls 0 20 10200 = 1
        ∧ cls 0 1 14001 = 2 ∧ cls 0 1 14000 = 1 ∧ cls 2 9999 12000 = 2)
    ∧ (∀ d : Fin 9, ([0#16, 0x6E0#16, 0x6E0#16].getD d 0#16).toInt ≤ ([0#16, 0x6E0#16, 0x6E0#16].getD (1 : Fin 9) 0#16).toInt)
    ∧ ∀ d : Fin 9, d < 1 → ([0#16, 0x6E0#16, 0x6E0#16].getD d 0#16).toInt < ([0#16, 0x6E0#16, 0x6E0#16].getD (1 : Fin 9) 0#16).toInt :=
  ⟨met (by and_intros <;> decide), met (by and_intros <;> decide), met (by decide), met (by decide), by decide, by decide, by decide⟩
/-- The power command that runs, over some domains. -/
def cmd (entry : Bool) (target : Nat) (todo : List Nat) (moved : List (Nat × Nat)) (turn : Option Nat) : PwrCmd :=
  ⟨entry, target, todo, moved, turn, none, false, false⟩
def cmdOp (c : PwrCmd) : Op := Op.pwr fun x => { x with cmd := some c }
theorem witness_powerEntry :
    -- a domain in Run is sent deeper, and engine 5 may go; a second word names engine 5 for a wake; a third names no domain
    Met [run 5, Op.wr (PWR_SEL 0) 0x20#32] (fun s => s.pwr.dead = false ∧ s.pwr.cmd = none ∧ getFld 0x80000003#32 PWR_CMD_TARGET = 3
      ∧ (∀ d < 96, (s.reg (PWR_SEL (d / 32))).getLsbD (d % 32) = true → d = 5) ∧ (s.reg (PWR_SEL (5 / 32))).getLsbD (5 % 32) = true
      ∧ s.domState 5 < 3 ∧ Spec.mayEnter s 5 3)
    ∧ Met [run 5, Op.flag (TX_CTL 5) TX_CTL_EN, Op.wr (PWR_SEL 0) 0x20#32] (fun s =>
      (∀ d < 96, (s.reg (PWR_SEL (d / 32))).getLsbD (d % 32) = true → d = 5) ∧ s.domState 5 < 3 ∧ ¬Spec.mayEnter s 5 3)
    ∧ Met [Op.wr (PWR_SEL 0) 0x20#32] (fun s => s.domState 5 = 4 ∧ s.domState 5 ≠ 5 ∧ getFld 0x80000000#32 PWR_CMD_TARGET < s.domState 5
      ∧ 5 ≤ getFld 0x80000005#32 PWR_CMD_TARGET)
    ∧ Met [] (fun s => (∀ d < 96, (s.reg (PWR_SEL (d / 32))).getLsbD (d % 32) = false) ∧ s.pwr.steps = [] ∧ s.stw.waiting = false ∧ s.pwr.poolW = none)
    ∧ Met [run 5, cmdOp (cmd true 4 [5] [(47, 0)] none)] (fun s => s.pwr.cmd = some (cmd true 4 [5] [(47, 0)] none) ∧ s.pwr.wake = false
      ∧ s.domTest 5 = false ∧ Spec.mayEnter s 5 4 ∧ (∀ x ∈ [(47, 0)], s.domState x.1 = 4 ∧ x.2 < 4) ∧ Spec.isDomain 5)
    ∧ Met [run 5, cmdOp (cmd true 4 [] [] (some 5)), Op.pwr fun x => { x with wake := true }] (fun s => s.pwr.cmd = some (cmd true 4 [] [] (some 5))
      ∧ s.domTest 5 = false ∧ s.pwr.steps = [] ∧ s.pwr.wake = true ∧ Spec.isDomain 5)
    ∧ Met [run 5, Op.flag (TX_CTL 5) TX_CTL_EN, cmdOp (cmd true 4 [5] [] none)] (fun s => s.pwr.cmd = some (cmd true 4 [5] [] none)
      ∧ s.domTest 5 = false ∧ ¬Spec.mayEnter s 5 4 ∧ s.pwr.steps = [])
    -- a wake during the entry, after a domain has moved; and ALL to Off while every domain is in Off
    ∧ Met [run 5, Op.pwr fun x => { x with wake := true }, cmdOp (cmd true 4 [5] [(47, 0)] none)] (fun s => s.pwr.wake = true
      ∧ s.pwr.cmd = some (cmd true 4 [5] [(47, 0)] none) ∧ (∀ x ∈ [(47, 0)], s.domState x.1 = 4 ∧ x.2 < 4) ∧ ([(47, 0)].map Prod.fst).Nodup)
    ∧ Met [] (fun s => s.pwr.cmd = none ∧ (0xC0000004#32).getLsbD 30 = true ∧ getFld 0xC0000004#32 PWR_CMD_TARGET = 4
      ∧ (∀ d ∈ List.range 96, Spec.isDomain d → s.domState d = 4) ∧ s.pwr.steps = [] ∧ s.stw.waiting = false ∧ s.pwr.poolW = none) := by
  have may : Spec.mayEnter (mk [run 5, Op.wr (PWR_SEL 0) 0x20#32]) 5 3 := ⟨by decide, fun _ => ⟨fun _ =>
    ⟨by decide, by decide, by decide, by decide, by decide, by decide, by decide, no_stCalendar (by decide) (by decide), by decide⟩,
    by decide, by decide, by decide⟩⟩
  have may4 : Spec.mayEnter (mk [run 5, cmdOp (cmd true 4 [5] [(47, 0)] none)]) 5 4 := ⟨by decide, fun _ => ⟨fun _ =>
    ⟨by decide, by decide, by decide, by decide, by decide, by decide, by decide, no_stCalendar (by decide) (by decide), by decide⟩,
    by decide, by decide, by decide⟩⟩
  refine ⟨met ⟨by decide, by decide, by decide, by decide, by decide, by decide, may⟩, met ⟨by decide, by decide, ?_⟩, met (by decide),
    met (by decide), met ⟨by decide, by decide, by decide, may4, by decide, by decide⟩, met (by decide), met ⟨by decide, by decide, ?_, by decide⟩, met (by decide),
    met (by and_intros <;> decide)⟩
  · exact fun h => absurd ((h.2 (by decide)).1 (by decide)).1 (by decide)
  · exact fun h => absurd ((h.2 (by decide)).1 (by decide)).1 (by decide)
theorem witness_powerBanks :
    -- the first feed to become GOOD, and two at one time before the always-on domain is ready
    Met (feeds 2 2 false) (fun s => s.sup.a.since = none ∧ s.sup.b.since = none)
    ∧ Met (feeds 0 2 false ++ [Op.wr SUP_CFG 1#32, Op.mod fun s => { s with sup := ⟨none, { FeedSt.init with since := some 0 }, .init⟩ }]) (fun s =>
      s.sup.a.since = some s.time.c ∧ s.sup.b.since = none ∧ s.pwr.ready = false)
    -- a domain enters Deep sleep with clean banks
    ∧ Met [run 5, cmdOp ⟨true, 3, [], [], some 5, none, false, false⟩] (fun s => s.pwr.cmd = some ⟨true, 3, [], [], some 5, none, false, false⟩
      ∧ Spec.bankClean s 5 ∧ s.domTest 5 = false ∧ s.pwr.steps = [] ∧ s.stw.waiting = false ∧ s.pwr.poolW = none) := by
  refine ⟨met (by decide), met (by decide), met ⟨by decide, ?_, by decide, by decide, by decide, by decide⟩⟩
  rintro k (⟨i, h, -⟩ | h)
  · exact absurd h List.not_mem_nil
  · exact absurd h List.not_mem_nil
/-- A domain with wake steps still to do. -/
def waking (d : Nat) (l : List Nat) (target : Nat) : Op := Op.pwr fun x => { x with steps := Tab.set x.steps (fun _ => ([], 0)) d (l, target) }
theorem witness_powerWake :
    Met [waking 70 [2, 3] 0] (fun s => (s.wakeOf 70).1 = [2, 3] ∧ (s.wakeOf 70).2 = 0 ∧ s.domState 70 = 4 ∧ Spec.isDomain 70
      ∧ s.stw.waiting = false ∧ s.pwr.poolW = none ∧ s.pwr.cmd = none ∧ s.pwr.dead = false)
    ∧ Met [Op.setF (PWR_DOM 5) PWR_DOM_STATE 3, waking 5 [2] 2, cmdOp (cmd false 2 [] [] none)] (fun s => (s.wakeOf 5).1 = [2] ∧ s.domState 5 = 3
      ∧ s.pwr.cmd = some (cmd false 2 [] [] none) ∧ Spec.lastOf s (cmd false 2 [] [] none) 5 ∧ (s.wakeOf 6).1 = [])
    -- the memory step of domain 6, one clock before its limit and after it
    ∧ Met [Op.setF (PWR_DOM 6) PWR_DOM_STATE 2, waking 6 [2, 3] 0, Op.time fun x => { x with c := 500000 }] (fun s => (s.wakeOf 6).1 = [2, 3]
      ∧ ¬4 * 1250 * 100 < s.time.c - Tab.get s.pwr.stepT (fun _ => 0) 6)
    ∧ Met [Op.setF (PWR_DOM 6) PWR_DOM_STATE 2, waking 6 [2, 3] 0, Op.time fun x => { x with c := 500001 }] (fun s => (s.wakeOf 6).1 = [2, 3]
      ∧ 4 * 1250 * 100 < s.time.c - Tab.get s.pwr.stepT (fun _ => 0) 6 ∧ s.stw.waiting = false ∧ s.pwr.poolW = none)
    ∧ Met [Op.wr (PWR_WAKE_SEL 2) 0x40#32] (fun s => s.pwr.cmd = none
      ∧ (∃ e ∈ List.range 71, Spec.isDomain e ∧ (s.reg (PWR_WAKE_SEL (e / 32))).getLsbD (e % 32) = true ∧ s.domState e ≠ 0 ∧ s.domState e ≠ 5))
    ∧ Met (Op.wr (PWR_WAKE_SEL 2) 0x40#32 :: [run 70, Op.flag (PWR_DOM 70) PWR_DOM_READY]) (fun s =>
      (∀ e ∈ List.range 71, ¬(Spec.isDomain e ∧ (s.reg (PWR_WAKE_SEL (e / 32))).getLsbD (e % 32) = true ∧ s.domState e ≠ 0 ∧ s.domState e ≠ 5))
      ∧ getFld 70#32 PWR_PAD_REL_DOMAIN = 70 ∧ s.bit (PWR_DOM 70) PWR_DOM_READY = true ∧ ¬Spec.isDomain (getFld 63#32 PWR_PAD_REL_DOMAIN)) :=
  ⟨met (by decide), met (by unfold Spec.lastOf; and_intros <;> decide), met (by decide), met (by decide), met (by decide),
    met (by and_intros <;> decide)⟩
/-- The memory step of a wake from Deep sleep, with the check words of the entry and with another one. -/
theorem witness_wakeBanks :
    Met [Op.setF (PWR_DOM 62) PWR_DOM_STATE 3, waking 62 [2, 3] 0, Op.bankStore 62] (fun s => (s.wakeOf 62).1 = [2, 3] ∧ s.domState 62 = 3
      ∧ (Spec.banksRead s 62 [] []).bankCrcs 62 = s.chkOf 62 ∧ s.stw.waiting = false ∧ s.pwr.poolW = none)
    ∧ Met [Op.setF (PWR_DOM 62) PWR_DOM_STATE 3, waking 62 [2, 3] 0, Op.pwr fun x => { x with chk := Tab.set x.chk (fun _ => []) 62 [0] }] (fun s =>
      (s.wakeOf 62).1 = [2, 3] ∧ s.domState 62 = 3 ∧ (Spec.banksRead s 62 [] []).bankCrcs 62 ≠ s.chkOf 62) :=
  ⟨met (by and_intros <;> decide +kernel), met (by and_intros <;> decide +kernel)⟩
theorem witness_performanceCounters :
    Met [run 5, Op.cnt fun c => { c with carry := [8190, 8191], val := [(4095, 2 ^ 96 - 1)] }, Op.flag (PAIR_CTL 4095) PAIR_CTL_CHAIN,
        Op.flag (BW_CFG 255) BW_CFG_EN, Op.wr (BW_WIN 255) 1#32, Op.time fun x => { x with c := 1250 }] (fun s =>
      s.pwr.dead = false ∧ 8190 ∈ s.cnt.carry ∧ Spec.chainLow s 8190 ∧ ¬Spec.chainLow s 8191 ∧ Spec.landed s 0 ∧ (2#32).getLsbD 1 = true ∧ (1#32).getLsbD 1 = false
      ∧ ([((0 : Fin 4096), 1)].map Prod.fst).Nodup ∧ (∀ j ∈ List.range 4096, j / 1024 = 0 → Spec.landed s j) ∧ Spec.listedEvent 0x102F0005#32
      ∧ ¬Spec.listedEvent 0x10300005#32 ∧ s.bit (BW_CFG 255) BW_CFG_EN = true ∧ s.bit (BW_CFG 0) BW_CFG_EN = false
      ∧ 1 ≤ s.fld (BW_WIN 255) BW_WIN_W
      ∧ scaleT s.time.c s.time.line / 65536000 ≠ scaleT (s.time.c - 1) s.time.line / 65536000
      ∧ ¬scaleT (s.time.c - 1) s.time.line / 65536000 ≠ scaleT (s.time.c - 2) s.time.line / 65536000 ∧ Spec.served s (ENG_CNT_CTL 5)) := by
  refine met ⟨by decide, by decide, by decide, by decide, by unfold Spec.landed; decide, by decide, by decide, by decide, ?_, by decide, by decide,
    by decide, by decide, by decide, by decide, by decide, srv (by decide)⟩
  intro j _ h
  refine ⟨fun m => ?_, fun m => ?_⟩
  · have q : 2 * j ∈ [8190, 8191] := m
    simp only [List.mem_cons, List.not_mem_nil, or_false] at q; omega
  · have q : 2 * j + 1 ∈ [8190, 8191] := m
    simp only [List.mem_cons, List.not_mem_nil, or_false] at q; omega
theorem witness_wholeDevice : Met [Op.pwr fun x => { x with ready := true }] (fun s => s.pending = [] ∧ s.pwr.dead = false ∧ s.pwr.ready = true
    ∧ zynEncode (.add 1 3 1 2) ≠ none ∧ (zynDecode 1 0#32 0#32).isSome = true) := met (by decide)
/-- A frame that leaves at the next clock, when its port gets free, and one for whose port a clock more is to wait. -/
theorem witness_tick :
    Met [Op.pwr fun x => { x with ready := true }, Op.time fun x => { x with wait := [(3, [(desc 0, true)])], busy := [(3, 1)] }] (fun s =>
      s.pending = [] ∧ s.pwr.dead = false ∧ s.pwr.ready = true ∧ s.waitTx 3 = [(desc 0, true)] ∧ (desc 0).word1.getLsbD 31 = true
      ∧ Tab.get s.time.busy (fun _ => 0) 3 ≤ s.time.c + 1)
    ∧ Met [Op.pwr fun x => { x with ready := true }, Op.time fun x => { x with wait := [(3, [(desc 0, true)])], busy := [(3, 2)] }] (fun s =>
      s.waitTx 3 = [(desc 0, true)] ∧ ¬Tab.get s.time.busy (fun _ => 0) 3 ≤ s.time.c + 1) := ⟨met (by decide), met (by decide)⟩
theorem witness_commandsTakeEffect :
    -- the responder's answers
    Met (neg5 ++ [Op.negRxSt 5 1]) (fun s => s.pwr.dead = false ∧ Spec.served s (NEG_RX_CTL 5) ∧ s.negRxState 5 = 1 ∧ (0x80000000#32).getLsbD 30 = false)
    -- a lane's control
    ∧ Met (har3 2 0 ++ [Op.lane 255 fun x => { x with ramp := some ([0, 0, 32, 0, 0], 0, 0#32, 14) }]) (fun s => ¬Spec.laneUsed s 3 63
      ∧ Spec.served s (LANE_TXEQ 3 63) ∧ Spec.served s (LANE_CTL 3 63) ∧ ((Spec.taps 0x20000#32).map Int.natAbs).sum ≤ 32
      ∧ (s.laneS (64 * 3 + 63)).ramp = some ([0, 0, 32, 0, 0], 0, 0#32, 14) ∧ 14 < 15 ∧ (3#32).getLsbD 31 = false ∧ (0x200#32).getLsbD 30 = false
      ∧ s.lanePower 3 63 = 0 ∧ s.fld (LANE_CTL 3 63) LANE_CTL_LOOP = 0 ∧ getFld 3#32 LANE_CTL_POWER = 0 ∧ getFld 0x200#32 LANE_CTL_LOOP = 0
      ∧ getFld 0x200#32 LANE_CTL_POWER = 2 ∧ s.bit (LANE_STAT 3 63) LANE_STAT_CAL_BUSY = false ∧ 2 ≤ s.laneState 3 63)
    ∧ Met (har3 2 0 ++ [Op.flag (LANE_STAT 3 63) LANE_STAT_CAL_BUSY]) (fun s => Spec.served s (LANE_CTL 3 63)
      ∧ (0#32) &&& 0xC0000000#32 = 0#32 ∧ s.lanePower 3 63 = 0 ∧ s.fld (LANE_CTL 3 63) LANE_CTL_LOOP = 0
      ∧ s.bit (LANE_STAT 3 63) LANE_STAT_CAL_BUSY = true)
    -- a drone's handover, the forager, an error, the farrier
    ∧ Met (d55 4 [Op.drn 55 fun z => { z with pause := some 0#64, cycle := 1500001#64 }]) (fun s => (s.drnS 55).pause = some 0#64
      ∧ (s.drnS 55).slow = false ∧ 1500000 < ((s.drnS 55).cycle - 0#64).toNat)
    ∧ Met [run 47, Op.flag (FG_CFG 47) FG_CFG_EN, Op.wbSet 47 fun _ => [0x10000000 + 47 * 0x400000], far [rowReq] none] (fun s =>
      s.bit (FG_CFG 47) FG_CFG_EN = true ∧ s.regionRun 47 = true ∧ s.fld (FG_POS 47) FG_POS_POS < Spec.macros 47 * Spec.rows 47 * Spec.rowWords 47
      ∧ s.wbOf 47 = [0x10000000 + 47 * 0x400000] ∧ s.regionUp 47 = true ∧ Spec.wordIn 47 0x047FFFC0#32
      ∧ s.poisoned (Spec.keyOf 47 0x047FFFC0#32) = false ∧ 1#8 ≠ 0 ∧ syndSingle 47 1#8 = true ∧ s.ecc.queue = [rowReq]
      ∧ s.farWaits rowReq = false ∧ s.ecc.job = none ∧ s.pwr.dead = false)
    ∧ Met [run 47, far [] (some ⟨rowReq, .switch, 0, 0, false, []⟩)] (fun s => s.ecc.job = some ⟨rowReq, .switch, 0, 0, false, []⟩
      ∧ Spec.farKind rowReq = 1)
    ∧ Met [] (fun s => s.ecc.queue = [] ∧ s.ecc.job = none ∧ 1 ≤ getFld 0xB005010F#32 FAR_CMD_KIND ∧ getFld 0xB005010F#32 FAR_CMD_KIND ≤ 4)
    -- a clear message, a self-test run, a switch-over
    ∧ Met [Op.col fun c => { c with intake := [msg5 false] }, Op.st 48 fun x => { x with run := some ⟨8, 87, 12, false, false, [0]⟩ },
        Op.mod fun s => { s with sup := ⟨some (true, 2), .init, .init⟩ }] (fun s => s.col.intake = [msg5 false] ∧ (msg5 false).isSet = false
      ∧ (msg5 false).src < 4096 ∧ (0x40000000#32).getLsbD 31 = false ∧ (s.stS 48).run = some ⟨8, 87, 12, false, false, [0]⟩
      ∧ s.sup.going = some (true, 2))
    -- power: an entry of engine 5, its turn and its end; the wake of drones' cluster 6, and the release of its pads
    ∧ Met [run 5, Op.wr (PWR_SEL 0) 0x20#32] (fun s => s.pwr.cmd = none ∧ (0x80000004#32).getLsbD 30 = false ∧ getFld 0x80000004#32 PWR_CMD_TARGET = 4
      ∧ s.domState 5 = 0 ∧ Spec.engineIdle s 5 ∧ ∀ e ∈ List.range 96, (s.reg (PWR_SEL (e / 32))).getLsbD (e % 32) = decide (e = 5))
    ∧ Met [run 5, cmdOp (cmd true 4 [5] [] none)] (fun s => s.pwr.cmd = some (cmd true 4 [5] [] none) ∧ Spec.isDomain 5 ∧ s.pwr.wake = false
      ∧ s.domTest 5 = false ∧ Spec.mayEnter s 5 4)
    ∧ Met [run 5, cmdOp (cmd true 4 [6] [] (some 5))] (fun s => s.pwr.cmd = some (cmd true 4 [6] [] (some 5)) ∧ s.domTest 5 = false)
    ∧ Met [waking 70 [2, 3] 0, Op.flag (PWR_DOM 70) PWR_DOM_READY] (fun s => (s.wakeOf 70).1 = [2, 3] ∧ Spec.isDomain 70
      ∧ getFld 70#32 PWR_PAD_REL_DOMAIN = 70 ∧ s.bit (PWR_DOM 70) PWR_DOM_READY = true) := by
  have idle : ∀ l, l = [run 5, Op.wr (PWR_SEL 0) 0x20#32] ∨ l = [run 5, cmdOp (cmd true 4 [5] [] none)] → Spec.engineIdle (mk l) 5 := by
    rintro l (rfl | rfl) <;>
    exact ⟨by decide, by decide, by decide, by decide, by decide, by decide, by decide, no_stCalendar (by decide) (by decide), by decide⟩
  exact ⟨met ⟨by decide, srv (by decide), by decide, by decide⟩,
    met ⟨fun k => absurd ((laneUsed_iff (q := 62) (by decide)).1 k) (by decide), srv (by decide), srv (by decide), by and_intros <;> decide⟩,
    met ⟨srv (by decide), by and_intros <;> decide⟩, met (by decide), met (by and_intros <;> decide), met (by decide), met (by decide),
    met (by and_intros <;> decide), met ⟨by decide, by decide, by decide, by decide, idle _ (.inl rfl), by decide⟩,
    met ⟨by decide, by decide, by decide, by decide, by decide, fun _ => ⟨fun _ => idle _ (.inr rfl), by decide, by decide, by decide⟩⟩,
    met (by decide), met (by decide)⟩

theorem witness_calibrationCommandsTakeEffect :
    Met (run 5 :: [Op.setF (CONV_CAL_TONE 5) CONV_CAL_TONE_FREQ 40000, Op.setF (CONV_CAL_STAT 5) CONV_CAL_STAT_DONE 3]) (fun s => s.pwr.dead = false
      ∧ Spec.served s (CONV_CAL_CTL 5) ∧ (s.engS 5).calRun = 0 ∧ (0x8000000F#32).getLsbD 30 = false ∧ getFld 0x8000000F#32 CONV_CAL_CTL_MASK = 15
      ∧ Spec.calRefuse s 5 1 15 = 0 ∧ Spec.calRefuse s 5 2 15 = 0 ∧ Spec.calRefuse s 5 3 15 = 0)
    ∧ Met (e5 fun e => { e with calRun := 3 }) (fun s => s.pwr.dead = false ∧ Spec.served s (CONV_CAL_CTL 5) ∧ (s.engS 5).calRun ≠ 0
      ∧ (s.engS 5).calRun ∈ [1, 2, 3] ∧ (0x40000000#32).getLsbD 31 = false) :=
  ⟨met ⟨by decide, srv (by decide), by decide, by decide, by decide, by decide, by decide, by decide⟩,
    met ⟨by decide, srv (by decide), by decide, by decide, by decide⟩⟩

/-! Ill-formed commands: one for each check of WellFormed. -/

set_option maxRecDepth 100000 in
theorem refused_oam : WellFormed (.transmitBoundary 5 ⟨0#8, List.replicate 134 0#8, [0, 0, 0, 0]⟩) = false := by decide
theorem refused_neighbours : WellFormed (.txOn 5 ⟨0#8, [], [0, 0, 0]⟩) = false ∧ WellFormed (.negSwitchSuperframe 5 ⟨0#8, [], []⟩) = false
    ∧ WellFormed (.receiveBoundary 5 ⟨[], [0]⟩) = false := by decide
theorem refused_words : WellFormed (.negLocalTarget 5 ⟨[[]], [0, 0, 0, 0]⟩) = false ∧ WellFormed (.gaitCatchUp 5 ⟨[[[]]], [0, 0, 0, 0]⟩) = false
    ∧ WellFormed (.syncHit 5 [[[], [], [], []]]) = false ∧ WellFormed (.capTriggerPin true [(5, [[]])]) = false
    ∧ WellFormed (.tunePeriodEnd [(5, [[]])]) = false := by decide
set_option maxRecDepth 100000 in
theorem refused_rein : WellFormed (.reinPeriod [0]) = false ∧ WellFormed (.reinPeriod (List.replicate 48 65536)) = false := by decide
theorem refused_spare : WellFormed (.sliceTrackUpdate 5 0 64 [] []) = false ∧ WellFormed (.sliceTrackUpdate 5 0 63 [] [0#8]) = false := by decide
theorem refused_calibration : WellFormed (.calStepDone 5 ⟨[[], [], []]⟩) = false := by decide
theorem refused_group : WellFormed (.edgeGroupReceive 0 true 0 0 [0#8]) = false := by decide
theorem refused_eyes : WellFormed (.laneCalDone 0 0 [[]]) = false := by decide
theorem refused_sensors : WellFormed (.thermSample [0#16]) = false := by decide
theorem refused_counters : WellFormed (.engCntSnap .host 5 [1]) = false ∧ WellFormed (.engCntSnap .host 5 []) = true := by decide
theorem refused_channels : WellFormed (.monCoarseRead .host 5 [[]]) = false ∧ WellFormed (.monFineOutput 5 [[[]]]) = false := by decide

/-! Words of the Zynnan instructions, written out from the formats and the major opcodes of R386 and R387. -/

theorem word_sub : zynDecode 1 0x08801801#32 0#32 = some (.sub 1 1 2 3) := by decide
theorem word_addk : zynDecode 1 0x58040010#32 0#32 = some (.addk 1 11 0 0x0010#16) := by decide
theorem word_ldw : zynDecode 1 0x0890FFFC#32 0#32 = some (.ldw 1 1 2 0xFFFC#16) := by decide
theorem word_ldp : zynDecode 1 0x32520000#32 0#32 = some (.ldp 1 6 2 true 0#16) := by decide
theorem word_breq : zynDecode 1 0x0898FFFF#32 0#32 = some (.breq 1 1 2 0xFFFF#16) := by decide
theorem word_goto : zynDecode 1 0x079F0000#32 0#32 = some (.goto 1 0 30) := by decide
theorem word_cmul : zynDecode 1 0x00200880#32 0#32 = some (.cmul 1 0 1 2 false) := by decide
theorem word_cmac : zynDecode 1 0x10201900#32 0#32 = some (.cmac 1 0 3 4 false) := by decide
theorem word_crnd : zynDecode 1 0x3020280F#32 0#32 = some (.crnd 1 5 0 15#5) := by decide
theorem word_bexp : zynDecode 1 0x19212000#32 0#32 = some (.bexp 1 3 1 4) := by decide
theorem word_epl : zynDecode 1 0x08A80004#32 0#32 = some (.epl 1 1 2 4#16) := by decide
theorem word_swap : zynDecode 1 0x08AA1B05#32 0#32 = some (.swap 1 1 2 3 1#2 true 5#6) := by decide
theorem word_wfe : zynDecode 1 0x08AB0001#32 0#32 = some (.wfe 1 1 2 true) := by decide
theorem word_rtt : zynDecode 1 0x00300004#32 0#32 = some (.rtt 1) := by decide
theorem word_rdc : zynDecode 1 0x08310008#32 0#32 = some (.rdc 1 1 0x008#12) := by decide
theorem word_wrc : zynDecode 1 0x00B20009#32 0#32 = some (.wrc 1 2 0x009#12) := by decide
theorem word_li : zynDecode 1 0x083F0000#32 0x12345678#32 = some (.li 1 1 0x12345678#32) := by decide
theorem word_ja : zynDecode 1 0x007F0000#32 0x100#32 = some (.ja 1 0x100#32) ∧ zynDecode 1 0x007F0000#32 0x102#32 = none := by decide
/-- A reserved field that is not zero: GOTO's function, SWAP's [7:6]; and a major opcode that is not listed (R387). -/
theorem word_reserved : zynDecode 1 0x079F0001#32 0#32 = none ∧ zynDecode 1 0x08AA1B45#32 0#32 = none ∧ zynDecode 1 0x003E0000#32 0#32 = none := by decide

/-! Worked examples of the spec. -/

set_option maxRecDepth 100000 in
/-- 02, gait entry 3: 240 GBd, scale 2,294 (R130), 256 slots pass the checks of R53 and 257 do not; 31 guard positions (08). -/
theorem example_gait : (gaitOf 0xB2181000#32 0x100#32 0x235D#32).bad = 0 ∧ (gaitOf 0xB2181000#32 0x101#32 0x235D#32).bad ≠ 0
    ∧ (gaitOf 0xB2181000#32 0x100#32 0x235D#32).scale = 2294 ∧ (gaitOf 0xB2181000#32 0x100#32 0x235D#32).sr = 240 * 4096
    ∧ (gaitOf 0xB2181000#32 0x100#32 0x235D#32).cwLen = 9375 ∧ (gaitOf 0xB2181000#32 0x100#32 0x235D#32).guard = 31 := by decide +kernel
/-- 02, the first bits of the sync word and of the pilots. -/
theorem example_syncBits : (List.range 32).map syncBit = [true, false, true, true, false, false, true, true, true, false, true, false, true, true, true, true,
    true, false, true, false, false, false, true, false, false, false, true, false, false, true, false, true] := by decide
theorem example_pilotBits : pilotBit 15 = true ∧ pilotBit 16 = true := by decide
theorem example_label : labelPoint [true, false, true, true, false, true] = (-5, 3) := by decide
set_option maxRecDepth 100000 in
/-- 02, end B of the change of engine 21: the ACK in far superframe 0x10_0BC0 makes Lt 0x0A_5E38. -/
theorem example_localTarget : after (.negRxAck .host 21 0x80000000#32) (mk ([run 21, Op.setF (GAIT_SEL 21 + 0x4000) GAIT_SEL_RX_IDX 3]
    ++ [3, 4].flatMap (fun i => [Op.wr (GAIT_W1 21 i) 1#32, Op.wr (GAIT_W2 21 i) 128#32, Op.wr (GAIT_W0 21 i) 0x80800000#32])
    ++ [Op.setF (RX_STAT 21) RX_STAT_STATE 7, Op.negRxSt 21 1, Op.flag (NEG_RX_PROP 21) NEG_RX_PROP_CHECK_OK, Op.wr (NEG_RX_S 21) 0x120000#32,
      Op.setF (NEG_RX_PROP 21) NEG_RX_PROP_INDEX 4, Op.eng 21 (fun e => { e with tx := .on }), Op.flag (ENG_SF_OFS 21) ENG_SF_OFS_VALID,
      Op.setF (ENG_SF_OFS 21) ENG_SF_OFS_OFS 0x07A1C8, Op.setF (ENG_SF_RX 21) ENG_SF_RX_COUNT 0x0869F8])) (0, 0#24)
    (fun t => (t.negRxState 21, (t.engS 21).resp.lt)) = (2, 0x0A5E38#24) := by decide
set_option maxRecDepth 100000 in
/-- R61 and R370 on "123456789". -/
theorem example_crc : crc16 [0x31#8, 0x32#8, 0x33#8, 0x34#8, 0x35#8, 0x36#8, 0x37#8, 0x38#8, 0x39#8] = 0x29B1
    ∧ crc32c [0x31#8, 0x32#8, 0x33#8, 0x34#8, 0x35#8, 0x36#8, 0x37#8, 0x38#8, 0x39#8] = 0xE3069283 := by decide
/-- 03, slice 5 of ADC XI of engine 9: G and g[5] as table values. -/
theorem example_calibration : ratio16 (120 * 16384 * 10) 1172 = some 0x4187 ∧ ratio16 (1172 * 16384) 1180 = some 0x3F91 := by decide
/-- 04, engine 12 with GLO and CDPRE on. -/
theorem example_latency : txTotal (setFld (setFld 0#32 TX_MODE_GLO 1) TX_MODE_CDPRE 1) = 1573 := by decide
theorem example_adjust : adjustMsg 5 37 = [0x0#4, 0x5#4, 0x1#4, 0x0#4, 0x0#4, 0x0#4, 0x0#4, 0x2#4, 0x5#4, 0x3#4] := by decide
/-- 06, one transmit term of engine 23: the product, and the stage's output when it is the only term. -/
theorem example_term : gloTermVal 0x86C40082#32 (fun src y _ => if src = 0 then (6882, -2294) else if y then (2294, 2294) else (-2294, 6882)) false
      = (434593014624, -144864338208)
    ∧ gloOut (6882, -2294) [((-1200, 3000), (434593014624, -144864338208))] = ((6877, -2210), false) := by decide
/-- 07, the geometry of codewords of gait entry 3, and check row 0. -/
theorem example_codeword : (List.range 10).map (paritySlots 7500 9375) = [0, 1, 1, 1, 1, 0, 1, 1, 1, 1] ∧ symPos (512 + 2897) = 3775
    ∧ parityVar 2 0 = 30561 ∧ interleave 1 = 7919 ∧ ldpcShift 0 0 = 53 ∧ ldpcShift 0 3 = 311 ∧ ldpcShift 0 7 = 195
    ∧ (checkVars 0 0).take 3 = [53, 1463, 2883] := by decide
/-- R230's thresholds as FEC_BER_LOG values. -/
theorem example_berLog : berLog 20 1000 = 6959 ∧ berLog 26 1000 = 6492 ∧ berLog 33 1000 = 6068 ∧ berLog 36 1000 = 5913 := by decide +kernel
/-- R253, the rein block of context 100. -/
theorem example_rein : ((Op.rein 100 false).run (mk [Op.setF (CTX_LIM 100) CTX_LIM_LIM 0x123456])).out.head? = some (.rein 100 0x330006451234564B#64) := by decide
/-- 10, the offset of engine 40 over 3,000 km: 1,234.5 ns in 2^-16 ns. -/
def time40 (d : Nat) : State := mk [Op.wr (LTT_CFG 40) 0xC0000000#32, Op.setF (LTT_CFG 40) LTT_CFG_TX_LAMBDA 155012, Op.setF (LTT_D 40) LTT_D_D d,
  Op.setF (RX_CD_LAMBDA 40 + 0x4000) RX_CD_LAMBDA_LAMBDA 154932, Op.flag (TX_STAT 40) TX_STAT_ON,
  Op.eng 40 fun e => { e with ltt := { e.ltt with arr := [(8#24, BitVec.ofNat 48 (1029403765 * 65536 + 32768))] } }]
theorem example_time : ((Op.thn (Op.lttFrame 40 (List.replicate 8 0#8 ++ [7#8] ++ beBytes 3 8 ++ beBytes 6 (1014705000 * 65536) ++ beBytes 3 0
      ++ beBytes 6 (1014701275 * 65536 + 32768) ++ beBytes 6 (1000000000 * 65536) ++ List.replicate 223 0#8)) (Op.lttTick 40)).run (time40 51250)).reg (LTT_THETA_LO 40)
    = BitVec.ofNat 32 (1234 * 65536 + 32768) := by decide
/-- 11, the delay of engine 40's chain; with MON_CFG at reset, R334 gives 8 + 5 × 63 / 2 + ... = 2,565.5 clocks. -/
theorem example_groupDelay : (mk [Op.setF (MON_CFG 40) MON_CFG_CIC_R 10, Op.setF (MON_CFG 40) MON_CFG_NT 15, Op.setF (MON_CFG 40) MON_CFG_DEC 2,
    Op.setF (MON_CFG 40) MON_CFG_MED 2]).monGd 40 = 35851 := by decide
/-- 13, the dot product: each of its three instructions. -/
theorem example_dotProduct :
    after (.cmul 1 0 1 2 false) (mk (drone1 0xEC782EE0#32 0x0BB84E20#32)) (0#40, 0#40) (fun t => (t.drnS 1).ar 0) = (255000000#40, -64000000#40)
    ∧ after (.cmac 1 0 3 4 false) (mk (drone1 0#32 0#32 ++ [Op.drn 1 fun z => ((z.gw 3 0x50004240#32).gw 4 1#32).aw 0 (255000000#40, -64000000#40)])) (0#40, 0#40)
      (fun t => (t.drnS 1).ar 0) = (255016960#40, -63979520#40)
    ∧ after (.crnd 1 5 0 15#5) (mk (drone1 0#32 0#32 ++ [Op.drn 1 fun z => z.aw 0 (255016960#40, -63979520#40)])) 0#32 (fun t => t.gr 1 5) = 0xF8601E66#32 := by decide
/-- 13, bit-reversed order: after index 6 comes 1, and after index 7 the start (R392). -/
theorem example_bitReversed : DrnSt.post (ptr 0#32 16#32 0x10002000#32 32#32 2#32 .init) 3 (0x10002000#32 + 24#32) = some (0x10002000#32 + 4#32)
    ∧ DrnSt.post (ptr 0#32 16#32 0x10002000#32 32#32 2#32 .init) 3 (0x10002000#32 + 28#32) = some 0x10002000#32 := by decide
/-- R393: the block exponent of M = 20,000 is 0. -/
theorem example_exponent : after (.bexp 1 9 3 1) (mk (drone1 1#32 0#32 ++ [Op.drn 1 (ptr 0x100#32 4#32 0#32 0#32 0#32), Op.byte 0x30060100 0x20#8, Op.byte 0x30060101 0x4E#8]))
    9#32 (fun t => t.gr 1 9) = 0#32 := by decide
/-- 14, the log address of a coefficient of engine 23. -/
theorem example_logAddress : logAddr 0x15DB3E44 = 0x0333E440#32 := by decide
/-- 15, the message of a lock loss on engine 12, its history entry, and the rung that it takes. -/
theorem example_message : after (.faultMessage []) (mk [run 12, Op.col fun c => { c with intake := [⟨0x1C9, 8, 3, false, 0x4A10#40, true, 0, false⟩] }]) []
      (fun t => [t.reg (FC_HQ 0 0), t.reg (FC_HQ 0 1), t.reg FC_HQ_SEQ]) = [0x00004A10#32, 0x1C908600#32, 1#32] := by decide
theorem example_messageRung : after (.faultMessage []) (mk [run 12, Op.col fun c => { c with intake := [⟨0x1C9, 8, 3, false, 0x4A10#40, true, 0, false⟩] }]) []
      (fun t => [t.bit FC_STAT FC_STAT_IRQ, t.intN, t.col.errN, t.bit (FC_SRC_STAT 0x1C9) ⟨3, 3⟩]) = [true, false, true, true] := by decide
/-- 16, the signatures of four words. -/
theorem example_misr : Spec.misr [(4, 0#64)] = 0xFFFFFFFFFFFFFF69#64 ∧ Spec.misr [(1, 9#64), (3, 0#64)] = 0xFFFFFFFFFFFFFF21#64 := by
  unfold Spec.misr; decide
/-- 18, the read of pair 37 with a carry in flight. -/
theorem example_carry : after (.cntW0Read .host 37) (mk [Op.flag (PAIR_CTL 37) PAIR_CTL_CHAIN, Op.cnt fun c => { c with val := [(37, 5 * 2 ^ 48 + 3)], carry := [74] }])
    [] (fun t => [t.pairV 37]) = [6 * 2 ^ 48 + 3] := by decide
/-- 19, addresses for engine 33 and harness 3, and an access while the engine is in Deep sleep. -/
theorem example_addresses : TX_PREEMPH 33 2 4 = 0x02090190 ∧ CAL_OUT 33 200 = 0x00758B20 ∧ FC_SRC_CFG 0x319 = 0x00104C64 ∧ LANE_STAT 3 8 = 0x03301320
    ∧ (mk [run 33]).busWord 0x02080000 = 0x421#32 := by decide
theorem example_darkRead : after (.darkAccess .host .bar0 0x02090190#32 false) (mk [Op.setF (PWR_DOM 33) PWR_DOM_STATE 3]) []
    (fun t => [t.reg REG_DARK_ADDR, t.reg REG_DARK_INFO]) = [0x02090190#32, 0xFC21#32] := by decide
/-- 20, the balls of lanes 130 and 255. -/
theorem example_balls : rowName 5 = "E" ∧ (laneBalls 130).map (·.2) = [101, 102, 103, 104, 105] ∧ (laneBalls 130).map (·.1) = [5, 5, 5, 5, 5]
    ∧ rowName 104 = "EJ" ∧ (laneBalls 255).map (·.2) = [106, 107, 108, 109, 110] ∧ (laneBalls 255).map (·.1) = [104, 104, 104, 104, 104] := by decide

/-! Single steps. -/

/-- R66: in the example of 02, GO in superframe 0x0F_FFFC leads by 131,072 superframes, and the proposal goes out. -/
theorem step_proposal : after (.negTxGo .host 5 0x80010000#32) (mk (neg5 ++ [Op.setF (ENG_SF_TX 5) ENG_SF_TX_SN 0x0FFFFC, Op.wr (NEG_TX_S 5) 0x120000#32]))
    (0, 0) (fun t => (t.fld (NEG_TX_STAT 5) NEG_TX_STAT_STATE, t.fld (NEG_TX_STAT 5) NEG_TX_STAT_REASON)) = (1, 0) := by decide
/-- R389: the saturating sum, and the shift by the low five bits only. -/
theorem step_saturates : after (.adds 1 3 1 2) (mk (drone1 0x7FFFFFFF#32 1#32)) (0#32, false) (fun t => (t.gr 1 3, (t.drnS 1).sat)) = (0x7FFFFFFF#32, true) := by decide
theorem step_shift : after (.shl 1 3 1 2) (mk (drone1 1#32 33#32)) 0#32 (fun t => t.gr 1 3) = 2#32 := by decide
/-- R303: the clock counts when no command waits. -/
theorem step_clock : (match step (mk [Op.pwr fun x => { x with ready := true }]) with | .next t => t.time.c | _ => 0) = 1 := by decide
/-- R403: SYS traps with code 7 and leaves TPC after the instruction. -/
theorem step_sys : after (.sys 1) (mk (d1 fun z => { z with keeper := false, pc := 0x100#16, tentry := 0x40#32 })) (0#16, 0#32, 0#32)
    (fun t => ((t.drnS 1).pc, (t.drnS 1).tpc, (t.drnS 1).tcode)) = (0x40#16, 0x104#32, 7#32) := by decide
/-- R411: with HARD_THR 3, the third correction of an armed entry makes it HARD. -/
theorem step_hard : after (.eccReadError none 0x17 0x0333E440#32 1#8) (mk [run 23, Op.wr (ECC_LOG_ADDR 0x17 0) 0x0333E440#32,
    Op.setF ECC_CFG ECC_CFG_HARD_THR 3, Op.flag (ECC_LOG_INFO 0x17 0) ECC_LOG_INFO_VALID, Op.flag (ECC_LOG_INFO 0x17 0) ECC_LOG_INFO_ARMED,
    Op.setF (ECC_LOG_INFO 0x17 0) ECC_LOG_INFO_HITS 2]) (false, 0)
    (fun t => (t.bit (ECC_LOG_INFO 0x17 0) ECC_LOG_INFO_HARD, t.fld (ECC_LOG_INFO 0x17 0) ECC_LOG_INFO_HITS)) = (true, 3) := by decide
/-- R474: an entry that fails after a domain has moved is aborted, and the domain wakes by its own steps. -/
theorem step_abort : after .entryTurn (mk [Op.setF (PWR_DOM 47) PWR_DOM_STATE 2, run 51, cmdOp (cmd true 2 [51] [(47, 0)] none)]) ([], none)
    (fun t => ((t.wakeOf 47).1, t.pwr.cmd.bind (·.abort))) = ([1, 3], some (51, 3)) := by decide

end Sys2Proof.Tests
end

section
/-! SUPPORT. The arithmetic of R390 and R391: rounding to nearest with halves to even, saturation, and complex products, in the
statements' words. -/
open Sys2Proof Sys2Proof.Machine
namespace Sys2Proof.Machine

/-- A multiple of `d` within `d / 2` of `d * e + r` is one of the two around it. -/
theorem nearest_multiple {d v q e r : Int} (hd : 0 < d) (hv : v = d * e + r) (h0 : 0 ≤ r) (hr : r < d)
    (h : 2 * (q * d - v).natAbs ≤ d) : q = e ∨ q = e + 1 := by
  have hk : q * d - v = (q - e) * d - r := by rw [hv, Int.sub_mul, Int.mul_comm d e, Int.sub_sub]
  rw [hk] at h
  have hlow : -1 < q - e := Int.lt_of_mul_lt_mul_right (a := d) (by omega) (Int.le_of_lt hd)
  have hhigh : q - e < 2 := Int.lt_of_mul_lt_mul_right (a := d) (by omega) (Int.le_of_lt hd)
  omega

/-- The value nearest to `v / 2^n`, halves to even, is the rounded one (R390). -/
theorem rne_of_nearest {v : Int} {n : Nat} {q : Int} (h : Spec.nearest v n q) : rne v n = q := by
  unfold Spec.nearest at h
  unfold rne rneDiv
  have hn : ((2 ^ n : Nat) : Int) = 2 ^ n := Int.natCast_pow 2 n
  rw [hn]
  have hd : (0 : Int) < 2 ^ n := Int.pow_pos (by decide)
  generalize (2 : Int) ^ n = d at *
  have hv := (Int.mul_ediv_add_emod v d).symm
  have h0 := Int.emod_nonneg v (Int.ne_of_gt hd)
  have hr := Int.emod_lt_of_pos v hd
  generalize v / d = e at *
  generalize v % d = r at *
  have hq : q = e ∨ q = e + 1 := nearest_multiple hd hv h0 hr (by omega)
  have hz : (e + 1) * d - v = d - r := by rw [hv, Int.add_mul, Int.mul_comm d e]; omega
  have hy : e * d - v = -r := by rw [hv, Int.mul_comm d e]; omega
  rcases hq with rfl | rfl
  · rw [hy] at h
    rw [if_neg]
    omega
  · rw [hz] at h
    rw [if_pos]
    omega

/-- Saturating, in the statements' words. -/
theorem satS_eq_held (b : Nat) (v : Int) : satS b v = (Spec.held b v, Spec.held b v != v) := by
  unfold satS Spec.held clampI bne
  simp only [ne_eq, decide_not]
  rfl
/-- A value within `b` signed bits stays. -/
theorem held_of_fits {b : Nat} {v : Int} (hl : -2 ^ (b - 1) ≤ v) (hh : v ≤ 2 ^ (b - 1) - 1) : Spec.held b v = v := by
  unfold Spec.held
  rw [if_neg (by omega), if_neg (by omega)]
theorem sat32_eq_held (v : Int) : sat32 v = (BitVec.ofInt 32 (Spec.held 32 v), Spec.held 32 v != v) := by
  rw [sat32, satS_eq_held]
theorem sat40_eq_held (v : Int) : sat40 v = (BitVec.ofInt 40 (Spec.held 40 v), Spec.held 40 v != v) := by
  rw [sat40, satS_eq_held]

theorem cwI_eq_re (w : W) : cwI w = Spec.re w := by
  unfold cwI Spec.re
  congr 1
theorem cwQ_eq_im (w : W) : cwQ w = Spec.im w := by
  unfold cwQ Spec.im
  congr 1
/-- The model's product is that of R391. -/
theorem cwMul_eq_prod (a b : W) (conj : Bool) : cwMul a b conj = Spec.prod a b conj := by
  unfold cwMul Spec.prod
  simp only [cwI_eq_re, cwQ_eq_im]
  cases conj
  · rfl
  · refine Prod.ext ?_ ?_
    · simp only [if_true, Int.mul_neg, Int.sub_neg]
    · simp only [if_true, Int.mul_neg]
      omega

/-- A part of a complex word lies within 16 signed bits, and so a product of two parts within 2^30. -/
theorem re_range (w : W) : -2 ^ 15 ≤ Spec.re w ∧ Spec.re w < 2 ^ 15 := ⟨BitVec.le_toInt _, BitVec.toInt_lt⟩
theorem im_range (w : W) : -2 ^ 15 ≤ Spec.im w ∧ Spec.im w < 2 ^ 15 := ⟨BitVec.le_toInt _, BitVec.toInt_lt⟩
theorem mul_range {p q : Int} (hp : -2 ^ 15 ≤ p ∧ p < 2 ^ 15) (hq : -2 ^ 15 ≤ q ∧ q < 2 ^ 15) :
    -2 ^ 30 ≤ p * q ∧ p * q ≤ 2 ^ 30 := by
  have hn : (p * q).natAbs ≤ 2 ^ 15 * 2 ^ 15 := by
    rw [Int.natAbs_mul]
    exact Nat.mul_le_mul (by omega) (by omega)
  omega
/-- Sums and differences of such products fit an accumulator part. -/
theorem held_add_sub {p q : Int} (hp : -2 ^ 30 ≤ p ∧ p ≤ 2 ^ 30) (hq : -2 ^ 30 ≤ q ∧ q ≤ 2 ^ 30) :
    Spec.held 40 (p + q) = p + q ∧ Spec.held 40 (p - q) = p - q :=
  ⟨held_of_fits (by omega) (by omega), held_of_fits (by omega) (by omega)⟩
/-- A product of complex words fits an accumulator, so that CMUL never saturates (R391). -/
theorem held_prod (a b : W) (conj : Bool) : Spec.held 40 (Spec.prod a b conj).1 = (Spec.prod a b conj).1
    ∧ Spec.held 40 (Spec.prod a b conj).2 = (Spec.prod a b conj).2 := by
  have hrr := mul_range (re_range a) (re_range b)
  have hii := mul_range (im_range a) (im_range b)
  have hri := mul_range (re_range a) (im_range b)
  have hir := mul_range (im_range a) (re_range b)
  cases conj
  · exact ⟨(held_add_sub hrr hii).2, (held_add_sub hri hir).1⟩
  · exact ⟨(held_add_sub hrr hii).1, (held_add_sub hir hri).2⟩

end Sys2Proof.Machine
end

section
/-! PROOF of O3: saturating results of Zynnan instructions, and the accumulators (R389 to R391). -/
open Sys2Proof Sys2Proof.Machine
namespace Sys2Proof.Machine

/-! An instruction over the drone's own registers. -/

/-- A command that is an operation on drone `x` takes the drone to `z` and leaves everything else: of the drone what the frame `g`
keeps. -/
theorem gives_of_drn {i : Instr} {s : State} {x : Drn} {f : DrnSt → DrnSt} {z : DrnSt} {P : State → Prop} (g : DrnSt → DrnSt)
    (e : exec i s = .next ((Op.drn x f).run s.quiet)) (hf : f (s.drnS x) = z) (hg : g z = g (s.drnS x))
    (h : ∀ t, t.drnS x = z → OnlyDrone s t x g → P t) : Gives i s P := by
  subst hf
  exact ⟨_, e, h _ (Op.drn_drnS_same ..) (Op.drn_only s x f g hg)⟩
/-- An instruction over the drone's own registers takes the drone to `z`, one word further. -/
theorem gives_of_zynRun {i : Instr} {s : State} {x : Drn} {f : DrnSt → DrnSt} {z : DrnSt} {P : State → Prop} (g : DrnSt → DrnSt)
    (hx : s.executes x = true) (e : exec i s = (Op.zynRun x f).next s) (hf : f (s.drnS x) = z) (hg : g z.adv = g (s.drnS x))
    (h : ∀ t, t.drnS x = z.adv → OnlyDrone s t x g → P t) : Gives i s P :=
  gives_of_drn g (e.trans (Op.zyn_next s x _ hx)) (congrArg DrnSt.adv hf) hg h

/-- `DrnSt.gw_gr` on register names. -/
theorem DrnSt.gw_gr_reg (z : DrnSt) (d k : GReg) (v : W) : (z.gw d v).gr k = if k = 0 then 0#32 else if k = d then v else z.gr k := by
  simp only [DrnSt.gw_gr, ← Fin.ext_iff, Fin.val_eq_zero_iff]
/-- A read of the register just written. -/
theorem DrnSt.gw_gr_same (z : DrnSt) (d : GReg) (v : W) : (z.gw d v).gr d = if d = 0 then 0#32 else v := by
  rw [DrnSt.gw_gr_reg, if_pos rfl]
/-- A read of another register than the one written. -/
theorem DrnSt.gw_gr_other (z : DrnSt) {d k : GReg} (v : W) (h : k ≠ d) : (z.gw d v).gr k = z.gr k := by
  rw [DrnSt.gw_gr_reg, if_neg h]
  split
  · subst k; rfl
  · rfl
/-- A write of a general register changes neither PC nor SAT nor anything beyond the general registers. -/
theorem DrnSt.gw_gPcSat (z : DrnSt) (d : Nat) (v : W) : Spec.gPcSat (z.gw d v) = Spec.gPcSat z := by
  unfold DrnSt.gw; split <;> rfl

/-- An instruction that writes one general register and SAT leaves what `Spec.writesSat` says (R390). -/
theorem gives_of_zynSat {i : Instr} {s : State} {x : Drn} {d : GReg} {f : DrnSt → W × Bool} {v : W} {b : Bool}
    (hx : s.executes x = true) (e : exec i s = (Op.zynSat x d f).next s) (hf : f (s.drnS x) = (v, b)) :
    Gives i s fun t => Spec.writesSat s t x d v b := by
  refine gives_of_zynRun (z := { (s.drnS x).gw d v with sat := (s.drnS x).sat || b }) Spec.gPcSat hx e (by rw [hf])
    (DrnSt.gw_gPcSat _ d v) fun t ht only => ⟨?_, fun k hk => ?_, ?_, ?_, only⟩
  · rw [State.gr, ht]; exact DrnSt.gw_gr_same _ d v
  · rw [State.gr, ht]; exact DrnSt.gw_gr_other _ v hk
  · rw [ht]; rfl
  · rw [ht]; exact congrArg (· + 4#16) (DrnSt.gw_pc _ d v)

/-- CEXT: the Q result is written last, so that it stands where both name one register (R391). -/
theorem cext_gives {s : State} {x : Drn} (g h : GReg) (a : AReg) (n : BitVec 5) (hx : s.executes x = true) {e f : Int}
    (he : Spec.nearest ((s.drnS x).ar a).1.toInt n.toNat e) (hf : Spec.nearest ((s.drnS x).ar a).2.toInt n.toNat f) :
    Gives (.cext x g h a n) s fun t => (g ≠ h → t.gr x g = (if g = 0 then 0#32 else BitVec.ofInt 32 (Spec.held 32 e)))
        ∧ t.gr x h = (if h = 0 then 0#32 else BitVec.ofInt 32 (Spec.held 32 f))
        ∧ (∀ k : GReg, k ≠ g → k ≠ h → t.gr x k = s.gr x k)
        ∧ (t.drnS x).sat = ((s.drnS x).sat || (Spec.held 32 e != e || Spec.held 32 f != f))
        ∧ (t.drnS x).pc = (s.drnS x).pc + 4#16 ∧ OnlyDrone s t x Spec.gPcSat := by
  have hI : rnd32 ((s.drnS x).ar a).1 n = (BitVec.ofInt 32 (Spec.held 32 e), Spec.held 32 e != e) := by
    rw [rnd32, rne_of_nearest he, sat32_eq_held]
  have hQ : rnd32 ((s.drnS x).ar a).2 n = (BitVec.ofInt 32 (Spec.held 32 f), Spec.held 32 f != f) := by
    rw [rnd32, rne_of_nearest hf, sat32_eq_held]
  refine gives_of_zynRun Spec.gPcSat hx rfl rfl ?_ fun t ht only => ⟨fun hgh => ?_, ?_, fun k hg hh => ?_, ?_, ?_, only⟩
  · exact (DrnSt.gw_gPcSat _ h _).trans (DrnSt.gw_gPcSat _ g _)
  · rw [State.gr, ht, hI]; exact (DrnSt.gw_gr_other _ _ hgh).trans (DrnSt.gw_gr_same _ g _)
  · rw [State.gr, ht, hQ]; exact DrnSt.gw_gr_same _ h _
  · rw [State.gr, ht]; exact (DrnSt.gw_gr_other _ _ hh).trans (DrnSt.gw_gr_other _ _ hg)
  · rw [ht, hI, hQ]; rfl
  · rw [ht]; exact congrArg (· + 4#16) ((DrnSt.gw_pc _ h _).trans (DrnSt.gw_pc _ g _))

/-! Accumulators. -/

@[simp] theorem DrnSt.aw_ar_same (z : DrnSt) (a : Nat) (v : BitVec 40 × BitVec 40) : (z.aw a v).ar a = v := by
  simp only [DrnSt.aw, DrnSt.ar, Tab.get_set_same]
theorem DrnSt.aw_ar_other (z : DrnSt) {a k : Nat} (v : BitVec 40 × BitVec 40) (h : k ≠ a) : (z.aw a v).ar k = z.ar k := by
  simp only [DrnSt.aw, DrnSt.ar]
  exact Tab.get_set_other _ _ _ h

/-- The drone after an instruction that puts an exact value into an accumulator, saturated (R391). -/
def DrnSt.accPut (z : DrnSt) (a : Nat) (v : Int × Int) : DrnSt :=
  { z.aw a (BitVec.ofInt 40 (Spec.held 40 v.1), BitVec.ofInt 40 (Spec.held 40 v.2)) with
    sat := z.sat || (Spec.held 40 v.1 != v.1 || Spec.held 40 v.2 != v.2) }
/-- A value that fits is put as it is, and SAT stays. -/
theorem DrnSt.accPut_of_fits (z : DrnSt) (a : Nat) {v : Int × Int} (h : Spec.held 40 v.1 = v.1 ∧ Spec.held 40 v.2 = v.2) :
    z.accPut a v = z.aw a (BitVec.ofInt 40 v.1, BitVec.ofInt 40 v.2) := by
  unfold DrnSt.accPut
  rw [h.1, h.2, bne_self_eq_false, bne_self_eq_false, Bool.or_self, Bool.or_false]
  rfl
/-- A register word fits an accumulator part. -/
theorem held_word (w : W) : Spec.held 40 w.toInt = w.toInt := by
  have hl : -2 ^ 31 ≤ w.toInt := BitVec.le_toInt w
  have hh : w.toInt < 2 ^ 31 := BitVec.toInt_lt
  exact held_of_fits (by omega) (by omega)

/-- Register words are put sign-extended (R391, CSET). -/
theorem DrnSt.accPut_words (z : DrnSt) (a : Nat) (v w : W) : z.accPut a (v.toInt, w.toInt) = z.aw a (v.signExtend 40, w.signExtend 40) :=
  DrnSt.accPut_of_fits z a (v := (v.toInt, w.toInt)) ⟨held_word v, held_word w⟩

/-- An instruction that puts a value into an accumulator leaves what `Spec.writesAcc` says. -/
theorem gives_of_accPut {i : Instr} {s : State} {x : Drn} {a : AReg} {f : DrnSt → DrnSt} {v : Int × Int}
    (hx : s.executes x = true) (e : exec i s = (Op.zynRun x f).next s) (hf : f (s.drnS x) = (s.drnS x).accPut a v) :
    Gives i s fun t => Spec.writesAcc s t x a v := by
  refine gives_of_zynRun Spec.accPcSat hx e hf rfl fun t ht only => ⟨?_, fun k hk => ?_, ?_, ?_, only⟩
  · rw [ht]; exact DrnSt.aw_ar_same _ _ _
  · rw [ht]; exact DrnSt.aw_ar_other _ _ fun h => hk (Fin.ext h)
  · rw [ht]; rfl
  · rw [ht]; rfl
/-- An instruction that adds to each part of an accumulator, saturated. -/
theorem gives_of_zynAcc {i : Instr} {s : State} {x : Drn} {a : AReg} {f : DrnSt → (BitVec 40 × Bool) × (BitVec 40 × Bool)} {v w : Int}
    (hx : s.executes x = true) (e : exec i s = (Op.zynAcc x a f).next s) (hf : f (s.drnS x) = (sat40 v, sat40 w)) :
    Gives i s fun t => Spec.writesAcc s t x a (v, w) :=
  gives_of_accPut hx e (by rw [hf, sat40_eq_held, sat40_eq_held]; rfl)

/-- The accumulators' instructions put the value that R391 gives. -/
theorem accValue_gives {s : State} {x : Drn} {i : Instr} {a : AReg} {v : Int × Int} (hx : s.executes x = true)
    (h : Spec.accValue s i = some (x, a, v)) : Gives i s fun t => Spec.writesAcc s t x a v := by
  cases i <;> simp only [Spec.accValue, Option.some.injEq, Prod.mk.injEq, reduceCtorEq] at h
  all_goals obtain ⟨rfl, rfl, rfl⟩ := h
  case cmul =>
    refine gives_of_accPut hx rfl ?_
    rw [DrnSt.accPut_of_fits _ _ (held_prod ..), cwMul_eq_prod]
    rfl
  case cmac =>
    refine gives_of_zynAcc hx rfl ?_
    simp only [accAdd, cwMul_eq_prod, State.gr]
  case cmsu =>
    refine gives_of_zynAcc hx rfl ?_
    simp only [accAdd, cwMul_eq_prod, State.gr, Int.sub_eq_add_neg]
  case cadd => exact gives_of_zynAcc hx rfl rfl
  case cset => exact gives_of_accPut hx rfl (DrnSt.accPut_words ..).symm
  case cclr => exact gives_of_accPut hx rfl (DrnSt.accPut_words _ _ 0#32 0#32).symm

/-- Settles O3: each result is rounded or exact, then saturated, and the rule of its kind of instruction says what is left. -/
theorem zynSaturatingResults : Obligations.ZynSaturatingResults := by
  intro s x _ hx
  refine ⟨fun d a b => gives_of_zynSat hx rfl (sat32_eq_held _), fun d a b => gives_of_zynSat hx rfl (sat32_eq_held _),
    fun d a b e he => gives_of_zynSat hx rfl ?_, fun g a n e f he hf => gives_of_zynSat hx rfl ?_,
    fun g h a n e f he hf => cext_gives g h a n hx he hf, fun i a v h => accValue_gives hx h⟩
  · rw [mulQ, ← sat32_eq_held, ← rne_of_nearest he]
    rfl
  · simp only [rnd16, rne_of_nearest he, rne_of_nearest hf, satS_eq_held]

end Sys2Proof.Machine
end

section
/-! SUPPORT. Post-modify (R392): the model's next pointer is that of the statements. -/
open Sys2Proof Sys2Proof.Machine
namespace Sys2Proof.Machine

/-- The bit that a longer reversal adds is the next one up, at the low end. -/
theorem revBits_succ_top (b : Nat) (v : Int) : revBits (b + 1) v = 2 * revBits b v + (v / 2 ^ b % 2).toNat := by
  induction b generalizing v with
  | zero => simp only [revBits, Int.pow_zero, Int.ediv_one]; split <;> omega
  | succ b ih =>
    have hb : v / 2 / 2 ^ b = v / 2 ^ (b + 1) := by rw [Int.ediv_ediv_of_nonneg (by decide), Int.pow_succ']
    rw [revBits, ih (v / 2), hb, revBits]
    split <;> omega
/-- Reversal of the low `b` bits does not see a multiple of 2^b. -/
theorem revBits_add_mul (b : Nat) (v k : Int) : revBits b (v + 2 ^ b * k) = revBits b v := by
  induction b generalizing v with
  | zero => rfl
  | succ b ih =>
    have hm : (2 : Int) ^ (b + 1) * k = 2 * (2 ^ b * k) := by rw [Int.pow_succ', Int.mul_assoc]
    have hd : (v + 2 * (2 ^ b * k)) / 2 = v / 2 + 2 ^ b * k := by omega
    have hr : (v + 2 * (2 ^ b * k)) % 2 = v % 2 := by omega
    rw [hm, revBits, revBits, hd, hr, ih]
/-- The statements' reversal of a word is the model's of its value. -/
theorem rev_eq_revBits (b : Nat) (v : W) : Spec.rev b v = revBits b (v.toNat : Int) := by
  induction b with
  | zero => rfl
  | succ b ih =>
    have hs : Spec.rev (b + 1) v = 2 * Spec.rev b v + (v.getLsbD b).toNat := by
      simp only [Spec.rev, List.range_succ, List.foldl_append, List.foldl_cons, List.foldl_nil]
    have hb : ((v.toNat : Int) / 2 ^ b % 2).toNat = (v.getLsbD b).toNat := by
      rw [← BitVec.testBit_toNat, Nat.toNat_testBit]
      exact_mod_cast rfl
    rw [hs, ih, revBits_succ_top, hb]
/-- The same for the words of a byte address, read as an integer that the word holds modulo 2^32. -/
theorem rev_shift_eq_revBits {b : Nat} (hb : b ≤ 12) {v : W} {o c : Int} (h : o = v.toNat + 2 ^ 32 * c) :
    Spec.rev b (v >>> 2) = revBits b (o / 4) := by
  have hp : (2 : Int) ^ 30 = 2 ^ b * 2 ^ (30 - b) := by rw [← Int.pow_add, Nat.add_sub_cancel' (by omega)]
  have ho : o / (4 : Int) = ((v >>> 2).toNat : Int) + 2 ^ b * (2 ^ (30 - b) * c) := by
    rw [← Int.mul_assoc, ← hp, BitVec.toNat_ushiftRight, Nat.shiftRight_eq_div_pow]
    omega
  rw [ho, revBits_add_mul, rev_eq_revBits]

/-- PL in bit-reversed mode: the model accepts the lengths that the statements accept. -/
theorem revLog_eq (pl : Nat) : revLog pl = ((List.range 12).map (· + 1)).find? fun b => pl == 4 * 2 ^ b := by
  rw [← List.findSome?_guard, List.findSome?_map]
  rfl
theorem revLog_le {pl b : Nat} (h : revLog pl = some b) : b ≤ 12 := by
  rw [revLog_eq] at h
  obtain ⟨i, hi, rfl⟩ := List.mem_map.1 (List.mem_of_find?_eq_some h)
  exact List.mem_range.1 hi

/-- The two readings of AMODE. -/
theorem mod_four_eq_extract (a : W) : a.toNat % 4 = (a.extractLsb' 0 2).toNat := by
  rw [BitVec.extractLsb'_toNat, Nat.shiftRight_zero]

/-- Linear mode. -/
theorem linear_pointer_eq (p pm : W) : BitVec.ofInt 32 ((p.toNat : Int) + pm.toInt) = p + pm := by
  rw [BitVec.ofInt_add, BitVec.ofInt_toInt, BitVec.ofInt_natCast, BitVec.ofNat_toNat, BitVec.setWidth_eq]
/-- Circular mode accepts the positive multiples of 4. -/
theorem circular_accepts_iff (pl : W) : (pl.toNat % 4 == 0 && Nat.ble 4 pl.toNat) = true ↔ pl.toNat % 4 = 0 ∧ pl ≠ 0#32 := by
  rw [Bool.and_eq_true, beq_iff_eq, Nat.ble_eq, ← BitVec.toNat_ne_iff_ne, BitVec.toNat_zero]
  omega
/-- A difference of words is the word of the difference, modulo 2^32; a signed reading is the unsigned one, modulo 2^32. -/
theorem toNat_sub_toNat_eq (p pb : W) : ∃ c : Int, (p.toNat : Int) - pb.toNat = (p - pb).toNat + 2 ^ 32 * c := by
  refine ⟨if pb.toNat ≤ p.toNat then 0 else -1, ?_⟩
  rw [BitVec.toNat_sub]
  split <;> omega
theorem toInt_eq_toNat_add (pm : W) : ∃ c : Int, pm.toInt = pm.toNat + 2 ^ 32 * c := by
  refine ⟨if 2 * pm.toNat < 2 ^ 32 then 0 else -1, ?_⟩
  rw [BitVec.toInt_eq_toNat_cond]
  split <;> omega
/-- Bit-reversed mode: the next index, of integers and of words. -/
theorem reversed_index_eq {b : Nat} (hb : b ≤ 12) (p pb pm : W) :
    revBits b (((revBits b (((p.toNat : Int) - pb.toNat) / 4) + revBits b (pm.toInt / 4)) % 2 ^ b : Nat) : Int)
      = Spec.rev b (BitVec.ofNat 32 ((Spec.rev b ((p - pb) >>> 2) + Spec.rev b (pm >>> 2)) % 2 ^ b)) := by
  obtain ⟨c, ho⟩ := toNat_sub_toNat_eq p pb
  obtain ⟨e, hm⟩ := toInt_eq_toNat_add pm
  rw [rev_eq_revBits, rev_shift_eq_revBits hb ho, rev_shift_eq_revBits hb hm, BitVec.toNat_ofNat]
  have hlt : ∀ n : Nat, n % 2 ^ b < 2 ^ 32 := fun n =>
    Nat.lt_of_lt_of_le (Nat.mod_lt n (Nat.two_pow_pos b)) (Nat.pow_le_pow_right (by decide) (by omega))
  rw [Nat.mod_eq_of_lt (hlt _)]

/-- A post-modify gives the pointer that the statements give, in each mode. -/
theorem DrnSt.post_eq (z : DrnSt) (k : PReg) (p : W) : z.post k p = Spec.post z k p := by
  unfold DrnSt.post Spec.post
  generalize Tab.get z.amode _ k = am
  generalize Tab.get z.pm _ k = pm
  generalize Tab.get z.pb _ k = pb
  generalize Tab.get z.pl _ k = pl
  rw [mod_four_eq_extract am]
  generalize am.extractLsb' 0 2 = m
  have hm : m = 0#2 ∨ m = 1#2 ∨ m = 2#2 ∨ m = 3#2 := by revert m; decide
  obtain rfl | rfl | rfl | rfl := hm
  · exact congrArg some (linear_pointer_eq p pm)
  · exact ite_congr (propext (circular_accepts_iff pl)) (fun _ => rfl) fun _ => rfl
  · show (revLog pl.toNat).map _ = Option.map _ _
    rw [← revLog_eq]
    refine Option.map_congr fun b hb => ?_
    rw [reversed_index_eq (revLog_le hb)]
  · rfl

end Sys2Proof.Machine
end

section
/-! PROOF of O6: clean reads of the data space, and the block exponent (R384, R393). -/
open Sys2Proof Sys2Proof.Machine
namespace Sys2Proof.Machine

/-! A clean read of the data space (R384, R409). -/

/-- The key of an offset in a drone's cell. -/
theorem cellKey_eq (x : Drn) (o : Nat) : cellKey x o = 0x30000000 + x.val * 0x40000 + o := by
  have h1 : Nat.blt (0x62 + x.val) 0x30 = false := by rw [← Bool.not_eq_true, Nat.blt_eq]; omega
  have h2 : Nat.blt (0x62 + x.val) 0x60 = false := by rw [← Bool.not_eq_true, Nat.blt_eq]; omega
  have h3 : (0x62 + x.val == 0x60) = false := by rw [beq_eq_false_iff_ne]; omega
  have h4 : (0x62 + x.val == 0x61) = false := by rw [beq_eq_false_iff_ne]; omega
  simp only [cellKey, regionBase, h1, h2, h3, h4, Bool.false_eq_true, if_false, Nat.add_sub_cancel_left]

/-- Where a data address leads: the cell's data, a code bank that a keeper reads, or comb memory within reach. -/
theorem dataWord_cases {s : State} {x : Drn} {a : W} {wr : Bool} {key : Nat} (h : Spec.dataWord s x a wr = some key) :
    a.toNat % 4 = 0 ∧ (a.toNat < 0x20000 ∧ key = cellKey x (0x20000 + a.toNat)
      ∨ (0x08000000 ≤ a.toNat ∧ a.toNat < 0x08020000) ∧ ((s.drnS x).keeper = true ∧ wr = false) ∧ key = cellKey x (a.toNat - 0x08000000)
      ∨ (0x10000000 ≤ a.toNat ∧ a.toNat < 0x12000000) ∧ ((s.drnS x).keeper = true
          ∨ (s.drnS x).cwinB.toNat ≤ a.toNat - 0x10000000 ∧ a.toNat - 0x10000000 + 4 ≤ (s.drnS x).cwinL.toNat)
        ∧ key = a.toNat - 0x10000000) := by
  rw [cellKey_eq, cellKey_eq]
  simp only [Spec.dataWord] at h
  split at h
  · cases h
  · refine ⟨by omega, ?_⟩
    split at h
    · next hdata => exact .inl ⟨hdata, by rw [← Option.some.inj h, Nat.add_assoc _ 0x20000]⟩
    · split at h
      · next hcode => obtain ⟨hlo, hhi, hmay⟩ := hcode; exact .inr (.inl ⟨⟨hlo, hhi⟩, hmay, (Option.some.inj h).symm⟩)
      · split at h
        · next hcomb => obtain ⟨hlo, hhi, hwin⟩ := hcomb; exact .inr (.inr ⟨⟨hlo, hhi⟩, hwin, (Option.some.inj h).symm⟩)
        · cases h

/-- The model reaches the key that the statements give for a data address. -/
theorem dataKey_of_dataWord {s : State} {x : Drn} {a : W} {wr : Bool} {key : Nat} (h : Spec.dataWord s x a wr = some key) :
    (s.drnS x).dataKey x a wr = .ok key := by
  simp only [DrnSt.dataKey, Nat.blt_eq, Nat.ble_eq, Bool.and_eq_true, Bool.or_eq_true, bne_iff_ne]
  obtain ⟨halign, ⟨hdata, hkey⟩ | ⟨hcode, ⟨hk, hwr⟩, hkey⟩ | ⟨hcomb, hwin, hkey⟩⟩ := dataWord_cases h
  · rw [if_neg (not_not_intro halign), if_pos hdata, hkey]
  · rw [if_neg (by omega), if_neg (by omega), if_pos hcode, hwr, if_pos ⟨hk, rfl⟩, hkey]
  · rw [if_neg (by omega), if_neg (by omega), if_neg (by omega), if_pos hcomb, if_pos hwin, hkey]

/-- A key of the data space lies in a cell or in comb memory. -/
theorem dataWord_key {s : State} {x : Drn} {a : W} {wr : Bool} {key : Nat} (h : Spec.dataWord s x a wr = some key) :
    key < 0x2000000 ∨ 0x30000000 ≤ key ∧ key < 0x38000000 := by
  have hx := x.isLt
  have hc := dataWord_cases h
  rw [cellKey_eq, cellKey_eq] at hc
  omega
/-- Its words are of 8 bytes (R407). -/
theorem wordOf_dataWord {s : State} {x : Drn} {a : W} {wr : Bool} {key : Nat} (h : Spec.dataWord s x a wr = some key) :
    wordOf key = key - key % 8 := by
  have hr : Nat.blt (regionOf key) 0x30 = false := by
    have hkey := dataWord_key h
    rw [← Bool.not_eq_true, Nat.blt_eq]
    simp only [regionOf, Nat.blt_eq]
    obtain hcomb | ⟨hlo, hhi⟩ := hkey
    · rw [if_pos (by omega)]
      decide
    · rw [if_neg (by omega), if_neg (by omega), if_neg (by omega), if_pos hhi]
      omega
  rw [wordOf, wordSz, hr]
  rfl

/-- A read that meets no error changes nothing. -/
theorem Op.eccRead_clean {s : State} {p : Option Party} {a : Nat} (hp : s.poisoned (wordOf a) = false)
    (hi : s.injAt (wordOf a) = false) : (Op.eccRead p a 0).run s = s := by
  have hn : s.injOf (wordOf a) = none := Option.not_isSome_iff_eq_none.1 (Bool.eq_false_iff.1 hi)
  have hs : s.syndAt (wordOf a) 0 = 0#8 := by
    rw [State.syndAt, hp, hn]
    rfl
  simp only [Op.eccRead, Op.dyn_run, hs]
  rfl
/-- A read that meets no error hands on the word. -/
theorem Op.memRead_clean {s : State} {p : Party} {a : Nat} {k : W → Op} (hp : s.poisoned (wordOf a) = false)
    (hi : s.injAt (wordOf a) = false) : (Op.memRead p a k).run s = (k (s.word a)).run s := by
  simp only [Op.memRead, Op.dyn_run, Op.thn_run, Op.eccRead_clean hp hi, hp]
  rfl
/-- A load from a clean word of the data space hands on the word. -/
theorem Op.dataRd_clean {s : State} {x : Drn} {a : W} {key : Nat} {k : W → Op} (h : Spec.dataWord s x a false = some key)
    (hc : Spec.clean s key) : (Op.dataRd x a k).run s = (k (s.word key)).run s := by
  obtain ⟨hp, hi⟩ := hc
  rw [← wordOf_dataWord h] at hp hi
  simp only [Op.dataRd, Op.dyn_run, dataKey_of_dataWord h, x.isLt, dite_true]
  exact Op.memRead_clean hp hi

/-! BEXP (R393). -/

/-- The largest magnitude of the parts of complex words, and `m`: what BEXP has gathered on its way. -/
def largestFrom (m : Nat) (l : List W) : Nat := l.foldl (fun m w => max m (max (Spec.re w).natAbs (Spec.im w).natAbs)) m
theorem largest_eq (l : List W) : Spec.largest l = largestFrom 0 l := rfl
/-- One word more, in the model's terms. -/
theorem largestFrom_cons (m : Nat) (w : W) (l : List W) : largestFrom m (w :: l) = largestFrom (max m (cwMag w)) l := by
  rw [cwMag, cwI_eq_re, cwQ_eq_im]
  rfl

/-- From pointer `q 0` on, drone `x` reads `n` clean words, at `key`, and moves the pointer along `q`. -/
def State.cleanPath (s : State) (x : Drn) (p : PReg) (n : Nat) (q : Nat → W) (key : Nat → Nat) : Prop :=
  ∀ i, i < n → Spec.dataWord s x (q i) false = some (key i) ∧ Spec.clean s (key i) ∧ Spec.post (s.drnS x) p (q i) = some (q (i + 1))
/-- The path after its first word. -/
theorem State.cleanPath_tail {s : State} {x : Drn} {p : PReg} {n : Nat} {q : Nat → W} {key : Nat → Nat}
    (h : s.cleanPath x p (n + 1) q key) : s.cleanPath x p n (fun i => q (i + 1)) fun i => key (i + 1) :=
  fun i hi => h (i + 1) (Nat.succ_lt_succ hi)

/-- BEXP along a clean path ends at the last pointer with the largest magnitude read, or the one that it began with. -/
theorem Op.bexpGo_run {s : State} {x : Drn} {p : PReg} (fin : W → Nat → Op) {n : Nat} {q : Nat → W} {key : Nat → Nat} (m : Nat)
    (h : s.cleanPath x p n q key) :
    (Op.bexpGo x p fin n (q 0) m).run s = (fin (q n) (largestFrom m ((List.range n).map fun i => s.word (key i)))).run s := by
  induction n generalizing q key m with
  | zero => rfl
  | succ n ih =>
    obtain ⟨hword, hclean, hpost⟩ := h 0 n.succ_pos
    rw [Op.bexpGo, Op.dataRd_clean hword hclean, Op.dyn_run, DrnSt.post_eq, hpost]
    simp only [List.range_succ_eq_map, List.map_cons, List.map_map, largestFrom_cons]
    exact ih _ (State.cleanPath_tail h)

@[simp] theorem DrnSt.pw_pr_same (z : DrnSt) (k : Nat) (v : W) : (z.pw k v).pr k = v := by
  simp only [DrnSt.pw, DrnSt.pr, Tab.get_set_same]
theorem DrnSt.pw_pr_other (z : DrnSt) {k j : Nat} (v : W) (h : j ≠ k) : (z.pw k v).pr j = z.pr j := by
  simp only [DrnSt.pw, DrnSt.pr]
  exact Tab.get_set_other _ _ _ h
@[simp] theorem DrnSt.gw_pr (z : DrnSt) (d k : Nat) (v : W) : (z.gw d v).pr k = z.pr k := by unfold DrnSt.gw; split <;> rfl

/-- A write of a general register and the advance of the PC leave the rest of the drone, its pointers aside. -/
theorem DrnSt.gw_adv_gpPc (z : DrnSt) (d : Nat) (v : W) : Spec.gpPc (z.gw d v).adv = Spec.gpPc z := by
  unfold DrnSt.gw; split <;> rfl

theorem blockExp_eq (m : Nat) : blockExp m = if m = 0 then 16#32 else BitVec.ofInt 32 (14 - (Nat.log2 m : Int)) := by
  simp only [blockExp, beq_iff_eq]

/-- With N = 0 BEXP reads nothing. -/
theorem bexp_zero_gives {s : State} {x : Drn} (d n : GReg) (p : PReg) (hx : s.executes x = true) (hn : (s.gr x n).toNat % 8192 = 0) :
    Gives (.bexp x d p n) s fun t => Spec.writesReg s t x d 16#32 4 := by
  have e : exec (.bexp x d p n) s = (Op.zynReg x d fun _ => 16#32).next s := by
    show (Op.zyn x (Op.bexp x d p ((s.gr x n).toNat % 8192))).next s = _
    rw [hn]
    rfl
  refine gives_of_zynRun Spec.gPc hx e rfl (DrnSt.gw_adv_rest _ d _) fun t ht only => ⟨?_, fun k hk => ?_, ?_, only⟩
  · rw [State.gr, ht]; exact DrnSt.gw_gr_same _ d _
  · rw [State.gr, ht]; exact DrnSt.gw_gr_other _ _ hk
  · rw [ht]; exact congrArg (· + 4#16) (DrnSt.gw_pc _ d _)

/-- BEXP along a clean path writes the last pointer and the block exponent of the words read. -/
theorem Op.bexp_run {s : State} {x : Drn} {p : PReg} {N : Nat} (d : GReg) {q : Nat → W} {key : Nat → Nat} (h1 : 1 ≤ N)
    (hN : N ≤ 4096) (hq : q 0 = (s.drnS x).pr p) (h : s.cleanPath x p N q key) :
    (Op.bexp x d p N).run s = (Op.drn x fun z =>
      ((z.pw p (q N)).gw d (blockExp (Spec.largest ((List.range N).map fun i => s.word (key i))))).adv).run s := by
  have h0 : (N == 0) = false := beq_eq_false_iff_ne.2 (by omega)
  have hle : Nat.ble N 4096 = true := Nat.ble_eq_true_of_le hN
  simp only [Op.bexp, Op.dyn_run, h0, ← hq, Bool.false_eq_true, if_false, Op.bexpGo_run _ 0 h, hle, if_true, largest_eq]

/-- Settles O6: the exponent of the words along the path, and 16 where there are none. -/
theorem zynBlockExponent : Obligations.ZynBlockExponent := by
  intro s x d n p _ hx
  refine ⟨fun q key h1 hN hq hpath => ?_, bexp_zero_gives d n p hx⟩
  have hrun := (Op.zyn_next s x _ hx).trans (congrArg Host.Outcome.next (Op.bexp_run (s := s.quiet) d h1 hN hq hpath))
  refine gives_of_drn Spec.gpPc hrun rfl ?_ fun t ht only => ⟨?_, fun k hk => ?_, ?_, fun k hk => ?_, ?_, only⟩
  · exact DrnSt.gw_adv_gpPc _ d _
  · rw [State.gr, ht, ← blockExp_eq]; exact DrnSt.gw_gr_same _ d _
  · rw [State.gr, ht]; exact DrnSt.gw_gr_other _ _ hk
  · rw [ht]; exact (DrnSt.gw_pr _ d p _).trans (DrnSt.pw_pr_same ..)
  · rw [ht]; exact (DrnSt.gw_pr _ d k _).trans (DrnSt.pw_pr_other _ _ fun h => hk (Fin.ext h))
  · rw [ht]; exact congrArg (· + 4#16) (DrnSt.gw_pc _ d _)

end Sys2Proof.Machine
end

section
/-! PROOF of ¬O14: the fourth word of a gait entry has no row in the register table, and a write of it has an effect (R54, R505). -/
open Sys2Proof Sys2Proof.Machine
namespace Sys2Proof.Machine

/-- A field that is 0 stays 0 under any mask. -/
theorem getFld_and_of_zero {w : W} {f : Fld} (m : W) (h : getFld w f = 0) : getFld (w &&& m) f = 0 := by
  refine Nat.eq_of_testBit_eq fun i => ?_
  have hi := congrArg (·.testBit i) h
  simp only [getFld_bit, Nat.zero_testBit] at hi ⊢
  rw [BitVec.getLsbD_and, ← Bool.and_assoc, hi, Bool.false_and]

/-- A write of any word but the first of a gait entry that nothing protects clears the entry's VALID (R54). -/
theorem Op.gaitWord_clears_valid {s : State} {n i w : Nat} {v : W} (hw : w ≠ 0) (hfree : s.gaitHeld n i w v = false) :
    ((Op.gaitWord n i w v).run s).bit (GAIT_W0 n i) GAIT_W0_VALID = false := by
  have hfirst : (w == 0) = false := beq_eq_false_iff_ne.2 hw
  simp only [Op.gaitWord, Op.dyn_run, hfree, hfirst, Bool.false_eq_true, if_false, Op.all_cons_run, Op.all_nil_run]
  rw [State.bit, State.fld, Op.setF_reg, if_pos rfl, getFld_and_of_zero _ (getFld_setFld_same (by decide) _ 0)]
  rfl

/-- After reset the domain of engine 0 goes to Run, and gait entry 1, which no selector names, becomes VALID. -/
def validGait : State := (Op.thn (Op.setF (PWR_DOM 0) PWR_DOM_STATE 0) (Op.flag (GAIT_W0 0 1) GAIT_W0_VALID)).run State.reset

theorem validGait_wf : validGait.Wf :=
  Op.keeps _ State.reset ⟨⟨⟨List.Pairwise.nil, nofun⟩, nofun⟩, List.Pairwise.nil, nofun⟩

/-- Word 3 of that entry, at +0xC: the chapter of the gait table reserves it (R52), and `layout` lists no register there. -/
def gaitWord3 : W := BitVec.ofNat 32 (GAIT_W0 0 1 + 0xC)

theorem exec_write_gaitWord3 :
    exec (.registerWrite .host .bar0 gaitWord3 15#4 0#32 none) validGait = (Op.gaitWord 0 1 3 0#32).next validGait := rfl

/-- Refutes O14: no register is listed at word 3 of a gait entry, but a write of it is one of the writes of words 1 to 3 that clear the
entry's VALID (R54). -/
theorem not_unassignedAddresses : ¬Obligations.UnassignedAddresses := by
  intro h
  have hserved : Spec.served validGait gaitWord3.toNat := ⟨by decide, show validGait.domState 0 < 3 by decide⟩
  obtain ⟨⟨t, hexec, hsame⟩, -, -⟩ :=
    h validGait .host gaitWord3 0#32 validGait_wf (by decide) (by decide) (by decide) (by decide) hserved
  have ht : (Op.gaitWord 0 1 3 0#32).run validGait.quiet = t := Host.Outcome.next.inj (exec_write_gaitWord3.symm.trans hexec)
  have hcleared : t.bit (GAIT_W0 0 1) GAIT_W0_VALID = false := ht ▸ Op.gaitWord_clears_valid (by decide) (by decide)
  have hvalid : validGait.quiet.bit (GAIT_W0 0 1) GAIT_W0_VALID = true := by decide
  rw [hsame, hvalid] at hcleared
  exact Bool.noConfusion hcleared

end Sys2Proof.Machine
end
